-- ==== Sys2Proof/Word.lean ====
section
/-! DEFINITION. The octet and the index types of the part: rooms, lines, addresses, ports, kitchens, zones and record numbers. -/

namespace Sys2Proof

/-- An octet of a frame (11, opening). -/
abbrev Byte := BitVec 8

/-- A room index 0..127 (02, The room table). -/
abbrev Room := Fin 128

/-- A panel line 0..3 (05). -/
abbrev Line := Fin 4

/-- A panel address 0..31 on its line (05). -/
abbrev Addr := Fin 32

/-- An agent port AP0..AP3 (09). -/
abbrev Port := Fin 4

/-- A kitchen 0..3 (07). -/
abbrev Kitchen := Fin 4

/-- A zone 0..4 (02 R18). -/
abbrev Zone := Fin 5

/-- The index of a booking record (03, Records and handles). -/
abbrev BookIx := Fin 2048

/-- The index of an order record (07, Orders). -/
abbrev OrderIx := Fin 512

/-- A panel event sequence or a display version, modulo 16 (05 R82, R97). -/
abbrev Seq := Fin 16

end Sys2Proof
end

