-- ==== Sys2Proof/Syntax.lean ====
section
/-! DEFINITION. The commands of the part: one constructor for each row of spec/opcode_table.json, in the table's order.
A command names a step and where it is taken. A request's own parameters come in its frame (requestTransaction) and stand in State
until the owner takes them, so the command of an owner taking a request names the port alone. -/

namespace Sys2Proof

/-- The six blocks that take ticks, time-sets and expiry indications (01 R4). -/
inductive TimedBlock where
  | rzt | rbk | psl | ocu | kpl | pwc
  deriving DecidableEq, Repr

/-- The producers of notices (08, The notice record). -/
inductive Producer where
  | rbk | kpl | ocu | ctu | pwc
  | plu (l : Line)
  deriving DecidableEq, Repr

/-- The commands. -/
inductive Instr where
  /-- POWER_ON_RESET (R187). Power-on reset sets every block to its defaults, samples the role straps and starts the part in RUN, or in RETAIN if power-fail is asserted. -/
  | powerOnReset (s0 s1 s2 s3 : BitVec 2) (powerFail : Bool)
  /-- REFERENCE_MINUTE_EXPIRY (R3). REFCOUNT wraps and the CTU advances the clock, swallows a slew minute, enters EXPIRED or does nothing, according to CSTATE. -/
  | referenceMinuteExpiry
  /-- TIME_SET (R4). A receiving block takes a time-set, adopts the new clock and marks its status set, and resets its time-dependent state as its chapter states. -/
  | timeSet (b : TimedBlock)
  /-- EXPIRY_INDICATION (R4). A receiving block takes the expiry indication and marks its clock status expired; OCU also flushes its unpresented queue items. -/
  | expiryIndication (b : TimedBlock)
  /-- BOOK_MINUTE_TICK (R50). RBK takes a minute tick, expires holds, scrubs 16 records and, at a slot boundary, runs the end, no-show and start passes. -/
  | bookMinuteTick
  /-- HOLD_EXPIRY (R44). A HELD record whose HOLD_EXPIRY has been reached is freed with HOLD_EXPIRED. -/
  | holdExpiry (i : BookIx)
  /-- END_BOUNDARY (R50). The end pass frees a live record whose END has been reached. -/
  | endBoundary (i : BookIx)
  /-- NO_SHOW_BOUNDARY (R51). A CONFIRMED record without EARLY_IN at start + G is released, or is made ACTIVE with UNVERIFIED. -/
  | noShowBoundary (i : BookIx)
  /-- START_BOUNDARY (R50). A CONFIRMED record with EARLY_IN reaching its start becomes ACTIVE and EARLY_IN is cleared. -/
  | startBoundary (i : BookIx)
  /-- USAGE_COUNT (R74). At a slot boundary PSL raises each room's usage counter and sets BASIS from presence, panel state and ACTIVE records. -/
  | usageCount
  /-- LEVELLING_HALVING (R78). At the rollover into LEVEL_DAY, PSL halves every usage counter and records LAST_HALVED. -/
  | levellingHalving
  /-- OCU_SLOT_BOUNDARY (R128). At a slot boundary OCU clears expired feedback, counts ghosts, tests presence check-ins and recomposes every room. -/
  | ocuSlotBoundary
  /-- FEEDBACK_EXPIRY (R116). A room's feedback whose expiry slot has been reached is made absent, and the room is recomposed. -/
  | feedbackExpiry (r : Room)
  /-- PLANNER_TICK (R137). KPL takes a minute tick and does its bucket-boundary, slot-boundary and rollover work in order. -/
  | plannerTick
  /-- ORDER_COMMIT (R137). A PLACED order whose earliest contribution bucket begins becomes COMMITTED with PREP_DUE. -/
  | orderCommit (o : OrderIx)
  /-- ORDER_DISPATCH (R137). A COMMITTED order whose departure bucket begins becomes DUE with DISPATCH_DUE. -/
  | orderDispatch (o : OrderIx)
  /-- LATE_MARKING (R138). A COMMITTED or DUE order past DELIVERY + LATE_MARGIN × 5 takes LATE with ORDER_LATE. -/
  | lateMarking (o : OrderIx)
  /-- PLANNER_ROLLOVER (R139). At the rollover KPL applies a ROLLOVER kitchen table, shifts the maps, places deferred orders and frees stale orphans. -/
  | plannerRollover
  /-- TABLE_ROLLOVER_APPLY (R30). At the rollover RZT makes active the staged tables pending under ROLLOVER and hands the configuration-applied signal. -/
  | tableRolloverApply
  /-- QUIET_START (R191). With AUTO on, the tick of Q_START moves RUN to QUIET. -/
  | quietStart
  /-- QUIET_END (R191). With AUTO on, the tick of Q_END moves QUIET to RUN. -/
  | quietEnd
  /-- QUERY_TIME (R12). Returns the clock, CSTATE, SLEW and weekday. -/
  | queryTime (p : Port)
  /-- SET_TIME (R8). Sets the clock from UNSET, or trims it forward, backward or not at all. -/
  | setTime (p : Port)
  /-- RESYNC (R13). Has RBK, KPL and PSL empty their state, then sets the clock and hands a time-set. -/
  | resync (p : Port)
  /-- BOOK_EMPTY (R67). For a RESYNC, the book frees every record without notices and answers UNKNOWN to pending attaches and moves. -/
  | bookEmpty
  /-- PLANNER_EMPTY (R161). For a RESYNC, the planner frees every order, zeroes the maps, empties the deferred list and the path, and reports emptied. -/
  | plannerEmpty
  /-- USAGE_EMPTY (R81). For a RESYNC, PSL zeroes the usage counters and BASIS and makes LAST_HALVED absent. -/
  | usageEmpty
  /-- RESYNC_COMPLETE (R13). When every owner has reported emptied, the CTU sets the clock, restarts REFCOUNT and hands the time-set. -/
  | resyncComplete
  /-- STAGE_ROOMS (R25). Writes room records into the staged room table and sets the method, applying at once for IMMEDIATE. -/
  | stageRooms (p : Port)
  /-- STAGE_ZONES (R26). Replaces the staged zone table, with attributes clamped, and sets the pending method. -/
  | stageZones (p : Port)
  /-- STAGE_DISCARD (R32). Replaces the named staged tables with their active copies and clears the pending methods. -/
  | stageDiscard (p : Port)
  /-- APPLY (R31). Makes the named staged room, zone or kitchen tables active and hands the applied signal for changed rooms. -/
  | apply (p : Port)
  /-- QUERY_ROOMS (R35). Returns room records from the active or staged table, with the table's pending method. -/
  | queryRooms (p : Port)
  /-- QUERY_ZONES (R35). Returns the pointers, attributes, room counts and effective kinds of a zone table copy. -/
  | queryZones (p : Port)
  /-- HOLD (R43). Creates a HELD booking in a named room or a pool room, with a hold expiry. -/
  | hold (p : Port)
  /-- BOOK (R43). Creates a CONFIRMED booking in a named room or a pool room. -/
  | book (p : Port)
  /-- CONFIRM (R44). Makes a HELD booking CONFIRMED. -/
  | confirm (p : Port)
  /-- FIND_FREE (R45). Reports the pool room PSL would choose, without booking it. -/
  | findFree (p : Port)
  /-- CANCEL (R46). Frees a booking with CANCELLED, according to its state and the requester's role. -/
  | cancel (p : Port)
  /-- MODIFY (R47). Changes a booking's span or attendees, at once or through a move when its start changes and it has an order. -/
  | modify (p : Port)
  /-- CHECK_IN (R53). Checks in or verifies a named booking, without the BADGE_ONLY test. -/
  | checkIn (p : Port)
  /-- ORDER (R56). The book checks the booking and sends an attach to the planner. -/
  | order (p : Port)
  /-- BLOCK_ROOM (R59). Checks the overlaps, runs the displacement cascade and inserts a BLOCK record. -/
  | blockRoom (p : Port)
  /-- UNBLOCK (R61). Frees a BLOCK record with CANCELLED. -/
  | unblock (p : Port)
  /-- CLEAR_BOOK_STATS (R64). Zeroes the corrected count and empties the damage trap. -/
  | clearBookStats (p : Port)
  /-- QUERY_ROOM (R66). Returns a room's schedule entries for a day and its release mark. -/
  | queryRoom (p : Port)
  /-- QUERY_BOOKING (R66). Returns a booking record's fields and state. -/
  | queryBooking (p : Port)
  /-- QUERY_BOOK_STATS (R64). Returns the record counts, corrected count, damage trap and scrub pointer. -/
  | queryBookStats (p : Port)
  /-- SET_LEVELLING_DAY (R79). Sets the levelling weekday. -/
  | setLevellingDay (p : Port)
  /-- QUERY_USAGE (R80). Returns usage counters and BASIS for a range of rooms, with LEVEL_DAY and LAST_HALVED. -/
  | queryUsage (p : Port)
  /-- ANNOUNCE (R101). Places an announcement in each named line's slot and answers once every line has sent it. -/
  | announce (p : Port)
  /-- CLEAR_LINE_STATS (R104). Zeroes the error counters and the trap of the named lines. -/
  | clearLineStats (p : Port)
  /-- LINE_RESET (R105). Makes every configured panel of the named lines OFFLINE, clears their acknowledgement state and clears the line statistics. -/
  | lineReset (p : Port)
  /-- QUERY_LINE (R103). Returns the panel contexts and statistics of one line. -/
  | queryLine (p : Port)
  /-- STAGE_KITCHEN (R133). Writes kitchen records into the staged kitchen table, with clamping, and sets the method, applying at once for IMMEDIATE. -/
  | stageKitchen (p : Port)
  /-- ORDER_RETRY (R150). Tries again to place an UNPLACED order. -/
  | orderRetry (p : Port)
  /-- ORDER_CANCEL (R152). Frees an uncommitted order and tells the book, or answers CATERING_COMMITTED. -/
  | orderCancel (p : Port)
  /-- MARK_DELIVERED (R151). Frees a COMMITTED or DUE order and tells the book it was delivered. -/
  | markDelivered (p : Port)
  /-- QUERY_KITCHEN (R140). Returns a kitchen's records, pending method and a range of bucket loads and headrooms. -/
  | queryKitchen (p : Port)
  /-- QUERY_ORDER (R162). Returns an order record's fields. -/
  | queryOrder (p : Port)
  /-- FETCH_NOTICES (R171). Removes up to 8 notices from the port's queue, returns them with the remaining count and LOST, and clears LOST. -/
  | fetchNotices (p : Port)
  /-- QUERY_NOTICES (R173). Returns the route table and each queue's length and LOST marker. -/
  | queryNotices (p : Port)
  /-- ROUTE_SET (R172). Replaces one route entry. -/
  | routeSet (p : Port)
  /-- SET_POWER (R189). Moves the supply state between RUN and QUIET. -/
  | setPower (p : Port)
  /-- SET_QUIET (R190). Replaces the quiet schedule and AUTO. -/
  | setQuiet (p : Port)
  /-- QUERY_POWER (R194). Returns the supply state, the quiet schedule and the last change. -/
  | queryPower (p : Port)
  /-- PANEL_CHECKIN (R52). OCU's request, granted by the book, to check in or verify the right meeting of a room. -/
  | panelCheckin
  /-- END_NOW (R54). OCU's request to free the room's ACTIVE record with ENDED. -/
  | endNow
  /-- EXTEND (R54). OCU's request to lengthen the room's ACTIVE record by 3 or 6 slots, as far as the next entry allows. -/
  | extend
  /-- WALKUP (R55). OCU's request to create an ACTIVE walk-up record from the current slot. -/
  | walkup
  /-- GHOST_RELEASE (R55). OCU's request to free a ghost ACTIVE record with GHOST_RELEASED and set the release mark. -/
  | ghostRelease
  /-- ATTACH (R147). The planner takes an attach, then defers, places or refuses the new order and answers the book. -/
  | attach
  /-- ATTACH_ANSWER (R57). The book takes the planner's answer to an attach, and writes ORDER or drops the order. -/
  | attachAnswer
  /-- MOVE (R156). The planner takes a move and re-places, defers or refuses the order for the new delivery minute. -/
  | move
  /-- MOVE_ANSWER (R49). The book takes the planner's answer to a move, completes it, and takes the record's held deadlines. -/
  | moveAnswer
  /-- BOOKING_LEFT (R154). The planner frees or orphans the order of a booking that has been freed. -/
  | bookingLeft
  /-- DROP_ORDER (R148). The planner frees an order the book could not accept, with ORDER_CANCELLED. -/
  | dropOrder
  /-- RESEAT (R155). The planner redirects an order to its booking's new room and answers reseat done. -/
  | reseat
  /-- ORDER_ENDED (R58). The book clears a booking's ORDER and, on delivery, sets CATERING_DELIVERED. -/
  | orderEnded
  /-- RESEAT_DONE (R58). The book takes the planner's acknowledgement of a reseat, which changes nothing. -/
  | reseatDone
  /-- NOT_FOUND (R58). The book takes the planner's not-found reply, which changes nothing. -/
  | notFound
  /-- BOOK_CONFIG_APPLIED (R65). RBK re-evaluates OVER_CAPACITY for live records in changed rooms and hands notices. -/
  | bookConfigApplied
  /-- BOOK_STOP (R68). At a stop the book withdraws waiting requests, abandons pending attaches and completes pending moves as not moved. -/
  | bookStop
  /-- PATH_STOP (R160). At a stop the path discards untaken moves and move answers, and the planner restores orders from MOVE_UNDO. -/
  | pathStop
  /-- CYCLE_START (R87). When the line is idle and its period has passed, the unit starts a cycle over its configured addresses. -/
  | cycleStart (l : Line) (elapsed : Nat)
  /-- GOOD_STATUS (R89). A good STATUS clears MISSED, brings the panel ONLINE, takes the display version, reports presence, walks the events and pushes a display. -/
  | goodStatus (l : Line) (octets : List Byte)
  /-- FRAME_ERROR (R88). A bad answer frame counts as a failed turn, raising MISSED, CRC_COUNT and the trap. -/
  | frameError (l : Line) (octets : List Byte)
  /-- ANSWER_TIMEOUT (R88). An answer interval in which no frame starts counts as a failed turn, raising MISSED, TIMEOUT_COUNT and the trap. -/
  | answerTimeout (l : Line)
  /-- CLAIM_WINDOW (R99). After the last poll turn the unit reads a six-bit claim window and finds the winning address, if any. -/
  | claimWindow (l : Line) (bits : BitVec 6)
  /-- VERDICT (R94). The unit takes OCU's TAKEN or REPEAT verdict for an event and advances or holds the acknowledgement. -/
  | verdict (l : Line) (a : Addr)
  /-- DISPLAY_RECORD (R96). The unit takes a display record from OCU and makes the panel's entry UNSENT. -/
  | displayRecord (l : Line) (a : Addr)
  /-- LINE_CONFIG_APPLIED (R86). The unit compares the panels named in the new room table with its contexts, and configures, moves or unconfigures them. -/
  | lineConfigApplied (l : Line)
  /-- LINE_SUPPLY_CHANGE (R90). The unit takes a supply-state change, and changes its cycle period or stops the line. -/
  | lineSupplyChange (l : Line)
  /-- LINE_WARM_START (R106). The unit abandons its turn, makes configured panels OFFLINE, resets the display versions and requests displays. -/
  | lineWarmStart (l : Line)
  /-- PRESENCE_REPORT (R108). OCU confirms a room's presence from two matching raw readings and reacts to a new OCCUPIED. -/
  | presenceReport (l : Line) (a : Addr)
  /-- PANEL_DOWN (R109). OCU makes the room's presence UNKNOWN. -/
  | panelDown (l : Line) (a : Addr)
  /-- PANEL_UP (R109). OCU takes a panel-up indication, which changes no presence. -/
  | panelUp (l : Line) (a : Addr)
  /-- PANEL_EVENT (R113). OCU turns a panel event into a queue item, an immediate feedback, or an issue report. -/
  | panelEvent (l : Line) (a : Addr)
  /-- BOOK_OUTCOME (R115). OCU takes the book's outcome for its presented item, sets feedback and a verdict, and presents the next item. -/
  | bookOutcome
  /-- SCHEDULE_INDICATION (R128). OCU recomposes a room after the book's schedule or record indication. -/
  | scheduleIndication
  /-- ORDER_INDICATION (R128). OCU recomposes an order's delivery room after the planner's order indication. -/
  | orderIndication
  /-- OCU_CONFIG_APPLIED (R129). OCU recomposes the changed rooms, re-handing displays to rooms whose panel changed. -/
  | ocuConfigApplied
  /-- DISPLAY_LOSS (R130). OCU composes and hands the room's record, even when unchanged. -/
  | displayLoss (l : Line) (a : Addr)
  /-- OCU_SUPPLY_CHANGE (R128). OCU takes a supply-state change, recomposes every room and, at RETAIN, makes presence UNKNOWN. -/
  | ocuSupplyChange
  /-- OCU_STOP (R112). At a stop OCU withdraws its ungranted request and empties its queue, handing REPEAT for panel items. -/
  | ocuStop
  /-- OCU_WARM_START (R131). OCU makes presence UNKNOWN and feedback absent, keeping LAST_DISPLAY. -/
  | ocuWarmStart
  /-- NOTICE (R169). NRT takes a notice, forms its destination set and places a copy in each chosen queue, dropping copies for full queues. -/
  | notice (from_ : Producer)
  /-- NOTICE_WARM_START (R175). NRT empties every queue and sets every LOST marker. -/
  | noticeWarmStart
  /-- STATUS_TRANSACTION (R177). A transaction that clocks out the status word and changes nothing. -/
  | statusTransaction (p : Port) (code : Byte)
  /-- REQUEST_TRANSACTION (R178). At select release the port judges the frame and answers it itself or hands it to its owner. -/
  | requestTransaction (p : Port) (octets : List Byte)
  /-- RESPONSE_TRANSACTION (R181). The port clocks out the held response, and a complete read returns it to IDLE and clears DROPPED. -/
  | responseTransaction (p : Port) (clocked : Nat)
  /-- OWNER_ANSWER (R180). The port takes an owner's answer and holds it as the response, or discards it. -/
  | ownerAnswer (p : Port)
  /-- QUEUE_LENGTH_REPORT (R182). The port takes a new notice queue length and drives its attention line. -/
  | queueLengthReport (p : Port)
  /-- PORT_STOP (R185). The port stops its link, abandons any pending request and loses any response. -/
  | portStop (p : Port)
  /-- PORT_WARM_START_COMPLETE (R186). The port returns to IDLE with DROPPED clear and reopens its link. -/
  | portWarmStartComplete (p : Port)
  /-- POWER_FAIL_ASSERT (R192). PWC enters RETAIN, stops the ports and hands the stop indication. -/
  | powerFailAssert
  /-- POWER_FAIL_RELEASE (R193). PWC begins a warm start with cause POWER_RETURN and hands the warm-start indication. -/
  | powerFailRelease
  /-- WARM_RESET (R193). PWC hands the stop indication and begins a warm start with cause WARM_RESET. -/
  | warmReset
  /-- WARM_START_COMPLETE (R193). When the six receivers have reported, PWC enters RUN, opens the ports and hands a SUPPLY notice. -/
  | warmStartComplete
  /-- MOVE_ANSWER_TAKEN (R160). The path tells the planner that the book has taken a moved answer, and the order's MOVE_UNDO becomes absent. -/
  | moveAnswerTaken
  deriving DecidableEq, Repr

end Sys2Proof
end

