-- ==== Sys2Proof/Config.lean ====
section
/-! DEFINITION. The numbers the manual fixes for every part, and what it leaves open: one order of events and the octets of CHECK. -/

namespace Sys2Proof.Config

/-- Periods of the reference input in a reference minute (01 R2). -/
def refMinute : Nat := 1966080

/-- Cycle period in RUN, in reference periods (05 R87). -/
def runPeriod : Nat := 16384

/-- Cycle period in QUIET, in reference periods (05 R87). -/
def quietPeriod : Nat := 131072

/-- The greatest day SET_TIME and RESYNC take (01 R8, R13). -/
def maxSetDay : Nat := 60000

/-- The greatest absolute slot (01 R7, 11 R197). -/
def maxSlot : Nat := 18874367

/-- The limit of a saturating counter of sixteen bits (03 R62, 04 R76, 05 R88). -/
def maxCount : Nat := 65535

/-- The longest notice queue (08 R170). -/
def queueLimit : Nat := 32

/-- Which notices NRT takes while a forward trim runs: for the n-th minute that a trim has reached before its last, the places in
`wires.notices` of the producers whose first notice NRT takes before the next minute, in order. The manual lets NRT take notices at
moments of its own during a trim (08 R163) and fixes no such moment, so this is left free (log 52). -/
opaque takenInTrim : Nat → List (Fin 9)

/-- The octets of CHECK in QUERY_BOOKING's answer, from the octets of the body fields that it covers. The manual gives neither the code nor
its width (03 R62, R66), so both are left free (log 10). -/
opaque checkOctets : List Byte → List Byte

end Sys2Proof.Config
end

