-- ==== Sys2Proof/Machine/State.lean ====
section
/-! DEFINITION. Everything the part holds, as plain data, and its state after power-on reset. -/

namespace Sys2Proof.Machine

/-! ## Campus time (01) -/

/-- A campus time: day and minute of the day (00, Campus time). -/
structure Clock where
  day : Nat
  minute : Nat
  deriving DecidableEq, Repr

/-- A receiving block's clock status (01 R4). -/
inductive ClockStatus where
  | unset | set | expired
  deriving DecidableEq, Repr

/-- A receiving block's own copy of the campus time (01 R4). -/
structure TimeCopy where
  now : Clock
  status : ClockStatus
  deriving DecidableEq, Repr

/-- What the CTU hands a receiving block, in order: a tick, a time-set, the expiry indication (01 R4), or the RESYNC order to empty
its state (01 R13). -/
inductive TimeMsg where
  | tick (c : Clock)
  | timeSet (c : Clock)
  | expiry
  | empty
  deriving DecidableEq, Repr

/-- State of the clock (01 R1). -/
inductive CState where
  | unset | running | slewing | expired
  deriving DecidableEq, Repr

/-- The RESYNC in progress: who asked, the clock to set, and which owners have reported their state emptied (01 R13). -/
structure Resync where
  port : Port
  reqno : Fin 256
  target : Clock
  rbk : Bool
  kpl : Bool
  psl : Bool
  deriving DecidableEq, Repr

/-- A CTU answer that waits until each receiving block has taken what was handed to it: how many messages each has left to take, and
whether the answer carries the clock (01 R8, R10, R13). -/
structure TimeWait where
  port : Port
  reqno : Fin 256
  showClock : Bool
  left : Vector Nat 6
  deriving DecidableEq, Repr

/-- The Campus Time Unit (01). `periods` is the running count of reference periods that a line unit measures its cycles in (05 R87).
`trimmed` counts the minutes that forward trims have reached before their last: the argument of the free choice of log 52. -/
structure Ctu where
  cstate : CState
  clock : Clock
  slew : Nat
  refcount : Nat
  periods : Nat
  resync : Option Resync
  waits : List TimeWait
  trimmed : Nat
  deriving DecidableEq, Repr

/-! ## Room and zone tables (02) -/

/-- A panel's line and address. -/
structure PanelAddr where
  line : Line
  addr : Addr
  deriving DecidableEq, Repr

/-- A room record (02, The room table). -/
structure RoomRec where
  cap : Nat
  bldg : Nat
  panel : Option PanelAddr
  k1 : Option Kitchen
  k2 : Option Kitchen
  travel : Vector Nat 4
  label : Nat
  deriving DecidableEq, Repr

/-- KIND of a zone (02, Zone attributes). -/
inductive ZoneKind where
  | pooled | named
  deriving DecidableEq, Repr

/-- BOOKERS of a zone: a set over GATEWAY, CONSOLE and WALKUP. -/
structure Bookers where
  gateway : Bool
  console : Bool
  walkup : Bool
  deriving DecidableEq, Repr

/-- A zone's attribute record (02, Zone attributes). -/
structure ZoneAttr where
  kind : ZoneKind
  bookers : Bookers
  e : Nat
  g : Nat
  h : Nat
  autorelease : Bool
  presenceCheckin : Bool
  badgeOnly : Bool
  w : Nat
  deriving DecidableEq, Repr

/-- The zone table: four boundary pointers and five attribute records (02 R18). -/
structure ZoneTable where
  b1 : Nat
  b2 : Nat
  b3 : Nat
  b4 : Nat
  attrs : Vector ZoneAttr 5
  deriving DecidableEq, Repr

/-- The pending method of a staged table (02 R24). -/
inductive PendMethod where
  | none | rollover | apply
  deriving DecidableEq, Repr

/-- The configuration-applied signal: the changed rooms, those of them whose PANEL changed (06 R129), and the tables applied (02 R34). -/
structure ConfigSignal where
  changed : List Room
  panelChanged : List Room
  rooms : Bool
  zones : Bool
  deriving DecidableEq, Repr

/-- An answer that waits until RBK, the four line units and OCU have taken a signal (02 R34). -/
structure ConfigWait where
  port : Port
  reqno : Fin 256
  payload : List Byte
  left : Vector Nat 6
  deriving DecidableEq, Repr

/-- Room and Zone Tables (02). -/
structure Rzt where
  rooms : Vector RoomRec 128
  stagedRooms : Vector RoomRec 128
  zones : ZoneTable
  stagedZones : ZoneTable
  roomMethod : PendMethod
  zoneMethod : PendMethod
  waits : List ConfigWait
  deriving DecidableEq, Repr

/-! ## The reservation book (03) -/

/-- A Booking ID. -/
structure BookingId where
  index : BookIx
  gen : Fin 32
  deriving DecidableEq, Repr

/-- An Order ID. -/
structure OrderId where
  index : OrderIx
  gen : Fin 128
  deriving DecidableEq, Repr

/-- STATE of a sound live record (03, Records and handles). -/
inductive BState where
  | held | confirmed | active | block
  deriving DecidableEq, Repr

/-- OWNER of a record: the port that made it, or PANEL. -/
inductive Owner where
  | port (p : Port)
  | panel
  deriving DecidableEq, Repr

/-- A span: start absolute slot and length in slots (00, Spans). -/
structure Span where
  start : Nat
  len : Nat
  deriving DecidableEq, Repr

/-- The body of a booking record. `faults` stands for CHECK: how many bits of the stored body are faulty (03 R62, log 10). -/
structure Body where
  state : BState
  room : Room
  span : Span
  owner : Owner
  organiser : Option (BitVec 32)
  display : Option Nat
  attendees : Option Nat
  holdExpiry : Option Nat
  checkinMinute : Option Nat
  cause : Option Nat
  earlyIn : Bool
  unverified : Bool
  overCapacity : Bool
  cateringDelivered : Bool
  fromPool : Bool
  faults : Nat
  deriving DecidableEq, Repr

/-- LIFE of a record. -/
inductive Life where
  | free | live | damaged
  deriving DecidableEq, Repr

/-- PENDING of a record: an exchange with the planner in progress. -/
inductive BPending where
  | none | attach | abandoned | move
  deriving DecidableEq, Repr

/-- A booking record: its body and its link part. -/
structure BookRec where
  body : Body
  life : Life
  gen : Fin 32
  order : Option OrderId
  pending : BPending
  deriving DecidableEq, Repr

/-- State summary of a schedule entry (03 R39). -/
inductive Summary where
  | held | confirmed | active | block | damaged | claim
  deriving DecidableEq, Repr

/-- A schedule entry (03 R39); `stop` is END. -/
structure Entry where
  start : Nat
  stop : Nat
  index : BookIx
  owner : Owner
  summary : Summary
  deriving DecidableEq, Repr

/-- A requester of the book's grant (03 R41). -/
inductive Requester where
  | port (p : Port)
  | ocu
  deriving DecidableEq, Repr

/-- An attach or move in flight: its serial number among the book's exchanges, the booking, whom its answer goes to (absent when
abandoned at a stop, 03 R68), and, for a move, the new span and attendee count (03 R48). The serial number is the model's own: it says
which exchange an answer on the path belongs to, so that no later exchange of the same booking takes it (03 R49, R67; log 59). -/
structure Exchange where
  serial : Nat
  id : BookingId
  who : Option (Port × Fin 256)
  move : Option (Span × Option Nat)
  deriving DecidableEq, Repr

/-- The Reservation Book (03). `boundaryRooms` and `boundaryZones` are the room and zone tables as they were active when the book took its
last slot boundary: the pair under which that boundary's deadlines are judged (02 R21, R22; log 53). `serial` is the number the next
exchange gets, and the exchanges numbered below `emptied` were discarded when the book last emptied for a RESYNC (R67): both are the
model's own (log 59). -/
structure Book where
  records : Vector BookRec 2048
  schedules : Vector (List Entry) 128
  releaseMarks : Vector (Option Nat) 128
  corrected : Nat
  trap : Option BookIx
  scrub : BookIx
  lastGrant : Requester
  frozen : Bool
  exchanges : List Exchange
  serial : Nat
  emptied : Nat
  boundaryRooms : Vector RoomRec 128
  boundaryZones : ZoneTable
  deriving DecidableEq, Repr

/-! ## The pool selector (04) -/

/-- BASIS of a room's counter (04). -/
inductive Basis where
  | none | occupied | booked | unverified
  deriving DecidableEq, Repr

/-- The Pool Selector (04). `frozen`: it is emptied for a RESYNC and waits for the time-set (R81; the model's own, log 65). -/
structure Psl where
  usage : Vector Nat 128
  basis : Vector Basis 128
  levelDay : Nat
  lastHalved : Option Nat
  frozen : Bool
  deriving DecidableEq, Repr

/-! ## The room display (06) -/

/-- ROOM_STATE of a display record (06, The room display). -/
inductive RoomState where
  | free | freeUntil | heldNext | bookedNext | checkinOpen | inUse | outOfService | checkConsole | notAvailable
  deriving DecidableEq, Repr

/-- CATERING of a display record. -/
inductive Catering where
  | none | preparing | onWay | late | delivered
  deriving DecidableEq, Repr

/-- A feedback code. -/
inductive Feedback where
  | ok | tooLate | notOrganiser | nothingToCheckIn | cannotExtend | busy | notAvailable
  deriving DecidableEq, Repr

/-- A display record (06); `till` is UNTIL. -/
structure DisplayRec where
  roomState : RoomState
  label : Nat
  meeting : Option Nat
  till : Option Nat
  next : Option Nat
  catering : Catering
  dim : Bool
  feedback : Option Feedback
  deriving DecidableEq, Repr

/-! ## Panel lines (05) -/

/-- PSTATE of a panel context. -/
inductive PState where
  | unconfigured | offline | online
  deriving DecidableEq, Repr

/-- A raw presence reading. -/
inductive Raw where
  | vacant | occupied | fault
  deriving DecidableEq, Repr

/-- The kind of a panel event with its argument; `void` is an event of no kind the part knows (05 R84). -/
inductive EvKind where
  | checkIn | endNow | extend15 | extend30
  | bookNow (badge : Option Nat)
  | reportIssue (code : Nat)
  | badge (number : Nat)
  | void
  deriving DecidableEq, Repr

/-- A panel event: its sequence, kind and argument. -/
structure PEvent where
  seq : Seq
  kind : EvKind
  deriving DecidableEq, Repr

/-- A DENTRY: awaiting OCU's record, holding one not pushed, or holding one pushed under a version (05). -/
inductive DEntry where
  | awaiting
  | unsent (d : DisplayRec)
  | sent (d : DisplayRec) (v : Seq)
  deriving DecidableEq, Repr

/-- A panel context (05, Panel contexts). `outstanding` keeps the room it was handed with (05 R86). -/
structure PanelCtx where
  pstate : PState
  room : Option Room
  missed : Nat
  rawLast : Option Raw
  rawPrev : Option Raw
  ackSeq : Option Seq
  outstanding : Option (PEvent × Option Room)
  evbuf : List PEvent
  dvSent : Option Seq
  dvAck : Option Seq
  dentry : Option DEntry
  deriving DecidableEq, Repr

/-- An announcement and the request it came with (05 R101). -/
structure Announcement where
  port : Port
  reqno : Fin 256
  pattern : Nat
  mask : Nat
  code : Nat
  duration : Nat
  deriving DecidableEq, Repr

/-- The kind of a trapped failed turn (05). -/
inductive TrapKind where
  | crc | timeout
  deriving DecidableEq, Repr

/-- What a line is doing: nothing, a poll or claim turn at an address, its claim window, stopped (05 R90), or restarted by a warm
start and waiting for it to complete (05 R106). -/
inductive LinePhase where
  | idle
  | turn (a : Addr) (claim : Bool)
  | window
  | stopped
  | restarted
  deriving DecidableEq, Repr

/-- A Panel Line Unit (05). `era` counts the RETAIN and warm-start indications the unit has taken: the model's own, by which a presence
report says before which of them the panel was polled (06 R110; log 62). -/
structure LineUnit where
  ctx : Vector PanelCtx 32
  cycleStart : Option Nat
  cycleList : List Addr
  annSlot : Option Announcement
  crcCount : Nat
  timeoutCount : Nat
  trap : Option (Addr × TrapKind)
  phase : LinePhase
  rest : List Addr
  annWait : List Announcement
  resetWait : List (Port × Fin 256)
  sent : List (List Byte)
  era : Nat
  deriving DecidableEq, Repr

/-- A request to several line units: the lines still to finish and, for ANNOUNCE, the matched counts so far (05 R101, 09 R184). -/
structure LineJob where
  port : Port
  reqno : Fin 256
  announce : Bool
  left : List Line
  counts : List (Line × Nat)
  deriving DecidableEq, Repr

/-! ## The occupancy unit (06) -/

/-- Confirmed presence. -/
inductive Presence where
  | unknown | vacant | occupied
  deriving DecidableEq, Repr

/-- What made a queue item. -/
inductive Origin where
  | panel | presence | ghost
  deriving DecidableEq, Repr

/-- The book request of a queue item. -/
inductive OcuRequest where
  | panelCheckin | endNow | extend | walkup | ghostRelease
  deriving DecidableEq, Repr

/-- The panel event a PANEL item came from. -/
structure Source where
  line : Line
  addr : Addr
  seq : Seq
  kind : EvKind
  deriving DecidableEq, Repr

/-- A queue item (06, The book request queue). -/
structure Item where
  origin : Origin
  room : Room
  request : OcuRequest
  badge : Option Nat
  slots : Option Nat
  source : Option Source
  deriving DecidableEq, Repr

/-- The book's outcome of an OCU request (03, Check-in and the Occupancy Unit's requests). DONE carries the Booking ID of a walk-up
(R55). -/
inductive BookOutcome where
  | checkedInEarly | checkedIn | verified | already | tooLate | nothing | notOrganiser | noGain
  | done (id : Option BookingId)
  | denied | noRoom | bookFull | busyRecord
  deriving DecidableEq, Repr

/-- The Occupancy Unit (06). `era` counts the RETAIN and warm-start indications OCU has taken: the model's own (log 62). -/
structure Ocu where
  presence : Vector Presence 128
  ghostCount : Vector Nat 128
  ghostRec : Vector (Option BookingId) 128
  feedback : Vector (Option (Feedback × Nat)) 128
  lastDisplay : Vector (Option DisplayRec) 128
  queue : List Item
  presented : Option Item
  era : Nat
  deriving DecidableEq, Repr

/-! ## The kitchen planner (07) -/

/-- A kitchen record. -/
structure KitchenRec where
  capb : Nat
  lead : Nat
  lateMargin : Nat
  enabled : Bool
  deriving DecidableEq, Repr

/-- STATE of an order. -/
inductive OState where
  | deferred | placed | committed | due | unplaced
  deriving DecidableEq, Repr

/-- KREQ: PRIMARY or a kitchen. -/
inductive KReq where
  | primary
  | kitchen (k : Kitchen)
  deriving DecidableEq, Repr

/-- Class of meal. -/
inductive MealClass where
  | light | hot | full
  deriving DecidableEq, Repr

/-- MOVE_UNDO: the order as it stood before a move not yet settled (07 R160). -/
structure MoveUndo where
  state : OState
  kitchen : Option Kitchen
  delivery : Int
  deliveryBucket : Int
  departure : Option Nat
  contribs : List (Nat × Nat)
  deferred : Bool
  deriving DecidableEq, Repr

/-- An order record (07, Orders). `live` is false for an index on the free list. -/
structure OrderRec where
  live : Bool
  gen : Fin 128
  state : OState
  booking : Option BookingId
  room : Room
  kreq : KReq
  fallback : Bool
  kitchen : Option Kitchen
  covers : Nat
  cls : MealClass
  units : Nat
  offset : Int
  delivery : Int
  deliveryBucket : Int
  departure : Option Nat
  contribs : List (Nat × Nat)
  owner : Port
  late : Bool
  redirected : Bool
  orphaned : Bool
  undo : Option MoveUndo
  deriving DecidableEq, Repr

/-- The Kitchen Planner (07). `boundaryMargins` are the LATE_MARGINs as they were active when the planner took its last slot boundary
(07 R135, log 53). -/
structure Kpl where
  kitchens : Vector KitchenRec 4
  staged : Vector KitchenRec 4
  method : PendMethod
  maps : Vector (Vector Nat 192) 4
  orders : Vector OrderRec 512
  deferred : List OrderIx
  frozen : Bool
  boundaryMargins : Vector Nat 4
  deriving DecidableEq, Repr

/-! ## Notices (08) -/

/-- The 28 notice kinds, in the order of the family table (08, 11 Notice record). -/
inductive NoticeKind where
  | booked | changed | cancelled | holdExpired | released | ghostReleased | ended | displaced | reseated | checkedIn | walkup
  | overCapacity | recordDamaged
  | orderPlaced | orderUnplaced | orderCancelled | prepDue | dispatchDue | orderLate | orderOrphaned | orderRedirected
  | orderAbandoned | kitchenOverload
  | panelOffline | panelOnline | issueReport
  | rollover | supply
  deriving DecidableEq, Repr

/-- A notice record (08, The notice record). -/
structure Notice where
  kind : NoticeKind
  date : Clock
  booking : Option BookingId
  order : Option OrderId
  room : Option Room
  panel : Option PanelAddr
  detail : Nat
  deriving DecidableEq, Repr

/-- A notice as a producer hands it: with its two routing items, and without a date when `dated` is false (08 R163). -/
structure HandedNotice where
  note : Notice
  dated : Bool
  owner : Option Port
  cause : Option Port
  deriving DecidableEq, Repr

/-- A route entry (08); `kind` absent is ANY. -/
structure Route where
  kind : Option NoticeKind
  zones : List Zone
  ports : List Port
  enabled : Bool
  deriving DecidableEq, Repr

/-- The Notice Router (08). -/
structure Nrt where
  routes : Vector Route 16
  queues : Vector (List Notice) 4
  lost : Vector Bool 4
  deriving DecidableEq, Repr

/-! ## Requests and agent ports (09, 11) -/

/-- A port's role (09 R183). -/
inductive Role where
  | gateway | console | catering | facilities
  deriving DecidableEq, Repr

/-- The result codes, in the order of the table (09, Result codes). -/
inductive Code where
  | ok | denied | conflict | noRoom | unknown | badState | badParam | horizon | tooLate | tooSoon | clockUnset | kitchenFull
  | cateringCommitted | bookFull | ordersFull | damaged | busyRecord | stepTooLarge | stageInvalid | badFrame
  deriving DecidableEq, Repr

/-- A room record as a frame carries it, its values not yet judged (02 R25). -/
structure RoomParam where
  cap : Nat
  bldg : Nat
  panel : Option Nat
  k1 : Option Nat
  k2 : Option Nat
  travel : Nat
  label : Nat
  deriving DecidableEq, Repr

/-- A zone attribute record as a frame carries it (02 R26). -/
structure ZoneParam where
  kind : Nat
  bookers : Nat
  e : Nat
  g : Nat
  h : Nat
  autorelease : Nat
  presenceCheckin : Nat
  badgeOnly : Nat
  w : Nat
  deriving DecidableEq, Repr

/-- A kitchen record as a frame carries it (07 R133). -/
structure KitchenParam where
  capb : Nat
  lead : Nat
  lateMargin : Nat
  enabled : Nat
  deriving DecidableEq, Repr

/-- A target as a frame carries it: ROOM or POOL, and an index (03 R42). -/
structure TargetParam where
  kind : Nat
  index : Nat
  deriving DecidableEq, Repr

/-- The order parameters as a frame carries them (07, Taking an order). -/
structure OrderParam where
  covers : Nat
  cls : Nat
  kreq : Nat
  offset : Int
  fallback : Nat
  deriving DecidableEq, Repr

/-- A request of the catalogue with its parameters as carried (09 R184, 11 R195). -/
inductive Request where
  | queryTime
  | setTime (day minute : Nat)
  | resync (day minute : Nat)
  | stageRooms (first : Nat) (recs : List RoomParam) (method : Nat)
  | stageZones (b1 b2 b3 b4 : Nat) (attrs : List ZoneParam) (method : Nat)
  | stageDiscard (table : Nat)
  | apply (table : Nat)
  | queryRooms (copy first count : Nat)
  | queryZones (copy : Nat)
  | hold (target : TargetParam) (span : Span) (attendees : Nat) (organiser : BitVec 32) (display : Nat) (time : Option Nat)
  | book (target : TargetParam) (span : Span) (attendees : Nat) (organiser : BitVec 32) (display : Nat)
  | confirm (id : BookingId)
  | findFree (zone : Nat) (span : Span) (attendees : Nat)
  | cancel (id : BookingId)
  | modify (id : BookingId) (start len attendees : Option Nat)
  | checkIn (id : BookingId)
  | order (id : BookingId) (prm : OrderParam)
  | blockRoom (room : Nat) (span : Span) (cause display force : Nat)
  | unblock (id : BookingId)
  | clearBookStats
  | queryRoom (room day : Nat) (cont : Option Nat)
  | queryBooking (id : BookingId)
  | queryBookStats
  | setLevellingDay (weekday : Nat)
  | queryUsage (first count : Nat)
  | announce (lines pattern mask code duration : Nat)
  | clearLineStats (lines : Nat)
  | lineReset (lines : Nat)
  | queryLine (line : Nat)
  | stageKitchen (first : Nat) (recs : List KitchenParam) (method : Nat)
  | orderRetry (id : OrderId)
  | orderCancel (id : OrderId)
  | markDelivered (id : OrderId)
  | queryKitchen (kitchen first count : Nat)
  | queryOrder (id : OrderId)
  | fetchNotices (count : Nat)
  | queryNotices
  | routeSet (index kind zones ports enabled : Nat)
  | setPower (target : Nat)
  | setQuiet (qStart qEnd auto : Nat)
  | queryPower
  deriving DecidableEq, Repr

/-- A request handed to its owner and not yet taken: with REQNO, the port's ROLE (09 R178), and whether the port has since been
stopped (09 R185). -/
structure HandedRequest where
  req : Request
  reqno : Fin 256
  role : Role
  stopped : Bool
  deriving DecidableEq, Repr

/-- An owner's answer on its way to a port (09 R180). -/
structure Answer where
  reqno : Fin 256
  code : Code
  payload : List Byte
  deriving DecidableEq, Repr

/-- PORT_STATE. -/
inductive PortState where
  | idle | pending | ready
  deriving DecidableEq, Repr

/-- LINK. -/
inductive Link where
  | open | stopped
  deriving DecidableEq, Repr

/-- A response waiting to be read. -/
structure Response where
  tag : Byte
  code : Code
  payload : List Byte
  deriving DecidableEq, Repr

/-- An agent port (09, The port record). `tag` is the tag of the latest frame handed; `dataOut` the octets of the latest transaction. -/
structure PortRec where
  state : PortState
  link : Link
  role : Role
  dropped : Bool
  reqno : Fin 256
  response : Option Response
  qlen : Nat
  tag : Byte
  dataOut : List Byte
  deriving DecidableEq, Repr

/-! ## The power controller (10) -/

/-- SSTATE. -/
inductive SState where
  | run | quiet | retain
  deriving DecidableEq, Repr

/-- PHASE. -/
inductive Phase where
  | open | stopped | starting
  deriving DecidableEq, Repr

/-- START_CAUSE. -/
inductive StartCause where
  | powerReturn | warmReset
  deriving DecidableEq, Repr

/-- LAST_CAUSE, in the order of its list (10). -/
inductive Cause where
  | request | scheduleStart | scheduleEnd | powerFail | powerReturn | warmReset
  deriving DecidableEq, Repr

/-- What PWC hands on: the new supply state, the warm-start indication, the stop indication, and to a port that the warm start is
complete (10 R188, R192, R193). -/
inductive SupplyMsg where
  | state (st : SState)
  | warmStart
  | stop
  | complete
  deriving DecidableEq, Repr

/-- A SET_POWER answer that waits for the line units and OCU (10 R189). -/
structure SupplyWait where
  port : Port
  reqno : Fin 256
  left : Vector Nat 5
  deriving DecidableEq, Repr

/-- The Power Controller (10). `powerFail` is the level of the power-fail input. -/
structure Pwc where
  sstate : SState
  phase : Phase
  startCause : Option StartCause
  qStart : Nat
  qEnd : Nat
  auto : Bool
  lastCause : Option Cause
  lastChange : Option Clock
  powerFail : Bool
  waits : List SupplyWait
  deriving DecidableEq, Repr

/-! ## What is on its way between blocks -/

/-- What a line unit hands OCU for one address (05 R89, R93, R98). A presence report carries the unit's `era` (log 62). -/
inductive LineMsg where
  | presence (era : Nat) (room : Room) (last : Raw) (prev : Option Raw)
  | down (room : Room)
  | up (room : Room)
  | event (room : Room) (ev : PEvent)
  | loss (room : Room)
  deriving DecidableEq, Repr

/-- What OCU hands a line unit for one address (06 R115, R127). -/
inductive OcuMsg where
  | verdict (seq : Seq) (taken : Bool)
  | display (d : DisplayRec)
  deriving DecidableEq, Repr

/-- The book's messages to the planner (07 R144). An attach or move carries the serial number of its exchange (log 59). -/
inductive BookMsg where
  | attach (serial : Nat) (id : BookingId) (room : Room) (start stop : Nat) (prm : OrderParam) (owner : Port)
  | move (serial : Nat) (id : BookingId) (order : OrderId) (room : Room) (start stop : Nat) (attendees : Option Nat)
  | bookingLeft (id : BookingId) (order : OrderId)
  | dropOrder (id : BookingId) (order : OrderId)
  | reseat (id : BookingId) (order : OrderId) (room : Room)
  deriving DecidableEq, Repr

/-- The planner's messages to the book (07 R144). An answer to an attach is an order or a failure code; an answer to a move is
*moved* (no code) or *not moved* with its code. Both carry the serial number of the exchange they answer (log 59). -/
inductive PlanMsg where
  | attachOk (serial : Nat) (id : BookingId) (order : OrderId)
  | attachFailed (serial : Nat) (id : BookingId) (code : Code)
  | moveAnswer (serial : Nat) (id : BookingId) (order : OrderId) (failure : Option Code)
  | orderEnded (id : BookingId) (order : OrderId) (delivered : Bool)
  | reseatDone (id : BookingId) (order : OrderId)
  | notFound (id : BookingId) (order : OrderId)
  deriving DecidableEq, Repr

/-- Everything handed from one block to another and not yet taken. Each list is in the order it was handed.
`time` is indexed by receiving block, `notices` by producer, `config` by receiver (lines 0..3, OCU 4, RBK 5), `supply` by receiver
(lines 0..3, OCU 4, NRT 5, RBK 6, the path 7, ports 8..11). `noticesBefore` counts, for each producer, its untaken notices that were handed
before the latest warm start began (08 R175; the model's own, log 60). -/
structure Wires where
  time : Vector (List TimeMsg) 6
  notices : Vector (List HandedNotice) 9
  noticesBefore : Vector Nat 9
  config : Vector (List ConfigSignal) 6
  supply : Vector (List SupplyMsg) 12
  fromLine : Vector (List (Addr × LineMsg)) 4
  toLine : Vector (List (Addr × OcuMsg)) 4
  sched : List Room
  orders : List Room
  outcome : Option BookOutcome
  toPlanner : List BookMsg
  toBook : List PlanMsg
  taken : List OrderId
  requests : Vector (List HandedRequest) 4
  answers : Vector (List Answer) 4
  qlens : Vector (List Nat) 4
  deriving DecidableEq, Repr

/-! ## The whole part -/

/-- The state of the part, and the queue of commands that wait. -/
structure State where
  pending : List Instr
  times : Vector TimeCopy 6
  ctu : Ctu
  rzt : Rzt
  book : Book
  psl : Psl
  lines : Vector LineUnit 4
  jobs : List LineJob
  ocu : Ocu
  kpl : Kpl
  nrt : Nrt
  ports : Vector PortRec 4
  pwc : Pwc
  wires : Wires
  deriving DecidableEq, Repr

/-- No step of this part faults: the manual names no fault that stops it (INVENTORY, Faults). -/
inductive Fault where
  deriving DecidableEq, Repr

/-- Why a command is refused. -/
inductive Refusal where
  /-- Raised by exec's arm for a command that has no meaning yet; safe, since the model stops. No arm raises it. -/
  | notModelled (mnemonic : String)
  deriving DecidableEq, Repr

/-! ## Power-on reset -/

/-- Campus time 0/00:00. -/
def Clock.zero : Clock := ⟨0, 0⟩

/-- 01 R4. -/
def TimeCopy.reset : TimeCopy := ⟨Clock.zero, .unset⟩

/-- 01 R1. -/
def Ctu.reset : Ctu :=
  { cstate := .unset, clock := Clock.zero, slew := 0, refcount := 0, periods := 0, resync := none, waits := [],
    trimmed := 0 }

/-- 02 R23. -/
def RoomRec.reset : RoomRec :=
  { cap := 0, bldg := 0, panel := none, k1 := none, k2 := none, travel := Vector.replicate 4 0, label := 0 }

/-- 02 R23. -/
def ZoneAttr.reset : ZoneAttr :=
  { kind := .named, bookers := ⟨true, true, false⟩, e := 2, g := 2, h := 0, autorelease := true, presenceCheckin := false,
    badgeOnly := false, w := 0 }

/-- 02 R23. -/
def ZoneTable.reset : ZoneTable := { b1 := 128, b2 := 128, b3 := 128, b4 := 128, attrs := Vector.replicate 5 ZoneAttr.reset }

/-- 02 R23. -/
def Rzt.reset : Rzt :=
  { rooms := Vector.replicate 128 RoomRec.reset, stagedRooms := Vector.replicate 128 RoomRec.reset, zones := ZoneTable.reset,
    stagedZones := ZoneTable.reset, roomMethod := .none, zoneMethod := .none, waits := [] }

/-- The body a free record holds: freed records keep no state (03, Records and handles; log 42). -/
def Body.blank : Body :=
  { state := .held, room := 0, span := ⟨0, 0⟩, owner := .panel, organiser := none, display := none, attendees := none,
    holdExpiry := none, checkinMinute := none, cause := none, earlyIn := false, unverified := false, overCapacity := false,
    cateringDelivered := false, fromPool := false, faults := 0 }

/-- A free record of a given generation. -/
def BookRec.blank (gen : Fin 32) : BookRec := { body := Body.blank, life := .free, gen := gen, order := none, pending := .none }

/-- 03 R67. -/
def Book.reset : Book :=
  { records := Vector.replicate 2048 (BookRec.blank 0), schedules := Vector.replicate 128 [],
    releaseMarks := Vector.replicate 128 none, corrected := 0, trap := none, scrub := 0, lastGrant := .ocu, frozen := false,
    exchanges := [], serial := 0, emptied := 0, boundaryRooms := Vector.replicate 128 RoomRec.reset, boundaryZones := ZoneTable.reset }

/-- 04 R69. -/
def Psl.reset : Psl :=
  { usage := Vector.replicate 128 0, basis := Vector.replicate 128 .none, levelDay := 0, lastHalved := none, frozen := false }

/-- 05 R85. -/
def PanelCtx.reset : PanelCtx :=
  { pstate := .unconfigured, room := none, missed := 0, rawLast := none, rawPrev := none, ackSeq := none, outstanding := none,
    evbuf := [], dvSent := none, dvAck := none, dentry := none }

/-- 05 R85. -/
def LineUnit.reset : LineUnit :=
  { ctx := Vector.replicate 32 PanelCtx.reset, cycleStart := none, cycleList := [], annSlot := none, crcCount := 0,
    timeoutCount := 0, trap := none, phase := .idle, rest := [], annWait := [], resetWait := [], sent := [], era := 0 }

/-- 06 R110, R116, R122, R131. -/
def Ocu.reset : Ocu :=
  { presence := Vector.replicate 128 .unknown, ghostCount := Vector.replicate 128 0, ghostRec := Vector.replicate 128 none,
    feedback := Vector.replicate 128 none, lastDisplay := Vector.replicate 128 none, queue := [], presented := none, era := 0 }

/-- 07 R132. -/
def KitchenRec.reset : KitchenRec := { capb := 0, lead := 4, lateMargin := 2, enabled := false }

/-- A free order record of a given generation (log 42). -/
def OrderRec.blank (gen : Fin 128) : OrderRec :=
  { live := false, gen := gen, state := .deferred, booking := none, room := 0, kreq := .primary, fallback := false, kitchen := none,
    covers := 0, cls := .light, units := 0, offset := 0, delivery := 0, deliveryBucket := 0, departure := none, contribs := [],
    owner := 0, late := false, redirected := false, orphaned := false, undo := none }

/-- 07 R132, R136, R141. -/
def Kpl.reset : Kpl :=
  { kitchens := Vector.replicate 4 KitchenRec.reset, staged := Vector.replicate 4 KitchenRec.reset, method := .none,
    maps := Vector.replicate 4 (Vector.replicate 192 0), orders := Vector.replicate 512 (OrderRec.blank 0), deferred := [],
    frozen := false, boundaryMargins := Vector.replicate 4 2 }

/-- 08 R174. -/
def Route.reset : Route := { kind := none, zones := [], ports := [], enabled := false }

/-- 08 R174. -/
def Nrt.reset : Nrt :=
  { routes := Vector.replicate 16 Route.reset, queues := Vector.replicate 4 [], lost := Vector.replicate 4 false }

/-- 09 R176, with the role its straps give. -/
def PortRec.reset (role : Role) : PortRec :=
  { state := .idle, link := .open, role := role, dropped := false, reqno := 0, response := none, qlen := 0, tag := 0, dataOut := [] }

/-- 10 R187. -/
def Pwc.reset : Pwc :=
  { sstate := .run, phase := .open, startCause := none, qStart := 1200, qEnd := 420, auto := false, lastCause := none,
    lastChange := none, powerFail := false, waits := [] }

/-- Nothing is on its way. -/
def Wires.empty : Wires :=
  { time := Vector.replicate 6 [], notices := Vector.replicate 9 [], noticesBefore := Vector.replicate 9 0,
    config := Vector.replicate 6 [], supply := Vector.replicate 12 [], fromLine := Vector.replicate 4 [],
    toLine := Vector.replicate 4 [], sched := [], orders := [],
    outcome := none, toPlanner := [], toBook := [], taken := [], requests := Vector.replicate 4 [],
    answers := Vector.replicate 4 [], qlens := Vector.replicate 4 [] }

/-- The part after power-on reset with the supply good, its ports in the given roles. -/
def State.powerOn (roles : Vector Role 4) : State :=
  { pending := [], times := Vector.replicate 6 TimeCopy.reset, ctu := Ctu.reset, rzt := Rzt.reset, book := Book.reset,
    psl := Psl.reset, lines := Vector.replicate 4 LineUnit.reset, jobs := [], ocu := Ocu.reset, kpl := Kpl.reset, nrt := Nrt.reset,
    ports := #v[PortRec.reset roles[0], PortRec.reset roles[1], PortRec.reset roles[2], PortRec.reset roles[3]],
    pwc := Pwc.reset, wires := Wires.empty }

/-- The part after power-on reset. The straps are inputs: here AP0 is GATEWAY, AP1 CONSOLE, AP2 CATERING and AP3 FACILITIES, as in the
manual's worked sequences (DESIGN CHOICE, log 1). POWER_ON_RESET takes any straps. -/
def State.reset : State := State.powerOn #v[.gateway, .console, .catering, .facilities]

end Sys2Proof.Machine
end

