-- ==== Sys2Proof/Machine/Operands.lean ====
section
/-! DEFINITION. The encodings of 11: fields in octets, request frames, responses, panel frames and notices, and their decoding. -/

namespace Sys2Proof.Machine

/-! ## Numbers in octets, most significant octet first (11, opening) -/

/-- One octet. -/
def e1 (n : Nat) : List Byte := [BitVec.ofNat 8 n]

/-- Two octets. -/
def e2 (n : Nat) : List Byte := [BitVec.ofNat 8 (n / 256), BitVec.ofNat 8 n]

/-- Four octets. -/
def e4 (n : Nat) : List Byte := e2 (n / 65536) ++ e2 n

/-- A signed quantity in four octets, two's complement (log 37). -/
def eInt4 (i : Int) : List Byte := e4 (BitVec.ofInt 32 i).toNat

/-- OFFSET in one octet, two's complement (R197). -/
def eInt1 (i : Int) : List Byte := [BitVec.ofInt 8 i]

/-- A flag or an on/off value (R197). A set flag or *on* is carried as 1: 11 R197 says only 0 or 1, and this is the model's choice
(log 57). -/
def eFlag (b : Bool) : List Byte := e1 b.toNat

/-- An optional item: a presence octet, then the value (R196). -/
def eOpt {α : Type} (f : α → List Byte) : Option α → List Byte
  | none => e1 0
  | some a => e1 1 ++ f a

/-- A list: a two-octet count, then the members (R196). -/
def eList {α : Type} (f : α → List Byte) (xs : List α) : List Byte := e2 xs.length ++ xs.flatMap f

/-! ## Codes of enumerations, from 0 in the order of the defining table (R197) -/

def Code.toNat : Code → Nat
  | .ok => 0 | .denied => 1 | .conflict => 2 | .noRoom => 3 | .unknown => 4 | .badState => 5 | .badParam => 6 | .horizon => 7
  | .tooLate => 8 | .tooSoon => 9 | .clockUnset => 10 | .kitchenFull => 11 | .cateringCommitted => 12 | .bookFull => 13
  | .ordersFull => 14 | .damaged => 15 | .busyRecord => 16 | .stepTooLarge => 17 | .stageInvalid => 18 | .badFrame => 19

def CState.toNat : CState → Nat
  | .unset => 0 | .running => 1 | .slewing => 2 | .expired => 3

def ZoneKind.toNat : ZoneKind → Nat
  | .pooled => 0 | .named => 1

def PendMethod.toNat : PendMethod → Nat
  | .none => 0 | .rollover => 1 | .apply => 2

def BState.toNat : BState → Nat
  | .held => 0 | .confirmed => 1 | .active => 2 | .block => 3

def Owner.toNat : Owner → Nat
  | .port p => p.val
  | .panel => 4

def Summary.toNat : Summary → Nat
  | .held => 0 | .confirmed => 1 | .active => 2 | .block => 3 | .damaged => 4 | .claim => 5

def BPending.toNat : BPending → Nat
  | .none => 0 | .attach => 1 | .abandoned => 2 | .move => 3

def Basis.toNat : Basis → Nat
  | .none => 0 | .occupied => 1 | .booked => 2 | .unverified => 3

def PState.toNat : PState → Nat
  | .unconfigured => 0 | .offline => 1 | .online => 2

def Raw.toNat : Raw → Nat
  | .vacant => 0 | .occupied => 1 | .fault => 2

def TrapKind.toNat : TrapKind → Nat
  | .crc => 0 | .timeout => 1

def RoomState.toNat : RoomState → Nat
  | .free => 0 | .freeUntil => 1 | .heldNext => 2 | .bookedNext => 3 | .checkinOpen => 4 | .inUse => 5 | .outOfService => 6
  | .checkConsole => 7 | .notAvailable => 8

def Catering.toNat : Catering → Nat
  | .none => 0 | .preparing => 1 | .onWay => 2 | .late => 3 | .delivered => 4

def Feedback.toNat : Feedback → Nat
  | .ok => 0 | .tooLate => 1 | .notOrganiser => 2 | .nothingToCheckIn => 3 | .cannotExtend => 4 | .busy => 5 | .notAvailable => 6

def OState.toNat : OState → Nat
  | .deferred => 0 | .placed => 1 | .committed => 2 | .due => 3 | .unplaced => 4

def MealClass.toNat : MealClass → Nat
  | .light => 0 | .hot => 1 | .full => 2

/-- PRIMARY 0, then kitchen k as k + 1 (log 16). -/
def KReq.toNat : KReq → Nat
  | .primary => 0
  | .kitchen k => k.val + 1

def SState.toNat : SState → Nat
  | .run => 0 | .quiet => 1 | .retain => 2

def Cause.toNat : Cause → Nat
  | .request => 0 | .scheduleStart => 1 | .scheduleEnd => 2 | .powerFail => 3 | .powerReturn => 4 | .warmReset => 5

def PortState.toNat : PortState → Nat
  | .idle => 0 | .pending => 1 | .ready => 2

/-- ROLE follows the straps (R197). -/
def Role.toNat : Role → Nat
  | .gateway => 0 | .console => 1 | .catering => 2 | .facilities => 3

def NoticeKind.toNat : NoticeKind → Nat
  | .booked => 0 | .changed => 1 | .cancelled => 2 | .holdExpired => 3 | .released => 4 | .ghostReleased => 5 | .ended => 6
  | .displaced => 7 | .reseated => 8 | .checkedIn => 9 | .walkup => 10 | .overCapacity => 11 | .recordDamaged => 12
  | .orderPlaced => 13 | .orderUnplaced => 14 | .orderCancelled => 15 | .prepDue => 16 | .dispatchDue => 17 | .orderLate => 18
  | .orderOrphaned => 19 | .orderRedirected => 20 | .orderAbandoned => 21 | .kitchenOverload => 22 | .panelOffline => 23
  | .panelOnline => 24 | .issueReport => 25 | .rollover => 26 | .supply => 27

/-- Every notice kind, in code order. -/
def NoticeKind.all : List NoticeKind :=
  [.booked, .changed, .cancelled, .holdExpired, .released, .ghostReleased, .ended, .displaced, .reseated, .checkedIn, .walkup,
   .overCapacity, .recordDamaged, .orderPlaced, .orderUnplaced, .orderCancelled, .prepDue, .dispatchDue, .orderLate, .orderOrphaned,
   .orderRedirected, .orderAbandoned, .kitchenOverload, .panelOffline, .panelOnline, .issueReport, .rollover, .supply]

/-- The role two strap bits give (09 R183). -/
def Role.ofStraps (s : BitVec 2) : Role :=
  if s = 0 then .gateway else if s = 1 then .console else if s = 2 then .catering else .facilities

/-! ## Records in octets (R197) -/

def eClock (c : Clock) : List Byte := e2 c.day ++ e2 c.minute

def eRoom (r : Room) : List Byte := e1 r.val

/-- Index in bits 15..5, generation in bits 4..0. -/
def BookingId.word (i : BookingId) : Nat := i.index.val * 32 + i.gen.val

/-- Index in bits 15..7, generation in bits 6..0. -/
def OrderId.word (i : OrderId) : Nat := i.index.val * 128 + i.gen.val

def eBookingId (i : BookingId) : List Byte := e2 i.word

def eOrderId (i : OrderId) : List Byte := e2 i.word

def eSpan (s : Span) : List Byte := e4 s.start ++ e1 s.len

/-- Line in bits 6..5, address in bits 4..0. -/
def PanelAddr.octet (p : PanelAddr) : Nat := p.line.val * 32 + p.addr.val

/-- Kitchen 0 in bits 2..0, up to kitchen 3 in bits 11..9. -/
def eTravel (t : Vector Nat 4) : List Byte := e2 (t[0] + t[1] * 8 + t[2] * 64 + t[3] * 512)

def eRoomRec (r : RoomRec) : List Byte :=
  e1 r.cap ++ e1 r.bldg ++ eOpt (fun p => e1 p.octet) r.panel ++ eOpt (fun k => e1 k.val) r.k1 ++ eOpt (fun k => e1 k.val) r.k2 ++
    eTravel r.travel ++ e2 r.label

/-- Bit 0 GATEWAY, bit 1 CONSOLE, bit 2 WALKUP. -/
def Bookers.octet (b : Bookers) : Nat := b.gateway.toNat + b.console.toNat * 2 + b.walkup.toNat * 4

def eZoneAttr (a : ZoneAttr) : List Byte :=
  e1 a.kind.toNat ++ e1 a.bookers.octet ++ e1 a.e ++ e1 a.g ++ e1 a.h ++ eFlag a.autorelease ++ eFlag a.presenceCheckin ++
    eFlag a.badgeOnly ++ e1 a.w

def eKitchen (k : KitchenRec) : List Byte := e1 k.capb ++ e1 k.lead ++ e1 k.lateMargin ++ eFlag k.enabled

/-- The five flags of a body, in the order of its table (log 16). -/
def eFlags (b : Body) : List Byte :=
  eFlag b.earlyIn ++ eFlag b.unverified ++ eFlag b.overCapacity ++ eFlag b.cateringDelivered ++ eFlag b.fromPool

/-- A set over 0..7 as one octet, bit n for member n. -/
def setOctet (xs : List Nat) : Nat :=
  ((List.range 8).filter (fun n => xs.contains n)).foldl (fun acc n => acc + 2 ^ n) 0

/-- ANY is 255 (R197). -/
def eRoute (r : Route) : List Byte :=
  e1 (r.kind.elim 255 NoticeKind.toNat) ++ e1 (setOctet (r.zones.map Fin.val)) ++ e1 (setOctet (r.ports.map Fin.val)) ++
    eFlag r.enabled

/-- A notice in 14 octets (11, Notice record). -/
def eNotice (n : Notice) : List Byte :=
  e1 n.kind.toNat ++
    e1 (n.booking.isSome.toNat + n.order.isSome.toNat * 2 + n.room.isSome.toNat * 4 + n.panel.isSome.toNat * 8) ++
    eClock n.date ++ e2 (n.booking.elim 0 BookingId.word) ++ e2 (n.order.elim 0 OrderId.word) ++
    e1 (n.room.elim 0 Fin.val) ++ e1 (n.panel.elim 0 PanelAddr.octet) ++ e2 n.detail

/-- A DETAIL of two items: the first in octet 12, the second in octet 13 (11). -/
def detail2 (a b : Nat) : Nat := a * 256 + b

/-! ## Reading octets -/

/-- A reader: the value read and the octets left, or nothing when they do not suffice. -/
abbrev Reader (α : Type) := List Byte → Option (α × List Byte)

def r1 : Reader Nat
  | b :: bs => some (b.toNat, bs)
  | [] => none

def r2 : Reader Nat
  | a :: b :: bs => some (a.toNat * 256 + b.toNat, bs)
  | _ => none

def r4 : Reader Nat
  | a :: b :: c :: d :: bs => some (((a.toNat * 256 + b.toNat) * 256 + c.toNat) * 256 + d.toNat, bs)
  | _ => none

/-- An optional parameter: presence octet 0, or 1 and the value; any other presence octet fails (R195). -/
def rOpt {α : Type} (r : Reader α) : Reader (Option α)
  | [] => none
  | b :: bs => if b = 0 then some (none, bs) else if b = 1 then (r bs).map (fun x => (some x.1, x.2)) else none

/-- `n` values one after another. -/
def rTimes {α : Type} (r : Reader α) : Nat → Reader (List α)
  | 0, bs => some ([], bs)
  | n + 1, bs => do
    let (a, bs) ← r bs
    let (as, bs) ← rTimes r n bs
    return (a :: as, bs)

/-- A list preceded by its one-octet count (R195). -/
def rCounted {α : Type} (r : Reader α) : Reader (List α) := fun bs => do
  let (n, bs) ← r1 bs
  rTimes r n bs

def BookingId.ofWord (w : Nat) : BookingId := ⟨Fin.ofNat 2048 (w / 32), Fin.ofNat 32 w⟩

def OrderId.ofWord (w : Nat) : OrderId := ⟨Fin.ofNat 512 (w / 128), Fin.ofNat 128 w⟩

def rBookingId : Reader BookingId := fun bs => (r2 bs).map (fun x => (BookingId.ofWord x.1, x.2))

def rOrderId : Reader OrderId := fun bs => (r2 bs).map (fun x => (OrderId.ofWord x.1, x.2))

def rSpan : Reader Span := fun bs => do
  let (s, bs) ← r4 bs
  let (n, bs) ← r1 bs
  return (⟨s, n⟩, bs)

def rTarget : Reader TargetParam := fun bs => do
  let (k, bs) ← r1 bs
  let (i, bs) ← r1 bs
  return (⟨k, i⟩, bs)

def rRoomParam : Reader RoomParam := fun bs => do
  let (cap, bs) ← r1 bs
  let (bldg, bs) ← r1 bs
  let (panel, bs) ← rOpt r1 bs
  let (k1, bs) ← rOpt r1 bs
  let (k2, bs) ← rOpt r1 bs
  let (travel, bs) ← r2 bs
  let (label, bs) ← r2 bs
  return (⟨cap, bldg, panel, k1, k2, travel, label⟩, bs)

def rZoneParam : Reader ZoneParam := fun bs => do
  let (kind, bs) ← r1 bs
  let (bookers, bs) ← r1 bs
  let (e, bs) ← r1 bs
  let (g, bs) ← r1 bs
  let (h, bs) ← r1 bs
  let (a, bs) ← r1 bs
  let (p, bs) ← r1 bs
  let (b, bs) ← r1 bs
  let (w, bs) ← r1 bs
  return (⟨kind, bookers, e, g, h, a, p, b, w⟩, bs)

def rKitchenParam : Reader KitchenParam := fun bs => do
  let (capb, bs) ← r1 bs
  let (lead, bs) ← r1 bs
  let (late, bs) ← r1 bs
  let (en, bs) ← r1 bs
  return (⟨capb, lead, late, en⟩, bs)

def rOrderParam : Reader OrderParam := fun bs => do
  let (covers, bs) ← r1 bs
  let (cls, bs) ← r1 bs
  let (kreq, bs) ← r1 bs
  let (off, bs) ← r1 bs
  let (fb, bs) ← r1 bs
  return (⟨covers, cls, kreq, (BitVec.ofNat 8 off).toInt, fb⟩, bs)

/-- The parameters must end where the frame's do (R195). -/
def fin (q : Request) : List Byte → Option Request
  | [] => some q
  | _ :: _ => none

/-- The request of a kind code, with its parameters in the order its owning rule names them; nothing for a code that names no request
or octets that do not suit it (R195). The codes count through the catalogue of R184. -/
def readRequest (kind : Nat) (bs : List Byte) : Option Request :=
  match kind with
  | 1 => fin .queryTime bs
  | 2 => do
    let (d, bs) ← r2 bs
    let (m, bs) ← r2 bs
    fin (.setTime d m) bs
  | 3 => do
    let (d, bs) ← r2 bs
    let (m, bs) ← r2 bs
    fin (.resync d m) bs
  | 4 => do
    let (first, bs) ← r1 bs
    let (recs, bs) ← rCounted rRoomParam bs
    let (m, bs) ← r1 bs
    fin (.stageRooms first recs m) bs
  | 5 => do
    let (b1, bs) ← r1 bs
    let (b2, bs) ← r1 bs
    let (b3, bs) ← r1 bs
    let (b4, bs) ← r1 bs
    let (attrs, bs) ← rTimes rZoneParam 5 bs
    let (m, bs) ← r1 bs
    fin (.stageZones b1 b2 b3 b4 attrs m) bs
  | 6 => do
    let (t, bs) ← r1 bs
    fin (.stageDiscard t) bs
  | 7 => do
    let (t, bs) ← r1 bs
    fin (.apply t) bs
  | 8 => do
    let (c, bs) ← r1 bs
    let (first, bs) ← r1 bs
    let (n, bs) ← r1 bs
    fin (.queryRooms c first n) bs
  | 9 => do
    let (c, bs) ← r1 bs
    fin (.queryZones c) bs
  | 10 => do
    let (t, bs) ← rTarget bs
    let (sp, bs) ← rSpan bs
    let (att, bs) ← r1 bs
    let (org, bs) ← r4 bs
    let (disp, bs) ← r2 bs
    let (h, bs) ← rOpt r1 bs
    fin (.hold t sp att (BitVec.ofNat 32 org) disp h) bs
  | 11 => do
    let (t, bs) ← rTarget bs
    let (sp, bs) ← rSpan bs
    let (att, bs) ← r1 bs
    let (org, bs) ← r4 bs
    let (disp, bs) ← r2 bs
    fin (.book t sp att (BitVec.ofNat 32 org) disp) bs
  | 12 => do
    let (i, bs) ← rBookingId bs
    fin (.confirm i) bs
  | 13 => do
    let (z, bs) ← r1 bs
    let (sp, bs) ← rSpan bs
    let (att, bs) ← r1 bs
    fin (.findFree z sp att) bs
  | 14 => do
    let (i, bs) ← rBookingId bs
    fin (.cancel i) bs
  | 15 => do
    let (i, bs) ← rBookingId bs
    let (st, bs) ← rOpt r4 bs
    let (len, bs) ← rOpt r1 bs
    let (att, bs) ← rOpt r1 bs
    fin (.modify i st len att) bs
  | 16 => do
    let (i, bs) ← rBookingId bs
    fin (.checkIn i) bs
  | 17 => do
    let (i, bs) ← rBookingId bs
    let (prm, bs) ← rOrderParam bs
    fin (.order i prm) bs
  | 18 => do
    let (r, bs) ← r1 bs
    let (sp, bs) ← rSpan bs
    let (c, bs) ← r1 bs
    let (disp, bs) ← r2 bs
    let (f, bs) ← r1 bs
    fin (.blockRoom r sp c disp f) bs
  | 19 => do
    let (i, bs) ← rBookingId bs
    fin (.unblock i) bs
  | 20 => fin .clearBookStats bs
  | 21 => do
    let (r, bs) ← r1 bs
    let (d, bs) ← r2 bs
    let (c, bs) ← rOpt r4 bs
    fin (.queryRoom r d c) bs
  | 22 => do
    let (i, bs) ← rBookingId bs
    fin (.queryBooking i) bs
  | 23 => fin .queryBookStats bs
  | 24 => do
    let (w, bs) ← r1 bs
    fin (.setLevellingDay w) bs
  | 25 => do
    let (first, bs) ← r1 bs
    let (n, bs) ← r1 bs
    fin (.queryUsage first n) bs
  | 26 => do
    let (ls, bs) ← r1 bs
    let (pat, bs) ← r1 bs
    let (mask, bs) ← r1 bs
    let (c, bs) ← r1 bs
    let (d, bs) ← r1 bs
    fin (.announce ls pat mask c d) bs
  | 27 => do
    let (ls, bs) ← r1 bs
    fin (.clearLineStats ls) bs
  | 28 => do
    let (ls, bs) ← r1 bs
    fin (.lineReset ls) bs
  | 29 => do
    let (l, bs) ← r1 bs
    fin (.queryLine l) bs
  | 30 => do
    let (first, bs) ← r1 bs
    let (recs, bs) ← rCounted rKitchenParam bs
    let (m, bs) ← r1 bs
    fin (.stageKitchen first recs m) bs
  | 31 => do
    let (i, bs) ← rOrderId bs
    fin (.orderRetry i) bs
  | 32 => do
    let (i, bs) ← rOrderId bs
    fin (.orderCancel i) bs
  | 33 => do
    let (i, bs) ← rOrderId bs
    fin (.markDelivered i) bs
  | 34 => do
    let (k, bs) ← r1 bs
    let (first, bs) ← r1 bs
    let (n, bs) ← r1 bs
    fin (.queryKitchen k first n) bs
  | 35 => do
    let (i, bs) ← rOrderId bs
    fin (.queryOrder i) bs
  | 36 => do
    let (n, bs) ← r1 bs
    fin (.fetchNotices n) bs
  | 37 => fin .queryNotices bs
  | 38 => do
    let (i, bs) ← r1 bs
    let (k, bs) ← r1 bs
    let (z, bs) ← r1 bs
    let (p, bs) ← r1 bs
    let (en, bs) ← r1 bs
    fin (.routeSet i k z p en) bs
  | 39 => do
    let (t, bs) ← r1 bs
    fin (.setPower t) bs
  | 40 => do
    let (qs, bs) ← r2 bs
    let (qe, bs) ← r2 bs
    let (a, bs) ← r1 bs
    fin (.setQuiet qs qe a) bs
  | 41 => fin .queryPower bs
  | _ => none

/-- The permission columns of the catalogue (09 R184). -/
def Request.permitted (role : Role) : Request → Bool
  | .queryTime | .queryRooms .. | .queryZones .. | .order .. | .queryRoom .. | .queryBooking .. | .queryBookStats | .queryUsage ..
  | .queryLine .. | .orderRetry .. | .orderCancel .. | .queryKitchen .. | .queryOrder .. | .fetchNotices .. | .queryNotices
  | .queryPower => true
  | .setTime .. | .resync .. | .stageRooms .. | .stageZones .. | .stageDiscard .. | .apply .. | .blockRoom .. | .unblock ..
  | .clearBookStats | .setLevellingDay .. | .clearLineStats .. | .lineReset .. | .routeSet .. | .setPower .. | .setQuiet .. =>
    role = .facilities
  | .hold .. | .book .. | .confirm .. | .findFree .. | .cancel .. | .modify .. =>
    role = .gateway || role = .console || role = .facilities
  | .checkIn .. | .announce .. => role = .console || role = .facilities
  | .stageKitchen .. => role = .catering || role = .facilities
  | .markDelivered .. => role = .catering

/-- The requests whose owner is the book (09 R184). -/
def Request.isBook : Request → Bool
  | .hold .. | .book .. | .confirm .. | .findFree .. | .cancel .. | .modify .. | .checkIn .. | .order .. | .blockRoom .. | .unblock ..
  | .clearBookStats | .queryRoom .. | .queryBooking .. | .queryBookStats => true
  | _ => false

/-- The lines a set of lines names (R197). -/
def linesOf (octet : Nat) : List Line := (List.finRange 4).filter (fun l => octet.testBit l.val)

/-- What the port itself judges of a request to the line units: a set that names no line or a line above 3, or a line above 3
(09 R184). -/
def Request.badLines : Request → Bool
  | .announce ls .. | .clearLineStats ls | .lineReset ls => ls = 0 || 15 < ls
  | .queryLine l => 3 < l
  | _ => false

/-- The check byte agrees when all octets add to 0 modulo 256 (R195). -/
def checksumOk (octets : List Byte) : Bool := (octets.foldl (fun acc b => acc + b.toNat) 0) % 256 = 0

/-- The judgement of a request frame as far as its kind (09 R178, 11 R195): nothing for a BAD_FRAME. -/
def readFrame (octets : List Byte) : Option Request :=
  match octets with
  | len :: _tag :: kind :: rest =>
    if 4 ≤ len.toNat ∧ len.toNat = octets.length ∧ checksumOk octets = true then readRequest kind.toNat rest.dropLast else none
  | _ => none

/-- The tag of a frame: its second octet when at least two were collected, 0 otherwise (09 R178). -/
def frameTag : List Byte → Byte
  | _ :: t :: _ => t
  | _ => 0

/-- S0 and S1 (09 R177, 11). -/
def statusWord (p : PortRec) : List Byte :=
  e1 (p.state.toNat * 64 + p.dropped.toNat * 32 + min p.qlen 31) ++ e1 p.role.toNat

/-- A response as it is clocked out (R196). -/
def eResponse (r : Response) (dropped : Bool) : List Byte :=
  [r.tag] ++ e1 r.code.toNat ++ eFlag dropped ++ e2 r.payload.length ++ r.payload

/-! ## Panel frames (R198, R199) -/

/-- One bit of the CRC division by x^16 + x^12 + x^5 + 1. -/
def crcBit (c : BitVec 16) : BitVec 16 := if c.msb then (c <<< 1) ^^^ 0x1021#16 else c <<< 1

/-- One octet of the CRC division, most significant bit first. -/
def crcOctet (c : BitVec 16) (b : Byte) : BitVec 16 :=
  crcBit (crcBit (crcBit (crcBit (crcBit (crcBit (crcBit (crcBit (c ^^^ (b.zeroExtend 16 <<< 8)))))))))

/-- The CRC: the register starts with all bits set and is sent uninverted. -/
def crc (octets : List Byte) : BitVec 16 := octets.foldl crcOctet 0xFFFF#16

/-- A frame: SOF, ADDR, FKIND, FLEN, the payload and the CRC over ADDR through the payload. -/
def panelFrame (addr : Byte) (kind : Nat) (payload : List Byte) : List Byte :=
  let covered := addr :: (e1 kind ++ e1 payload.length ++ payload)
  0x7E#8 :: (covered ++ e2 (crc covered).toNat)

def pollFrame (a : Addr) (ack : Option Seq) : List Byte :=
  panelFrame (BitVec.ofNat 8 a.val) 1 (match ack with | none => e1 0 | some q => e1 (128 + q.val))

/-- The display record in 16 octets (R198). -/
def eDisplay (d : DisplayRec) : List Byte :=
  e1 d.roomState.toNat ++
    e1 (d.meeting.isSome.toNat + d.till.isSome.toNat * 2 + d.next.isSome.toNat * 4 + d.feedback.isSome.toNat * 8 + d.dim.toNat * 16) ++
    e2 d.label ++ e2 (d.meeting.getD 0) ++ e4 (d.till.getD 0) ++ e4 (d.next.getD 0) ++ e1 d.catering.toNat ++
    e1 (d.feedback.elim 0 Feedback.toNat)

def displayFrame (a : Addr) (v : Seq) (d : DisplayRec) : List Byte :=
  panelFrame (BitVec.ofNat 8 a.val) 3 (e1 v.val ++ eDisplay d)

def announceFrame (an : Announcement) : List Byte :=
  panelFrame 0xFF#8 4 (e1 an.pattern ++ e1 an.mask ++ e1 an.code ++ e1 an.duration)

/-- What a good STATUS carries. -/
structure Status where
  raw : Raw
  applied : Seq
  events : List PEvent
  deriving DecidableEq, Repr

/-- The kind of an event from its two head octets and three argument octets (R84, R198, R199). -/
def readEvKind (head kind : Byte) (x y z : Byte) : EvKind :=
  let number := (x.toNat * 256 + y.toNat) * 256 + z.toNat
  match kind.toNat with
  | 1 => .checkIn
  | 2 => .endNow
  | 3 => .extend15
  | 4 => .extend30
  | 5 => .bookNow (if head.msb then some number else none)
  | 6 => if z.toNat ≤ 15 then .reportIssue z.toNat else .void
  | 7 => .badge number
  | _ => .void

/-- Events of five octets each (R198). -/
def readEvents : List Byte → List PEvent
  | h :: k :: x :: y :: z :: rest => ⟨Fin.ofNat 16 h.toNat, readEvKind h k x y z⟩ :: readEvents rest
  | _ => []

def rawOf (n : Nat) : Option Raw :=
  match n with
  | 0 => some .vacant
  | 1 => some .occupied
  | 2 => some .fault
  | _ => none

/-- The judgement of a frame received in the answer interval of a POLL to `a` (05 R83, 11 R199): nothing for a frame error. -/
def judgeStatus (a : Addr) (octets : List Byte) : Option Status :=
  match octets with
  | sof :: adr :: fkind :: flen :: raw :: ver :: count :: rest =>
    let covered := (octets.drop 1).take (octets.length - 3)
    if sof = 0x7E#8 ∧ adr = BitVec.ofNat 8 a.val ∧ fkind = 2#8 ∧ ver.toNat ≤ 15 ∧ count.toNat ≤ 4 ∧
        flen.toNat = 3 + 5 * count.toNat ∧ octets.length = flen.toNat + 6 ∧
        octets.drop (octets.length - 2) = e2 (crc covered).toNat then
      (rawOf raw.toNat).map (fun r => ⟨r, Fin.ofNat 16 ver.toNat, readEvents (rest.take (5 * count.toNat))⟩)
    else none
  | _ => none

end Sys2Proof.Machine
end

