-- ==== Sys2Proof/Machine/Ops.lean ====
section
/-! DEFINITION. The shared operations: reading and writing indexed storage, calendar arithmetic, and handing things from block to
block. -/

namespace Sys2Proof.Machine

/-! ## Indexed storage -/

/-- The storage with position `i` set to `x`. -/
def put {α : Type} {n : Nat} (v : Vector α n) (i : Fin n) (x : α) : Vector α n := v.set i.val x i.isLt

/-- The storage with position `i` changed by `f`. -/
def modAt {α : Type} {n : Nat} (v : Vector α n) (i : Fin n) (f : α → α) : Vector α n := put v i (f v[i])

/-- Every position changed by `f`. -/
def mapV {α β : Type} {n : Nat} (f : α → β) (v : Vector α n) : Vector β n := ⟨⟨v.toList.map f⟩, by simp⟩

/-- The storage whose position `i` is `f i`. -/
def tabulate {β : Type} {n : Nat} (f : Fin n → β) : Vector β n := ⟨⟨(List.finRange n).map f⟩, by simp⟩

/-- The positions whose contents satisfy `p`, ascending. -/
def ixsWhere {α : Type} {n : Nat} (p : α → Bool) (v : Vector α n) : List (Fin n) :=
  ((List.finRange n).zip v.toList).filterMap (fun x => if p x.2 then some x.1 else none)

/-- The lowest position whose contents satisfy `p`. -/
def firstIx {α : Type} {n : Nat} (p : α → Bool) (v : Vector α n) : Option (Fin n) :=
  (((List.finRange n).zip v.toList).find? (fun x => p x.2)).map Prod.fst

/-! ## Replacing one part of the state -/

def State.setTimes (s : State) (x : Vector TimeCopy 6) : State := { s with times := x }
def State.setCtu (s : State) (x : Ctu) : State := { s with ctu := x }
def State.setRzt (s : State) (x : Rzt) : State := { s with rzt := x }
def State.setBook (s : State) (x : Book) : State := { s with book := x }
def State.setPsl (s : State) (x : Psl) : State := { s with psl := x }
def State.setLines (s : State) (x : Vector LineUnit 4) : State := { s with lines := x }
def State.setJobs (s : State) (x : List LineJob) : State := { s with jobs := x }
def State.setOcu (s : State) (x : Ocu) : State := { s with ocu := x }
def State.setKpl (s : State) (x : Kpl) : State := { s with kpl := x }
def State.setNrt (s : State) (x : Nrt) : State := { s with nrt := x }
def State.setPorts (s : State) (x : Vector PortRec 4) : State := { s with ports := x }
def State.setPwc (s : State) (x : Pwc) : State := { s with pwc := x }
def State.setWires (s : State) (x : Wires) : State := { s with wires := x }

/-- One line unit replaced. -/
def State.setLine (s : State) (l : Line) (x : LineUnit) : State := s.setLines (put s.lines l x)

/-- One port record replaced. -/
def State.setPort (s : State) (p : Port) (x : PortRec) : State := s.setPorts (put s.ports p x)

/-! ## Calendar arithmetic (01 R7) -/

/-- Absolute minute. -/
def Clock.minutes (c : Clock) : Nat := c.day * 1440 + c.minute

/-- Absolute slot. -/
def Clock.slot (c : Clock) : Nat := c.day * 288 + c.minute / 5

/-- Absolute bucket. -/
def Clock.bucket (c : Clock) : Nat := c.day * 96 + c.minute / 15

/-- Weekday of the day. -/
def Clock.weekday (c : Clock) : Nat := c.day % 7

/-- Slot boundary, bucket boundary and rollover of a tick's minute (R5). -/
def Clock.isSlotBoundary (c : Clock) : Bool := c.minute % 5 = 0
def Clock.isBucketBoundary (c : Clock) : Bool := c.minute % 15 = 0

/-- A tick of minute 0 is the rollover: a tick carries minute 0 only when the day has gone up by one (R3, R5). -/
def Clock.isRollover (c : Clock) : Bool := c.minute = 0

/-- The clock a minute later (R3). -/
def Clock.next (c : Clock) : Clock := if c.minute = 1439 then ⟨c.day + 1, 0⟩ else ⟨c.day, c.minute + 1⟩

/-- A counter of sixteen bits raised by one, saturating (00, Conventions). -/
def satInc (n : Nat) : Nat := min (n + 1) Config.maxCount

/-! ## Each block's copy of the time (01 R4) -/

/-- The place of a receiving block in `times` and `wires.time`. -/
def blockIx : TimedBlock → Fin 6
  | .rzt => 0 | .rbk => 1 | .psl => 2 | .ocu => 3 | .kpl => 4 | .pwc => 5

def State.timeOf (s : State) (b : TimedBlock) : TimeCopy := s.times[blockIx b]

/-- The block's campus time. -/
def State.now (s : State) (b : TimedBlock) : Clock := (s.timeOf b).now

/-- Whether the block's clock status is *set*. -/
def State.clockSet (s : State) (b : TimedBlock) : Bool := (s.timeOf b).status = .set

def State.setTime (s : State) (b : TimedBlock) (t : TimeCopy) : State := s.setTimes (put s.times (blockIx b) t)

/-! ## Handing on -/

/-- The place of a producer in `wires.notices`. -/
def producerIx : Producer → Fin 9
  | .rbk => 0 | .kpl => 1 | .ocu => 2 | .ctu => 3 | .pwc => 4
  | .plu l => ⟨5 + l.val, by omega⟩

/-- Places of the receivers in `wires.supply`. -/
def ocuIx : Fin 12 := 4
def nrtIx : Fin 12 := 5
def rbkIx : Fin 12 := 6
def pathIx : Fin 12 := 7
def lineIx (l : Line) : Fin 12 := ⟨l.val, by omega⟩
def portIx (p : Port) : Fin 12 := ⟨8 + p.val, by omega⟩

/-- Places of the receivers in `wires.config`. -/
def lineCfg (l : Line) : Fin 6 := ⟨l.val, by omega⟩
def ocuCfg : Fin 6 := 4
def rbkCfg : Fin 6 := 5

/-- A notice handed to NRT, in its producer's order (08 R163). -/
def handNotice (from_ : Producer) (n : HandedNotice) (s : State) : State :=
  s.setWires { s.wires with notices := modAt s.wires.notices (producerIx from_) (· ++ [n]) }

/-- An owner's answer handed to a port with the REQNO it was handed (09 R180). -/
def answer (p : Port) (reqno : Fin 256) (code : Code) (payload : List Byte) (s : State) : State :=
  s.setWires { s.wires with answers := modAt s.wires.answers p (· ++ [⟨reqno, code, payload⟩]) }

/-- A time message handed to every receiving block (01 R4). -/
def handTimeAll (m : TimeMsg) (s : State) : State :=
  s.setWires { s.wires with time := mapV (· ++ [m]) s.wires.time }

/-- A time message handed to one block. -/
def handTime (b : TimedBlock) (m : TimeMsg) (s : State) : State :=
  s.setWires { s.wires with time := modAt s.wires.time (blockIx b) (· ++ [m]) }

/-- A configuration-applied signal handed to its six receivers (02 R34). -/
def handConfig (sig : ConfigSignal) (s : State) : State :=
  s.setWires { s.wires with config := mapV (· ++ [sig]) s.wires.config }

/-- A supply message handed to one receiver. -/
def handSupply (i : Fin 12) (m : SupplyMsg) (s : State) : State :=
  s.setWires { s.wires with supply := modAt s.wires.supply i (· ++ [m]) }

/-- A supply message handed to several receivers. -/
def handSupplyTo (is : List (Fin 12)) (m : SupplyMsg) (s : State) : State := is.foldl (fun s i => handSupply i m s) s

/-- A line unit's message to OCU about one address. -/
def handOcu (l : Line) (a : Addr) (m : LineMsg) (s : State) : State :=
  s.setWires { s.wires with fromLine := modAt s.wires.fromLine l (· ++ [(a, m)]) }

/-- OCU's message to a line unit about one address. -/
def handLine (l : Line) (a : Addr) (m : OcuMsg) (s : State) : State :=
  s.setWires { s.wires with toLine := modAt s.wires.toLine l (· ++ [(a, m)]) }

/-- The book's schedule or record indication to OCU (03 R37, 06 R128). -/
def handSched (r : Room) (s : State) : State := s.setWires { s.wires with sched := s.wires.sched ++ [r] }

/-- The planner's order indication to OCU (07 R142). -/
def handOrderInd (r : Room) (s : State) : State := s.setWires { s.wires with orders := s.wires.orders ++ [r] }

/-- The book's outcome to OCU. -/
def handOutcome (o : BookOutcome) (s : State) : State := s.setWires { s.wires with outcome := some o }

/-- The two lanes of the book–planner path (07 R144). -/
def handPlanner (m : BookMsg) (s : State) : State := s.setWires { s.wires with toPlanner := s.wires.toPlanner ++ [m] }
def handBook (m : PlanMsg) (s : State) : State := s.setWires { s.wires with toBook := s.wires.toBook ++ [m] }

/-- A queue length reported to a port (08 R170). -/
def handQlen (p : Port) (n : Nat) (s : State) : State :=
  s.setWires { s.wires with qlens := modAt s.wires.qlens p (· ++ [n]) }

/-! ## Taking from a list for one address -/

/-- The first message for an address, and the list without it. -/
def takeAddr {α : Type} (a : Addr) : List (Addr × α) → Option (α × List (Addr × α))
  | [] => none
  | x :: xs => if x.1 = a then some (x.2, xs) else (takeAddr a xs).map (fun y => (y.1, x :: y.2))

/-! ## Taking time messages, and answers that wait for them -/

/-- The clock, CSTATE and SLEW of a CTU answer (01 R8). -/
def ctuPayload (c : Ctu) : List Byte := eClock c.clock ++ e1 c.cstate.toNat ++ e1 c.slew

/-- The block takes the head of its time list. -/
def popTime (b : TimedBlock) (s : State) : State :=
  let s := s.setWires { s.wires with time := modAt s.wires.time (blockIx b) List.tail }
  s.setCtu { s.ctu with waits := s.ctu.waits.map (fun w => { w with left := modAt w.left (blockIx b) (· - 1) }) }

/-- Whether every receiving block has taken what a waiting answer waits for. -/
def TimeWait.ready (w : TimeWait) : Bool := w.left.toList.all (· == 0)

/-- The CTU gives the answers that wait no longer (01 R8, R10, R13). -/
def settleTime (s : State) : State :=
  let ready := s.ctu.waits.filter TimeWait.ready
  let s := s.setCtu { s.ctu with waits := s.ctu.waits.filter (fun w => !w.ready) }
  ready.foldl (fun s w => answer w.port w.reqno .ok (if w.showClock then ctuPayload s.ctu else []) s) s

/-- The block takes the head of its time list when it is a tick: the copy takes the tick's clock, then `work` is done. -/
def takeTick (b : TimedBlock) (want : Clock → Bool) (work : Clock → State → State) (s : State) : State :=
  match s.wires.time[blockIx b].head? with
  | some (.tick c) =>
    if want c then settleTime (work c ((popTime b s).setTime b ⟨c, (s.timeOf b).status⟩)) else s
  | _ => s

/-- The block takes a configuration-applied signal; answers that wait for it are given when every receiver has taken it (02 R34). -/
def popConfig (i : Fin 6) (s : State) : State :=
  let s := s.setWires { s.wires with config := modAt s.wires.config i List.tail }
  s.setRzt { s.rzt with waits := s.rzt.waits.map (fun w => { w with left := modAt w.left i (· - 1) }) }

def ConfigWait.ready (w : ConfigWait) : Bool := w.left.toList.all (· == 0)

def settleConfig (s : State) : State :=
  let ready := s.rzt.waits.filter ConfigWait.ready
  let s := s.setRzt { s.rzt with waits := s.rzt.waits.filter (fun w => !w.ready) }
  ready.foldl (fun s w => answer w.port w.reqno .ok w.payload s) s

/-- Taking a configuration-applied signal whole. -/
def takeConfig (i : Fin 6) (work : ConfigSignal → State → State) (s : State) : State :=
  match s.wires.config[i].head? with
  | some sig => settleConfig (work sig (popConfig i s))
  | none => s

/-- A receiver takes the head of its list from PWC. The line units and OCU (places 0..4) are those a SET_POWER answer waits for. -/
def popSupply (i : Fin 12) (s : State) : State :=
  let s := s.setWires { s.wires with supply := modAt s.wires.supply i List.tail }
  if h : i.val < 5 then
    s.setPwc { s.pwc with waits := s.pwc.waits.map (fun w => { w with left := modAt w.left ⟨i.val, h⟩ (· - 1) }) }
  else s

def SupplyWait.ready (w : SupplyWait) : Bool := w.left.toList.all (· == 0)

def settleSupply (s : State) : State :=
  let ready := s.pwc.waits.filter SupplyWait.ready
  let s := s.setPwc { s.pwc with waits := s.pwc.waits.filter (fun w => !w.ready) }
  ready.foldl (fun s w => answer w.port w.reqno .ok [] s) s

/-- Taking a message of PWC whole, when it is one that `sel` selects. -/
def takeSupply {α : Type} (i : Fin 12) (sel : SupplyMsg → Option α) (work : α → State → State) (s : State) : State :=
  match s.wires.supply[i].head?.bind sel with
  | some a => settleSupply (work a (popSupply i s))
  | none => s

/-! ## Taking requests -/

/-- Who asked: the port, the REQNO it handed and its ROLE (09 R178). -/
structure Asker where
  port : Port
  reqno : Fin 256
  role : Role
  deriving DecidableEq, Repr

/-- The first handed request that `sel` selects, and the list without it. -/
def takeHanded {α : Type} (sel : Request → Option α) : List HandedRequest → Option ((HandedRequest × α) × List HandedRequest)
  | [] => none
  | h :: t =>
    match sel h.req with
    | some a => some ((h, a), t)
    | none => (takeHanded sel t).map (fun x => (x.1, h :: x.2))

/-- An owner other than the book takes the request of port `p` that `sel` selects; with none waiting, nothing happens (log 3). -/
def onRequest {α : Type} (p : Port) (sel : Request → Option α) (work : Asker → α → State → State) (s : State) : State :=
  match takeHanded sel s.wires.requests[p] with
  | some ((h, a), rest) =>
    work ⟨p, h.reqno, h.role⟩ a (s.setWires { s.wires with requests := put s.wires.requests p rest })
  | none => s

/-- The owner's answer to an asker. -/
def reply (q : Asker) (code : Code) (payload : List Byte) (s : State) : State := answer q.port q.reqno code payload s

/-- Whether a requester waits for the book's grant (03 R41). -/
def bookWaiting (s : State) : Requester → Bool
  | .port p => s.wires.requests[p].any (fun h => h.req.isBook)
  | .ocu => s.ocu.presented.isSome && s.wires.outcome.isNone

/-- The circular order after the requester granted last (03 R41). -/
def grantOrder : Requester → List Requester
  | .port 0 => [.port 1, .port 2, .port 3, .ocu, .port 0]
  | .port 1 => [.port 2, .port 3, .ocu, .port 0, .port 1]
  | .port 2 => [.port 3, .ocu, .port 0, .port 1, .port 2]
  | .port 3 => [.ocu, .port 0, .port 1, .port 2, .port 3]
  | .ocu => [.port 0, .port 1, .port 2, .port 3, .ocu]

/-- The requester the book grants: the first waiting one after the last granted; none while it is emptied and waits for its time-set
(03 R41, R67). -/
def granted (s : State) : Option Requester :=
  if s.book.frozen then none else (grantOrder s.book.lastGrant).find? (bookWaiting s)

/-- The grant moves to a requester. -/
def setGrant (r : Requester) (s : State) : State := s.setBook { s.book with lastGrant := r }

/-- The book takes the request of port `p` when the grant is the port's and its waiting request is the one `sel` selects. -/
def onBookRequest {α : Type} (p : Port) (sel : Request → Option α) (work : Asker → α → State → State) (s : State) : State :=
  if granted s = some (.port p) then
    match takeHanded (fun q => if q.isBook then some q else none) s.wires.requests[p] with
    | some ((h, q), rest) =>
      match sel q with
      | some a =>
        work ⟨p, h.reqno, h.role⟩ a
          (setGrant (.port p) (s.setWires { s.wires with requests := put s.wires.requests p rest }))
      | none => s
    | none => s
  else s

/-- The book takes OCU's presented item when the grant is OCU's and the item is the request asked for. -/
def onOcuRequest (req : OcuRequest) (work : Item → State → State) (s : State) : State :=
  if granted s = some .ocu then
    match s.ocu.presented with
    | some it => if it.request = req then work it (setGrant .ocu s) else s
    | none => s
  else s

end Sys2Proof.Machine
end

