-- ==== Sys2Proof/Machine/Tables.lean ====
section
/-! DEFINITION. Room and Zone Tables (02): zones, effective kinds, staging, applying and querying. -/

namespace Sys2Proof.Machine

open Host

/-! ## Reading the tables -/

/-- The zone of a room: how many pointers are at most its index (R18). -/
def ZoneTable.zoneOf (z : ZoneTable) (r : Room) : Zone :=
  ⟨(if z.b1 ≤ r.val then 1 else 0) + (if z.b2 ≤ r.val then 1 else 0) + (if z.b3 ≤ r.val then 1 else 0) +
    (if z.b4 ≤ r.val then 1 else 0), by split_ifs <;> omega⟩

/-- A usable room has CAP 1..255 (R17). -/
def RoomRec.usable (r : RoomRec) : Bool := r.cap != 0

/-- The rooms of a zone. -/
def ZoneTable.roomsOf (z : ZoneTable) (k : Zone) : List Room := (List.finRange 128).filter (fun r => z.zoneOf r = k)

/-- The usable rooms of a zone. -/
def usableRooms (rooms : Vector RoomRec 128) (z : ZoneTable) (k : Zone) : List Room :=
  (z.roomsOf k).filter (fun r => (rooms[r]).usable)

/-- The effective kind of a zone (R20). -/
def effKind (rooms : Vector RoomRec 128) (z : ZoneTable) (k : Zone) : ZoneKind :=
  if (z.attrs[k]).kind = .pooled ∧ 2 ≤ (usableRooms rooms z k).length then .pooled else .named

/-- The attribute record of a room's zone under a zone table (R19). -/
def ZoneTable.attrOf (z : ZoneTable) (r : Room) : ZoneAttr := z.attrs[z.zoneOf r]

/-- The active record of a room. -/
def State.roomRec (s : State) (r : Room) : RoomRec := s.rzt.rooms[r]

/-- The active zone of a room. -/
def State.zoneOf (s : State) (r : Room) : Zone := s.rzt.zones.zoneOf r

/-- The active attribute record of a zone. -/
def State.zoneAttr (s : State) (k : Zone) : ZoneAttr := s.rzt.zones.attrs[k]

/-- The active attribute record of a room's zone (R19). -/
def State.attrOf (s : State) (r : Room) : ZoneAttr := s.zoneAttr (s.zoneOf r)

/-- The effective kind of a zone under the active tables. -/
def State.kindOf (s : State) (k : Zone) : ZoneKind := effKind s.rzt.rooms s.rzt.zones k

/-- Whether the panel that a room table gives a room is ONLINE at its line unit; a room without PANEL has none (R16). -/
def State.panelOnlineIn (s : State) (rooms : Vector RoomRec 128) (r : Room) : Bool :=
  match (rooms[r]).panel with
  | some p => ((s.lines[p.line]).ctx[p.addr]).pstate = .online
  | none => false

/-- Whether a room's panel is ONLINE, under the active room table. -/
def State.panelOnline (s : State) (r : Room) : Bool := s.panelOnlineIn s.rzt.rooms r

/-! ## Making staged copies active -/

/-- A room's configuration view (R33). -/
structure View where
  record : RoomRec
  zone : Zone
  attr : ZoneAttr
  kind : ZoneKind
  deriving DecidableEq, Repr

/-- The views of all rooms under a room and a zone table. -/
def viewOf (rooms : Vector RoomRec 128) (z : ZoneTable) (kinds : Vector ZoneKind 5) (r : Room) : View :=
  { record := rooms[r], zone := z.zoneOf r, attr := z.attrs[z.zoneOf r], kind := kinds[z.zoneOf r] }

/-- The five effective kinds. -/
def kindsOf (rooms : Vector RoomRec 128) (z : ZoneTable) : Vector ZoneKind 5 := tabulate (effKind rooms z)

/-- The changed rooms of an apply: those whose view differs (R33). -/
def changedRooms (rooms rooms' : Vector RoomRec 128) (z z' : ZoneTable) : List Room :=
  let k := kindsOf rooms z
  let k' := kindsOf rooms' z'
  (List.finRange 128).filter (fun r => decide (viewOf rooms z k r ≠ viewOf rooms' z' k' r))

/-- The signal of an apply of the named staged tables (R33, R34). -/
def applySignal (doRooms doZones : Bool) (s : State) : ConfigSignal :=
  let rooms' := if doRooms then s.rzt.stagedRooms else s.rzt.rooms
  let zones' := if doZones then s.rzt.stagedZones else s.rzt.zones
  let changed := changedRooms s.rzt.rooms rooms' s.rzt.zones zones'
  { changed := changed, panelChanged := changed.filter (fun r => (s.rzt.rooms[r]).panel ≠ (rooms'[r]).panel),
    rooms := doRooms, zones := doZones }

/-- The named staged tables become active together, and their pending methods NONE (R24, R29 to R31). -/
def makeActive (doRooms doZones : Bool) (s : State) : State :=
  s.setRzt
    { s.rzt with
      rooms := if doRooms then s.rzt.stagedRooms else s.rzt.rooms
      zones := if doZones then s.rzt.stagedZones else s.rzt.zones
      roomMethod := if doRooms then .none else s.rzt.roomMethod
      zoneMethod := if doZones then .none else s.rzt.zoneMethod }

/-- An answer that waits until every receiver has taken the signals in its list now (R34). -/
def waitConfig (q : Asker) (payload : List Byte) (s : State) : State :=
  let w : ConfigWait := { port := q.port, reqno := q.reqno, payload := payload, left := mapV List.length s.wires.config }
  s.setRzt { s.rzt with waits := s.rzt.waits ++ [w] }

/-- TABLE_ROLLOVER_APPLY's work on a tick: at the rollover the tables pending under ROLLOVER become active together (R30). -/
def rztTick (c : Clock) (s : State) : State :=
  let doRooms := s.rzt.roomMethod = .rollover
  let doZones := s.rzt.zoneMethod = .rollover
  if c.isRollover && (doRooms || doZones) then handConfig (applySignal doRooms doZones s) (makeActive doRooms doZones s) else s

/-- TABLE_ROLLOVER_APPLY (R30): RZT takes the tick at the head of its list; other ticks only move its copy of the time (R4). -/
def execTableRolloverApply (s : State) : Outcome State Fault Refusal := .next (takeTick .rzt (fun _ => true) rztTick s)

/-! ## Staging -/

/-- An update method as carried: 0 IMMEDIATE, 1 ROLLOVER, 2 APPLY (R24). -/
inductive Method where
  | immediate | rollover | apply
  deriving DecidableEq, Repr

def methodOf : Nat → Option Method
  | 0 => some .immediate
  | 1 => some .rollover
  | 2 => some .apply
  | _ => none

/-- The pending method a named method sets (R24). -/
def Method.pend : Method → PendMethod
  | .immediate => .none
  | .rollover => .rollover
  | .apply => .apply

/-- A kitchen as carried, when in range. -/
def kitchenOf (n : Nat) : Option Kitchen := if h : n < 4 then some ⟨n, h⟩ else none

/-- An optional kitchen as carried: nothing when a carried one is out of range. -/
def optKitchen : Option Nat → Option (Option Kitchen)
  | none => some none
  | some n => (kitchenOf n).map some

/-- A panel octet: bit 7 is unused (11 R197). -/
def panelOf (n : Nat) : Option PanelAddr :=
  if n < 128 then some ⟨Fin.ofNat 4 (n / 32), Fin.ofNat 32 n⟩ else none

def optPanel : Option Nat → Option (Option PanelAddr)
  | none => some none
  | some n => (panelOf n).map some

/-- A carried room record, when every field is in range (R25, 11 R197). -/
def RoomParam.judge (q : RoomParam) : Option RoomRec := do
  let panel ← optPanel q.panel
  let k1 ← optKitchen q.k1
  let k2 ← optKitchen q.k2
  if 15 < q.bldg ∨ 4096 ≤ q.travel then none
  else
    some { cap := q.cap, bldg := q.bldg, panel := panel, k1 := k1, k2 := k2,
           travel := #v[q.travel % 8, q.travel / 8 % 8, q.travel / 64 % 8, q.travel / 512 % 8], label := q.label }

/-- Every carried record in range, or nothing. -/
def judgeAll {α β : Type} (f : α → Option β) : List α → Option (List β)
  | [] => some []
  | a :: as =>
    match f a, judgeAll f as with
    | some b, some bs => some (b :: bs)
    | _, _ => none

/-- Records written from index `first` up. -/
def writeFrom {α : Type} {n : Nat} (v : Vector α n) (first : Nat) : List α → Vector α n
  | [] => v
  | x :: xs => writeFrom (if h : first < n then put v ⟨first, h⟩ x else v) (first + 1) xs

/-- The lowest room of `rs` whose panel another room names too (R28), with the lowest such other room: R28 does not say which other room
is named when there are several, and this one is the model's choice (log 55). -/
def panelConflict (rooms : Vector RoomRec 128) (rs : List Room) : Option (Room × Room) :=
  rs.findSome? (fun r =>
    match (rooms[r]).panel with
    | none => none
    | some p => ((List.finRange 128).find? (fun q => q ≠ r ∧ (rooms[q]).panel = some p)).map (fun q => (r, q)))

/-- How many rooms differ between two room tables. -/
def roomsDiffering (a b : Vector RoomRec 128) : Nat := ((List.finRange 128).filter (fun r => a[r] ≠ b[r])).length

/-- STAGE_ROOMS taken by RZT (R25, R28, R29). -/
def stageRoomsWork (q : Asker) (arg : Nat × List RoomParam × Nat) (s : State) : State :=
  let first := arg.1
  let recs := arg.2.1
  if arg.2.2 = 1 && !s.clockSet .rzt then reply q .clockUnset [] s
  else if 127 < first || recs.length = 0 || 16 < recs.length || 128 < first + recs.length then reply q .badParam [] s
  else
    match judgeAll RoomParam.judge recs, methodOf arg.2.2 with
    | some rs, some m =>
      let staged := writeFrom s.rzt.stagedRooms first rs
      match panelConflict staged ((List.finRange 128).filter (fun r => first ≤ r.val ∧ r.val < first + recs.length)) with
      | some (a, b) => reply q .stageInvalid (eRoom a ++ eRoom b) s
      | none =>
        let diff := roomsDiffering staged s.rzt.rooms
        let s := s.setRzt { s.rzt with stagedRooms := staged, roomMethod := m.pend }
        if m = .immediate then
          let sig := applySignal true false s
          waitConfig q (e1 diff ++ e1 sig.changed.length) (handConfig sig (makeActive true false s))
        else reply q .ok (e1 diff) s
    | _, _ => reply q .badParam [] s

/-- STAGE_ROOMS (R25). -/
def execStageRooms (p : Port) (s : State) : Outcome State Fault Refusal :=
  .next (onRequest p (fun | .stageRooms f r m => some (f, r, m) | _ => none) stageRoomsWork s)

/-- A zone attribute record as stored, with how many of its fields were clamped (R27). The octet 1 of AUTORELEASE,
PRESENCE_CHECKIN and BADGE_ONLY is *on* and 0 *off*: 11 R197 says only 0 or 1, and this is the model's choice (log 57). -/
def clampZone (q : ZoneParam) (kind : ZoneKind) : ZoneAttr × Nat :=
  let e := min q.e 6
  let g := if q.g = 0 then 1 else min q.g 6
  let h := if q.h = 1 then 2 else min q.h 12
  let w := min q.w 15
  ({ kind := kind, bookers := ⟨q.bookers.testBit 0, q.bookers.testBit 1, q.bookers.testBit 2⟩, e := e, g := g, h := h,
     autorelease := q.autorelease = 1, presenceCheckin := q.presenceCheckin = 1, badgeOnly := q.badgeOnly = 1, w := w },
   (if e = q.e then 0 else 1) + (if g = q.g then 0 else 1) + (if h = q.h then 0 else 1) + (if w = q.w then 0 else 1))

/-- A carried zone attribute record: nothing for a KIND code, a BOOKERS bit or a flag that 11 R197 does not define. -/
def ZoneParam.judge (q : ZoneParam) : Option (ZoneAttr × Nat) :=
  if 1 < q.kind ∨ 7 < q.bookers ∨ 1 < q.autorelease ∨ 1 < q.presenceCheckin ∨ 1 < q.badgeOnly then none
  else some (clampZone q (if q.kind = 0 then .pooled else .named))

/-- Five records in zone order. -/
def fiveAttrs : List (ZoneAttr × Nat) → Option (Vector ZoneAttr 5 × Nat)
  | [a, b, c, d, e] => some (#v[a.1, b.1, c.1, d.1, e.1], a.2 + b.2 + c.2 + d.2 + e.2)
  | _ => none

/-- The parameters of STAGE_ZONES. -/
structure ZonesArg where
  b1 : Nat
  b2 : Nat
  b3 : Nat
  b4 : Nat
  attrs : List ZoneParam
  method : Nat
  deriving DecidableEq, Repr

/-- STAGE_ZONES taken by RZT (R26, R27). -/
def stageZonesWork (q : Asker) (arg : ZonesArg) (s : State) : State :=
  if arg.method = 1 && !s.clockSet .rzt then reply q .clockUnset [] s
  else
    match methodOf arg.method, (judgeAll ZoneParam.judge arg.attrs).bind fiveAttrs with
    | some m, some (attrs, clamped) =>
      if m = .immediate || 128 < arg.b1 || 128 < arg.b2 || 128 < arg.b3 || 128 < arg.b4 then reply q .badParam [] s
      else if !(arg.b1 ≤ arg.b2 && arg.b2 ≤ arg.b3 && arg.b3 ≤ arg.b4) then reply q .stageInvalid [] s
      else
        let z : ZoneTable := { b1 := arg.b1, b2 := arg.b2, b3 := arg.b3, b4 := arg.b4, attrs := attrs }
        reply q .ok (e1 clamped) (s.setRzt { s.rzt with stagedZones := z, zoneMethod := m.pend })
    | _, _ => reply q .badParam [] s

/-- STAGE_ZONES (R26). -/
def execStageZones (p : Port) (s : State) : Outcome State Fault Refusal :=
  .next (onRequest p (fun | .stageZones a b c d as m => some (ZonesArg.mk a b c d as m) | _ => none) stageZonesWork s)

/-- STAGE_DISCARD taken by RZT (R32): 0 ROOMS, 1 ZONES, 2 BOTH. -/
def stageDiscardWork (q : Asker) (table : Nat) (s : State) : State :=
  if 2 < table then reply q .badParam [] s
  else
    let doRooms := table != 1
    let doZones := table != 0
    reply q .ok []
      (s.setRzt
        { s.rzt with
          stagedRooms := if doRooms then s.rzt.rooms else s.rzt.stagedRooms
          stagedZones := if doZones then s.rzt.zones else s.rzt.stagedZones
          roomMethod := if doRooms then .none else s.rzt.roomMethod
          zoneMethod := if doZones then .none else s.rzt.zoneMethod })

/-- STAGE_DISCARD (R32). -/
def execStageDiscard (p : Port) (s : State) : Outcome State Fault Refusal :=
  .next (onRequest p (fun | .stageDiscard t => some t | _ => none) stageDiscardWork s)

/-- APPLY taken by RZT (R31): 0 ROOMS, 1 ZONES, 2 BOTH, any other code BAD_PARAM. -/
def rztApplyWork (q : Asker) (table : Nat) (s : State) : State :=
  if 2 < table then reply q .badParam [] s
  else
    let sig := applySignal (table != 1) (table != 0) s
    let s := makeActive (table != 1) (table != 0) s
    if sig.changed.isEmpty then reply q .ok (e1 0) s
    else waitConfig q (e1 sig.changed.length) (handConfig sig s)

/-! ## Queries (R35) -/

/-- QUERY_ROOMS taken by RZT. -/
def queryRoomsWork (q : Asker) (arg : Nat × Nat × Nat) (s : State) : State :=
  let first := arg.2.1
  let count := arg.2.2
  if 1 < arg.1 || 127 < first || count = 0 || 16 < count || 128 < first + count then reply q .badParam [] s
  else
    let rooms := if arg.1 = 0 then s.rzt.rooms else s.rzt.stagedRooms
    reply q .ok (eList eRoomRec ((rooms.toList.drop first).take count) ++ e1 s.rzt.roomMethod.toNat) s

/-- QUERY_ROOMS (R35). -/
def execQueryRooms (p : Port) (s : State) : Outcome State Fault Refusal :=
  .next (onRequest p (fun | .queryRooms c f n => some (c, f, n) | _ => none) queryRoomsWork s)

/-- The zone counts of QUERY_ZONES: rooms, usable rooms and effective kind of one zone. -/
def zoneReport (rooms : Vector RoomRec 128) (z : ZoneTable) (k : Zone) : List Byte :=
  e1 (z.roomsOf k).length ++ e1 (usableRooms rooms z k).length ++ e1 (effKind rooms z k).toNat

/-- QUERY_ZONES taken by RZT: for the staged copy the staged room table is read with it. -/
def queryZonesWork (q : Asker) (copy : Nat) (s : State) : State :=
  if 1 < copy then reply q .badParam [] s
  else
    let z := if copy = 0 then s.rzt.zones else s.rzt.stagedZones
    let rooms := if copy = 0 then s.rzt.rooms else s.rzt.stagedRooms
    reply q .ok
      (e1 z.b1 ++ e1 z.b2 ++ e1 z.b3 ++ e1 z.b4 ++ z.attrs.toList.flatMap eZoneAttr ++
        (List.finRange 5).flatMap (zoneReport rooms z) ++ e1 s.rzt.zoneMethod.toNat) s

/-- QUERY_ZONES (R35). -/
def execQueryZones (p : Port) (s : State) : Outcome State Fault Refusal :=
  .next (onRequest p (fun | .queryZones c => some c | _ => none) queryZonesWork s)

end Sys2Proof.Machine
end

