-- ==== Sys2Proof/Machine/Pool.lean ====
section
/-! DEFINITION. The Pool Selector (04): choosing a room of a pool, and its requests. -/

namespace Sys2Proof.Machine

open Host

/-! ## Schedules as read -/

/-- End slot of a span (00, Spans). -/
def Span.stop (sp : Span) : Nat := sp.start + sp.len

/-- An entry overlaps a span when each starts before the other ends (03 R39). -/
def Entry.overlaps (e : Entry) (sp : Span) : Bool := e.start < sp.stop && sp.start < e.stop

/-- The schedule of a room. -/
def State.schedule (s : State) (r : Room) : List Entry := s.book.schedules[r]

/-- Whether any entry of a room's schedule overlaps the span. -/
def State.busy (s : State) (r : Room) (sp : Span) : Bool := (s.schedule r).any (fun e => e.overlaps sp)

/-! ## Choosing a room -/

/-- A choice request (R70). -/
structure Choice where
  zone : Zone
  span : Span
  attendees : Nat
  excluded : Option Room
  deriving DecidableEq, Repr

/-- Whether a room is a candidate (R71). -/
def candidate (s : State) (c : Choice) (r : Room) : Bool :=
  s.zoneOf r = c.zone && c.attendees ≤ (s.roomRec r).cap && !s.busy r c.span && c.excluded != some r

/-- The score of a candidate (R72). -/
def score (s : State) (c : Choice) (r : Room) : Nat :=
  s.psl.usage[r] + (s.zoneAttr c.zone).w * ((s.roomRec r).cap - c.attendees)

/-- The better of the best so far and a later room: the earlier one keeps a tie (R72). -/
def better (best : Option (Room × Nat)) (r : Room) (n : Nat) : Option (Room × Nat) :=
  match best with
  | some (b, m) => if n < m then some (r, n) else some (b, m)
  | none => some (r, n)

/-- PSL's answer: the candidate with the lowest score, of several the lowest index, with its score; or none (R72). -/
def choose (s : State) (c : Choice) : Option (Room × Nat) :=
  ((List.finRange 128).filter (candidate s c)).foldl (fun best r => better best r (score s c r)) none

/-! ## Requests -/

/-- LEVEL_DAY and LAST_HALVED of an answer (R79, R80). -/
def levelPayload (p : Psl) : List Byte := e1 p.levelDay ++ eOpt e2 p.lastHalved

/-- SET_LEVELLING_DAY taken by PSL (R79). -/
def setLevellingDayWork (q : Asker) (weekday : Nat) (s : State) : State :=
  if 6 < weekday then reply q .badParam [] s
  else
    let s := s.setPsl { s.psl with levelDay := weekday }
    reply q .ok (levelPayload s.psl) s

/-- SET_LEVELLING_DAY (R79). -/
def execSetLevellingDay (p : Port) (s : State) : Outcome State Fault Refusal :=
  .next (onRequest p (fun | .setLevellingDay w => some w | _ => none) setLevellingDayWork s)

/-- QUERY_USAGE taken by PSL (R80). -/
def queryUsageWork (q : Asker) (arg : Nat × Nat) (s : State) : State :=
  if 127 < arg.1 || arg.2 = 0 || 32 < arg.2 || 128 < arg.1 + arg.2 then reply q .badParam [] s
  else
    let rooms := (s.psl.usage.toList.zip s.psl.basis.toList).drop arg.1 |>.take arg.2
    reply q .ok (eList (fun x => e2 x.1 ++ e1 x.2.toNat) rooms ++ levelPayload s.psl) s

/-- QUERY_USAGE (R80). -/
def execQueryUsage (p : Port) (s : State) : Outcome State Fault Refusal :=
  .next (onRequest p (fun | .queryUsage f n => some (f, n) | _ => none) queryUsageWork s)

end Sys2Proof.Machine
end

