-- ==== Sys2Proof/Machine/Book.lean ====
section
/-! DEFINITION. The Reservation Book's operations (03): records, schedules, reads with the check of R62, freeing, and what the
deadlines do. -/

namespace Sys2Proof.Machine

open Host

/-! ## Records and schedules -/

def State.bookRec (s : State) (i : BookIx) : BookRec := s.book.records[i]

/-- A record replaced. -/
def setRec (i : BookIx) (r : BookRec) (s : State) : State := s.setBook { s.book with records := put s.book.records i r }

/-- A record's body replaced. -/
def setBody (i : BookIx) (b : Body) (s : State) : State := setRec i { s.bookRec i with body := b } s

/-- A record's PENDING replaced. -/
def setPending (i : BookIx) (x : BPending) (s : State) : State := setRec i { s.bookRec i with pending := x } s

/-- A room's schedule replaced, with the schedule indication (R37). -/
def setSchedule (r : Room) (es : List Entry) (s : State) : State :=
  handSched r (s.setBook { s.book with schedules := put s.book.schedules r es })

/-- An entry inserted in ascending order of START (R39). -/
def insertEntry (e : Entry) : List Entry → List Entry
  | [] => [e]
  | x :: xs => if e.start ≤ x.start then e :: x :: xs else x :: insertEntry e xs

/-- The room and record entry (not the claim entry) of a record, found in the schedules. -/
def State.entryOf (s : State) (i : BookIx) : Option (Room × Entry) :=
  ((List.finRange 128).zip s.book.schedules.toList).findSome? (fun x =>
    (x.2.find? (fun e => e.index = i && e.summary != .claim)).map (fun e => (x.1, e)))

/-- The room of a record, from its entry. -/
def State.roomOf (s : State) (i : BookIx) : Room := ((s.entryOf i).map Prod.fst).getD (s.bookRec i).body.room

/-- The OWNER of a record, from its entry (R39). -/
def State.ownerOf (s : State) (i : BookIx) : Owner := ((s.entryOf i).map (fun x => x.2.owner)).getD (s.bookRec i).body.owner

/-- The record entry of a room's schedule changed by `f` and put back in order. -/
def changeEntry (r : Room) (i : BookIx) (f : Entry → Entry) (s : State) : State :=
  let mine := (s.schedule r).filter (fun e => e.index = i && e.summary != .claim)
  let others := (s.schedule r).filter (fun e => !(e.index = i && e.summary != .claim))
  setSchedule r (mine.foldl (fun es e => insertEntry (f e) es) others) s

/-- The state summary follows the record's state (R39). -/
def setSummary (i : BookIx) (x : Summary) (s : State) : State := changeEntry (s.roomOf i) i (fun e => { e with summary := x }) s

/-- The summary of a sound record's STATE. -/
def BState.summary : BState → Summary
  | .held => .held
  | .confirmed => .confirmed
  | .active => .active
  | .block => .block

/-- The handle of a record as it stands. -/
def State.handle (s : State) (i : BookIx) : BookingId := ⟨i, (s.bookRec i).gen⟩

/-- The owner port handed with a booking notice (08 R163). -/
def Owner.port? : Owner → Option Port
  | .port p => some p
  | .panel => none

/-- A booking notice, dated by the book's copy of the time (08 R163, R164). -/
def bookNotice (kind : NoticeKind) (id : BookingId) (room : Room) (owner : Owner) (order : Option OrderId) (detail : Nat)
    (cause : Option Port) (s : State) : State :=
  handNotice .rbk
    { note := { kind := kind, date := s.now .rbk, booking := some id, order := order, room := some room, panel := none,
                detail := detail },
      dated := true, owner := owner.port?, cause := cause } s

/-- A notice about a live record, carrying its ORDER where present (08 R164). -/
def recordNotice (kind : NoticeKind) (i : BookIx) (detail : Nat) (cause : Option Port) (s : State) : State :=
  bookNotice kind (s.handle i) (s.roomOf i) (s.ownerOf i) (s.bookRec i).order detail cause s

/-! ## Allocating and freeing (R37) -/

/-- The lowest index on the free list. -/
def State.freeIndex (s : State) : Option BookIx := firstIx (fun r => r.life = .free) s.book.records

/-- A record written into a free index and its entry inserted. GENERATION is kept as the freeing left it. -/
def allocate (i : BookIx) (b : Body) (s : State) : State :=
  let s := setRec i { body := b, life := .live, gen := (s.bookRec i).gen, order := none, pending := .none } s
  let e : Entry :=
    { start := b.span.start, stop := b.span.stop, index := i, owner := b.owner, summary := b.state.summary }
  setSchedule b.room (insertEntry e (s.schedule b.room)) s

/-- A live record freed, by the steps of R37 in their order. -/
def freeRecord (i : BookIx) (kind : NoticeKind) (detail : Nat) (cause : Option Port) (s : State) : State :=
  let id := s.handle i
  let room := s.roomOf i
  let owner := s.ownerOf i
  let order := (s.bookRec i).order
  let s := setSchedule room ((s.schedule room).filter (fun e => e.index != i)) s
  let s := match order with
    | some o => handPlanner (.bookingLeft id o) s
    | none => s
  let s := setRec i (BookRec.blank (id.gen + 1)) s
  bookNotice kind id room owner none detail cause s

/-! ## Reading a body (R62) -/

/-- A body found with two faults: LIFE and the entry's summary become DAMAGED, the trap takes the index if empty, and a
RECORD_DAMAGED notice is handed. -/
def damage (i : BookIx) (s : State) : State :=
  let trapped := s.book.trap.isNone
  let s := setSummary i .damaged (setRec i { s.bookRec i with life := .damaged } s)
  let s := if trapped then s.setBook { s.book with trap := some i } else s
  recordNotice .recordDamaged i trapped.toNat none s

/-- A read of the body of a record of LIFE LIVE: the body as used, or nothing when it cannot be corrected. -/
def readBody (i : BookIx) (s : State) : Option Body × State :=
  let b := (s.bookRec i).body
  if b.faults = 0 then (some b, s)
  else if b.faults = 1 then
    let b := { b with faults := 0 }
    let s := setBody i b s
    (some b, s.setBook { s.book with corrected := satInc s.book.corrected })
  else (none, damage i s)

/-- A body rewritten with a new STATE, and the summary with it. -/
def setState (i : BookIx) (b : Body) (x : BState) (s : State) : State := setSummary i x.summary (setBody i { b with state := x } s)

/-! ## Deadlines (R44, R50, R51)

Each takes the record as it stands; a record that does not meet the condition is left alone. -/

/-- The hold expiry of a HELD record at an absolute minute (R44). -/
def holdExpiryOn (minute : Nat) (i : BookIx) (s : State) : State :=
  if (s.bookRec i).life = .live && (s.entryOf i).any (fun x => x.2.summary = .held) then
    match readBody i s with
    | (some b, s) =>
      if b.state = .held && b.holdExpiry.any (fun m => m ≤ minute) then freeRecord i .holdExpired 0 none s else s
    | (none, s) => s
  else s

/-- Whether a boundary tests the record: it is live and its PENDING is not MOVE (R50). -/
def tested (s : State) (i : BookIx) : Bool := (s.bookRec i).life != .free && (s.bookRec i).pending != .move

/-- The end pass on one record at slot `now` (R50). -/
def endOn (now : Nat) (i : BookIx) (s : State) : State :=
  if tested s i && (s.entryOf i).any (fun x => x.2.stop ≤ now) then
    if (s.bookRec i).life = .damaged then freeRecord i .ended (detail2 0 Summary.damaged.toNat) none s
    else
      match readBody i s with
      | (some b, s) =>
        if b.state = .held then freeRecord i .holdExpired 1 none s
        else freeRecord i .ended (detail2 0 b.state.toNat) none s
      | (none, s) => freeRecord i .ended (detail2 0 Summary.damaged.toNat) none s
  else s

/-- The outcome of a no-show boundary taken under a room table and a zone table of one apply (R51, 02 R21, R22). The panel's state and
the supply state are read as they stand now, at their owners (R21, log 53). A record made ACTIVE has no CHECKIN_MINUTE. -/
def noShow (rooms : Vector RoomRec 128) (z : ZoneTable) (i : BookIx) (b : Body) (s : State) : State :=
  let a := z.attrOf b.room
  if !s.panelOnlineIn rooms b.room || s.pwc.sstate = .retain || !a.autorelease then
    setState i { b with unverified := true, checkinMinute := none } .active s
  else
    let stop := b.span.stop
    let s := freeRecord i .released a.g none s
    s.setBook { s.book with releaseMarks := put s.book.releaseMarks b.room (some stop) }

/-- The no-show pass on one record at slot `now`, under a room table and a zone table of one apply (R50, 02 R21, R22). -/
def noShowOn (rooms : Vector RoomRec 128) (z : ZoneTable) (now : Nat) (i : BookIx) (s : State) : State :=
  if tested s i && (s.bookRec i).life = .live &&
      (s.entryOf i).any (fun x => x.2.summary = .confirmed && x.2.start + (z.attrOf x.1).g ≤ now) then
    match readBody i s with
    | (some b, s) => if b.state = .confirmed && !b.earlyIn then noShow rooms z i b s else s
    | (none, s) => s
  else s

/-- The start pass on one record at slot `now` (R50). -/
def startOn (now : Nat) (i : BookIx) (s : State) : State :=
  if tested s i && (s.bookRec i).life = .live && (s.entryOf i).any (fun x => x.2.summary = .confirmed && x.2.start ≤ now) then
    match readBody i s with
    | (some b, s) => if b.state = .confirmed && b.earlyIn then setState i { b with earlyIn := false } .active s else s
    | (none, s) => s
  else s

/-- The held deadlines of one record, taken as if a slot boundary had arrived at slot `now`, with the tables active now (R49). -/
def heldDeadlines (now : Nat) (i : BookIx) (s : State) : State :=
  startOn now i (noShowOn s.rzt.rooms s.rzt.zones now i (endOn now i s))

/-- The indices of all entries that `p` selects: by ascending room, and in a room by START. The manual gives no order within a pass; this
one is the model's choice (log 54). -/
def entryIxs (p : Entry → Bool) (s : State) : List BookIx :=
  s.book.schedules.toList.flatMap (fun es => (es.filter p).map Entry.index)

/-- The three passes of a slot boundary, each over all rooms before the next (R50), under the tables active as it is taken
(02 R21, R22). -/
def bookBoundary (now : Nat) (s : State) : State :=
  let rooms := s.rzt.rooms
  let z := s.rzt.zones
  let s := s.setBook { s.book with boundaryRooms := rooms, boundaryZones := z }
  let s := (entryIxs (fun e => e.summary != .claim && e.stop ≤ now) s).foldl (fun s i => endOn now i s) s
  let s := (entryIxs (fun e => e.summary = .confirmed) s).foldl (fun s i => noShowOn rooms z now i s) s
  (entryIxs (fun e => e.summary = .confirmed) s).foldl (fun s i => startOn now i s) s

/-- One index read by the scrub (R64). -/
def scrubOne (i : BookIx) (s : State) : State := if (s.bookRec i).life = .live then (readBody i s).2 else s

/-- The bodies of several records read with their check (R62). -/
def readAll (is : List BookIx) (s : State) : State := is.foldl (fun s i => scrubOne i s) s

/-- The scrub of a minute tick: 16 indices from the pointer, which advances by 16 (R64). -/
def scrub (s : State) : State :=
  let p := s.book.scrub
  let s := ((List.range 16).map (fun n => Fin.ofNat 2048 (p.val + n))).foldl (fun s i => scrubOne i s) s
  s.setBook { s.book with scrub := Fin.ofNat 2048 (p.val + 16) }

/-- The book's work on a minute tick: hold expiry, the scrub, and at a slot boundary the three passes (R44, R50, R64). -/
def bookTick (c : Clock) (s : State) : State :=
  let s := (entryIxs (fun e => e.summary = .held) s).foldl (fun s i => holdExpiryOn c.minutes i s) s
  let s := scrub s
  if c.isSlotBoundary then bookBoundary c.slot s else s

/-- BOOK_MINUTE_TICK (R50): RBK takes the tick at the head of its list. -/
def execBookMinuteTick (s : State) : Outcome State Fault Refusal := .next (takeTick .rbk (fun _ => true) bookTick s)

/-- HOLD_EXPIRY (R44) for one record, at the minute of the book's copy of the time (log 7). -/
def execHoldExpiry (i : BookIx) (s : State) : Outcome State Fault Refusal := .next (holdExpiryOn (s.now .rbk).minutes i s)

/-- END_BOUNDARY (R50) for one record, when the book's copy of the time stands at a slot boundary (log 7). -/
def execEndBoundary (i : BookIx) (s : State) : Outcome State Fault Refusal :=
  .next (if (s.now .rbk).isSlotBoundary then endOn (s.now .rbk).slot i s else s)

/-- NO_SHOW_BOUNDARY (R51) for one record, when the book's copy of the time stands at a slot boundary (log 7), with the tables that
were active when the book took that boundary, the room table beside its own zone table (02 R21, R22; log 53). -/
def execNoShowBoundary (i : BookIx) (s : State) : Outcome State Fault Refusal :=
  .next (if (s.now .rbk).isSlotBoundary then noShowOn s.book.boundaryRooms s.book.boundaryZones (s.now .rbk).slot i s else s)

/-- START_BOUNDARY (R50) for one record, when the book's copy of the time stands at a slot boundary (log 7). -/
def execStartBoundary (i : BookIx) (s : State) : Outcome State Fault Refusal :=
  .next (if (s.now .rbk).isSlotBoundary then startOn (s.now .rbk).slot i s else s)

end Sys2Proof.Machine
end

