-- ==== Sys2Proof/Machine/BookRequests.lean ====
section
/-! DEFINITION. The requests agents make of the book (03): making, changing, ending, checking in, ordering, blocking, querying. -/

namespace Sys2Proof.Machine

open Host

/-- The book's current slot. -/
def State.bookSlot (s : State) : Nat := (s.now .rbk).slot

/-- The book's current absolute minute. -/
def State.bookMinute (s : State) : Nat := (s.now .rbk).minutes

/-! ## Resolving a handle (R36) -/

/-- The live record a current handle names. -/
def resolve (id : BookingId) (s : State) : Option BookRec :=
  let r := s.bookRec id.index
  if r.life = .free ∨ r.gen ≠ id.gen then none else some r

/-- A request about a named record: UNKNOWN, DAMAGED and BUSY_RECORD come first, then the body is read and `work` goes on (R36, R62).
`damagedAnswer` is the payload of a DAMAGED answer. -/
def onRecord (q : Asker) (id : BookingId) (damagedAnswer : State → List Byte) (work : Body → State → State) (s : State) : State :=
  match resolve id s with
  | none => reply q .unknown [] s
  | some r =>
    if r.life = .damaged then reply q .damaged (damagedAnswer s) s
    else if r.pending = .move then reply q .busyRecord [] s
    else
      match readBody id.index s with
      | (some b, s) => work b s
      | (none, s) => reply q .damaged (damagedAnswer s) s

/-- A DAMAGED answer that carries nothing. -/
def noItems (_ : State) : List Byte := []

/-- A role that may act on any booking: CONSOLE or FACILITIES (R44, R46, R47). -/
def Role.privileged (r : Role) : Bool := r = .console || r = .facilities

/-- Whether a requester may change a record: its OWNER, or a privileged role. -/
def mayChange (q : Asker) (owner : Owner) : Bool := owner = .port q.port || q.role.privileged

/-- Whether a requester's role is admitted by a zone's BOOKERS (02 R19). -/
def Bookers.admits (b : Bookers) : Role → Bool
  | .gateway => b.gateway
  | .console => b.console
  | .catering => false
  | .facilities => true

/-! ## Preparing a span (R42) -/

/-- A start, length or count outside its range (R42, 11 R197; log 18). -/
def badSpan (sp : Span) : Bool := Config.maxSlot < sp.start || sp.len = 0 || 96 < sp.len

/-- An attendee count outside 1..255. -/
def badAttendees (n : Nat) : Bool := n = 0 || 255 < n

/-- The prepared span, or the code of the first check that fails, after the checks for BAD_PARAM (R42). -/
def prepareSpan (s : State) (sp : Span) : Except Code Span :=
  let now := s.bookSlot
  if sp.stop ≤ now then .error .tooLate
  else
    let sp : Span := if sp.start < now then ⟨now, sp.stop - now⟩ else sp
    if (s.now .rbk).day + 14 < sp.start / 288 then .error .horizon else .ok sp

/-- The hold time as taken (R42). -/
def holdTime (t : Option Nat) : Nat := min (t.getD 5) 30

/-- A target in range: a room or a zone. -/
inductive Target where
  | room (r : Room)
  | pool (k : Zone)
  deriving DecidableEq, Repr

/-- A carried target, when in range. -/
def TargetParam.judge (t : TargetParam) : Option Target :=
  if t.kind = 0 then (if h : t.index < 128 then some (.room ⟨t.index, h⟩) else none)
  else if t.kind = 1 then (if h : t.index < 5 then some (.pool ⟨t.index, h⟩) else none)
  else none

/-- START and END of a conflicting entry (R43). -/
def conflictItems (e : Entry) : List Byte := e4 e.start ++ e4 e.stop

/-- The earliest-starting entry of a room that overlaps a span. -/
def firstOverlap (s : State) (r : Room) (sp : Span) : Option Entry := (s.schedule r).find? (fun e => e.overlaps sp)

/-! ## HOLD and BOOK -/

/-- What HOLD and BOOK carry; the hold time is present for HOLD, as `some` of the optional parameter. -/
structure BookArg where
  target : TargetParam
  span : Span
  attendees : Nat
  organiser : BitVec 32
  display : Nat
  hold : Option (Option Nat)
  deriving DecidableEq, Repr

/-- The room that a HOLD or BOOK takes, or the code and items of the refusal, by the table's columns (R43). -/
def seekRoom (q : Asker) (t : Target) (sp : Span) (attendees : Nat) (s : State) : Except (Code × List Byte) Room :=
  match t with
  | .room r =>
    if (s.roomRec r).cap = 0 then .error (.noRoom, [])
    else if !((s.attrOf r).bookers.admits q.role) then .error (.denied, [])
    else
      match firstOverlap s r sp with
      | some e => .error (.conflict, conflictItems e)
      | none => .ok r
  | .pool k =>
    if s.kindOf k = .named then .error (.noRoom, [])
    else if !((s.zoneAttr k).bookers.admits q.role) then .error (.denied, [])
    else
      match choose s ⟨k, sp, attendees, none⟩ with
      | some (r, _) => .ok r
      | none => .error (.noRoom, [])

/-- Whether a target is a pool. -/
def Target.isPool : Target → Bool
  | .room _ => false
  | .pool _ => true

/-- The body HOLD and BOOK write (R43). -/
def newBody (q : Asker) (a : BookArg) (t : Target) (sp : Span) (r : Room) (s : State) : Body :=
  { Body.blank with
    state := if a.hold.isSome then .held else .confirmed
    room := r
    span := sp
    owner := .port q.port
    organiser := some a.organiser
    display := some a.display
    attendees := some a.attendees
    holdExpiry := a.hold.map (fun t => s.bookMinute + holdTime t)
    overCapacity := (s.roomRec r).cap < a.attendees
    fromPool := t.isPool }

/-- HOLD and BOOK taken by the book (R42, R43). -/
def makeBooking (q : Asker) (a : BookArg) (s : State) : State :=
  if !s.clockSet .rbk then reply q .clockUnset [] s
  else
    match a.target.judge with
    | none => reply q .badParam [] s
    | some t =>
      if badSpan a.span || badAttendees a.attendees || a.hold = some (some 0) then reply q .badParam [] s
      else
        match prepareSpan s a.span with
        | .error c => reply q c [] s
        | .ok sp =>
          match seekRoom q t sp a.attendees s with
          | .error (c, items) => reply q c items s
          | .ok r =>
            match s.freeIndex with
            | none => reply q .bookFull [] s
            | some i =>
              let b := newBody q a t sp r s
              let s := allocate i b s
              let s := recordNotice .booked i (detail2 b.state.toNat b.fromPool.toNat) (some q.port) s
              reply q .ok
                (eBookingId (s.handle i) ++ eRoom r ++ eSpan sp ++ eFlags b ++ b.holdExpiry.elim [] e4) s

/-- HOLD (R43). -/
def execHold (p : Port) (s : State) : Outcome State Fault Refusal :=
  .next (onBookRequest p
    (fun | .hold t sp a o d h => some (BookArg.mk t sp a o d (some h)) | _ => none) makeBooking s)

/-- BOOK (R43). -/
def execBook (p : Port) (s : State) : Outcome State Fault Refusal :=
  .next (onBookRequest p
    (fun | .book t sp a o d => some (BookArg.mk t sp a o d none) | _ => none) makeBooking s)

/-! ## CONFIRM, FIND_FREE, CANCEL -/

/-- CONFIRM taken by the book (R44). -/
def confirmWork (q : Asker) (id : BookingId) (s : State) : State :=
  onRecord q id noItems (fun b s =>
    if !mayChange q b.owner then reply q .denied [] s
    else if b.state = .held then
      let b := { b with holdExpiry := none }
      let s := setState id.index b .confirmed s
      let s := recordNotice .changed id.index 0 (some q.port) s
      reply q .ok (eSpan b.span ++ eFlags b) s
    else reply q .badState [] s) s

/-- CONFIRM (R44). -/
def execConfirm (p : Port) (s : State) : Outcome State Fault Refusal :=
  .next (onBookRequest p (fun | .confirm i => some i | _ => none) confirmWork s)

/-- FIND_FREE taken by the book (R45). -/
def findFreeWork (q : Asker) (a : Nat × Span × Nat) (s : State) : State :=
  if !s.clockSet .rbk then reply q .clockUnset [] s
  else if h : a.1 < 5 then
    let k : Zone := ⟨a.1, h⟩
    if badSpan a.2.1 || badAttendees a.2.2 then reply q .badParam [] s
    else
      match prepareSpan s a.2.1 with
      | .error c => reply q c [] s
      | .ok sp =>
        if s.kindOf k = .named then reply q .noRoom [] s
        else if !((s.zoneAttr k).bookers.admits q.role) then reply q .denied [] s
        else
          match choose s ⟨k, sp, a.2.2, none⟩ with
          | some (r, n) => reply q .ok (eRoom r ++ e4 n ++ eSpan sp) s
          | none => reply q .noRoom [] s
  else reply q .badParam [] s

/-- FIND_FREE (R45). -/
def execFindFree (p : Port) (s : State) : Outcome State Fault Refusal :=
  .next (onBookRequest p (fun | .findFree z sp a => some (z, sp, a) | _ => none) findFreeWork s)

/-- CANCEL of a record in DAMAGED, by the table (R46). -/
def cancelDamaged (q : Asker) (i : BookIx) (s : State) : State :=
  if q.role.privileged then
    reply q .ok [] (freeRecord i .cancelled Summary.damaged.toNat (some q.port) s)
  else if s.ownerOf i = .port q.port then reply q .damaged [] s
  else reply q .denied [] s

/-- CANCEL taken by the book: the MOVE_PENDING row is read before the DAMAGED row (R46). -/
def cancelWork (q : Asker) (id : BookingId) (s : State) : State :=
  match resolve id s with
  | none => reply q .unknown [] s
  | some r =>
    if r.pending = .move then reply q .busyRecord [] s
    else if r.life = .damaged then cancelDamaged q id.index s
    else
      match readBody id.index s with
      | (none, s) => cancelDamaged q id.index s
      | (some b, s) =>
        if !mayChange q b.owner then reply q .denied [] s
        else if b.state = .block then reply q .badState [] s
        else reply q .ok [] (freeRecord id.index .cancelled b.state.toNat (some q.port) s)

/-- CANCEL (R46). -/
def execCancel (p : Port) (s : State) : Outcome State Fault Refusal :=
  .next (onBookRequest p (fun | .cancel i => some i | _ => none) cancelWork s)

/-! ## MODIFY (R47, R48) -/

/-- What MODIFY carries. -/
structure ModifyArg where
  id : BookingId
  start : Option Nat
  len : Option Nat
  attendees : Option Nat
  deriving DecidableEq, Repr

/-- A carried field outside its range. -/
def ModifyArg.bad (a : ModifyArg) : Bool :=
  a.start.any (fun x => Config.maxSlot < x) || a.len.any (fun n => n = 0 || 96 < n) || a.attendees.any badAttendees

/-- The span after the change. -/
def ModifyArg.newSpan (a : ModifyArg) (b : Body) : Span := ⟨a.start.getD b.span.start, a.len.getD b.span.len⟩

/-- The attendee count after the change. -/
def ModifyArg.newAttendees (a : ModifyArg) (b : Body) : Option Nat := a.attendees.or b.attendees

/-- Whether the change is a start change. -/
def ModifyArg.startChange (a : ModifyArg) (b : Body) : Bool := (a.newSpan b).start != b.span.start

/-- The earliest entry of another record in the room that the span overlaps (R47; log 14). -/
def otherOverlap (s : State) (i : BookIx) (r : Room) (sp : Span) : Option Entry :=
  (s.schedule r).find? (fun e => e.index != i && e.overlaps sp)

/-- The code of the first failing check of MODIFY after DENIED, with its items (R47). -/
def modifyRefused (a : ModifyArg) (b : Body) (s : State) : Option (Code × List Byte) :=
  let now := s.bookSlot
  let sp := a.newSpan b
  let changes := a.startChange b
  if b.state = .block then some (.badState, [])
  else if a.bad then some (.badParam, [])
  else if b.state = .active && (changes || a.newAttendees b != b.attendees) then some (.badState, [])
  else if b.state = .active && sp.stop ≤ now then some (.tooLate, [])
  else if b.state != .active && a.start.any (fun x => x < now) then some (.tooLate, [])
  else if changes && b.state = .confirmed && b.span.start ≤ now + (s.attrOf b.room).e then some (.badState, [])
  else if a.start.any (fun x => (s.now .rbk).day + 14 < x / 288) then some (.horizon, [])
  else if changes && (s.bookRec a.id.index).pending = .attach then some (.busyRecord, [])
  else (otherOverlap s a.id.index b.room sp).map (fun e => (.conflict, conflictItems e))

/-- OVER_CAPACITY of an attendee count against a room's CAP (R38). -/
def exceedsCap (s : State) (r : Room) (attendees : Option Nat) : Bool := attendees.any (fun n => (s.roomRec r).cap < n)

/-- A body with a new span and attendee count, OVER_CAPACITY re-evaluated. -/
def Body.moved (b : Body) (sp : Span) (attendees : Option Nat) (s : State) : Body :=
  { b with span := sp, attendees := attendees, overCapacity := exceedsCap s b.room attendees }

/-- A MODIFY carried out at once (R47). -/
def modifyAtOnce (q : Asker) (a : ModifyArg) (b : Body) (s : State) : State :=
  let b := b.moved (a.newSpan b) (a.newAttendees b) s
  let s := setBody a.id.index b s
  let s := changeEntry b.room a.id.index (fun e => { e with start := b.span.start, stop := b.span.stop }) s
  let s := recordNotice .changed a.id.index 1 (some q.port) s
  reply q .ok (eSpan b.span ++ eFlags b) s

/-- An exchange opened for an attach or move: it gets the next serial number (log 59). -/
def openExchange (id : BookingId) (q : Asker) (move : Option (Span × Option Nat)) (s : State) : State :=
  s.setBook
    { s.book with exchanges := s.book.exchanges ++ [⟨s.book.serial, id, some (q.port, q.reqno), move⟩], serial := s.book.serial + 1 }

/-- A start change on a record with an order goes to the planner as a move: the claim entry is inserted, PENDING becomes MOVE and the
port stays PENDING (R48). -/
def sendMove (q : Asker) (a : ModifyArg) (b : Body) (o : OrderId) (s : State) : State :=
  let sp := a.newSpan b
  let att := a.newAttendees b
  let e : Entry := { start := sp.start, stop := sp.stop, index := a.id.index, owner := b.owner, summary := .claim }
  let s := setSchedule b.room (insertEntry e (s.schedule b.room)) s
  let n := s.book.serial
  let s := openExchange a.id q (some (sp, att)) (setPending a.id.index .move s)
  handPlanner (.move n a.id o b.room sp.start sp.stop att) s

/-- MODIFY taken by the book (R47). -/
def modifyWork (q : Asker) (a : ModifyArg) (s : State) : State :=
  if !s.clockSet .rbk then reply q .clockUnset [] s
  else
    onRecord q a.id noItems (fun b s =>
      if !mayChange q b.owner then reply q .denied [] s
      else
        match modifyRefused a b s with
        | some (c, items) => reply q c items s
        | none =>
          match (s.bookRec a.id.index).order with
          | some o => if a.startChange b then sendMove q a b o s else modifyAtOnce q a b s
          | none => modifyAtOnce q a b s) s

/-- MODIFY (R47). -/
def execModify (p : Port) (s : State) : Outcome State Fault Refusal :=
  .next (onBookRequest p (fun | .modify i st n a => some (ModifyArg.mk i st n a) | _ => none) modifyWork s)

/-! ## Check-in (R52, R53) -/

/-- Whether the check-in window of a start slot contains the current slot, under a zone's attributes (R52). -/
def inWindow (a : ZoneAttr) (start now : Nat) : Bool := start ≤ now + a.e && now < start + a.g

/-- The notice CHECKED_IN and the record indication of a check-in (R52, 06 R128). `path` is 0 panel, 1 panel with badge, 2 request. -/
def checkedInNotice (i : BookIx) (code path : Nat) (cause : Option Port) (s : State) : State :=
  recordNotice .checkedIn i (detail2 code path) cause s

/-- A check-in that counts on a CONFIRMED record (R52). -/
def checkInConfirmed (i : BookIx) (b : Body) (path : Nat) (cause : Option Port) (s : State) : BookOutcome × State :=
  if b.earlyIn then (.already, s)
  else if s.bookSlot < b.span.start then
    let s := handSched b.room (setBody i { b with earlyIn := true, checkinMinute := some s.bookMinute } s)
    (.checkedInEarly, checkedInNotice i 0 path cause s)
  else
    let s := setState i { b with checkinMinute := some s.bookMinute } .active s
    (.checkedIn, checkedInNotice i 1 path cause s)

/-- A check-in that counts on the ACTIVE record (R52). -/
def checkInActive (i : BookIx) (b : Body) (path : Nat) (cause : Option Port) (s : State) : BookOutcome × State :=
  if b.unverified then
    let s := handSched b.room (setBody i { b with unverified := false, checkinMinute := some s.bookMinute } s)
    (.verified, checkedInNotice i 2 path cause s)
  else (.already, s)

/-- The record's new state, which the answer of a CHECK_IN that checks in carries (R53). -/
def stateOctet (i : BookIx) (s : State) : List Byte := e1 (s.bookRec i).body.state.toNat

/-- CHECK_IN taken by the book (R53). The answer carries the record's new state when the record is checked in, and nothing else (11 R196,
log 15). A CONFIRMED record with EARLY_IN is answered OK whether or not its window contains the current slot: R53's third and fifth points
both fit one whose window is not open, and the third is the model's choice (log 63). -/
def checkInWork (q : Asker) (id : BookingId) (s : State) : State :=
  if !s.clockSet .rbk then reply q .clockUnset [] s
  else
    onRecord q id noItems (fun b s =>
      let now := s.bookSlot
      let a := s.attrOf b.room
      match b.state with
      | .confirmed =>
        if b.earlyIn then reply q .ok [] s
        else if inWindow a b.span.start now then
          let s := (checkInConfirmed id.index b 2 (some q.port) s).2
          reply q .ok (stateOctet id.index s) s
        else if b.span.start + a.g ≤ now then reply q .tooLate [] s
        else reply q .badState [] s
      | .active =>
        reply q .ok [] (checkInActive id.index b 2 (some q.port) s).2
      | .held | .block => reply q .badState [] s) s

/-- CHECK_IN (R53). -/
def execCheckIn (p : Port) (s : State) : Outcome State Fault Refusal :=
  .next (onBookRequest p (fun | .checkIn i => some i | _ => none) checkInWork s)

/-! ## ORDER (R56) -/

/-- The attach is sent: PENDING becomes ATTACH and the port stays PENDING (R56). -/
def sendAttach (q : Asker) (id : BookingId) (prm : OrderParam) (b : Body) (s : State) : State :=
  let n := s.book.serial
  let s := openExchange id q none (setPending id.index .attach s)
  handPlanner (.attach n id b.room b.span.start b.span.stop prm q.port) s

/-- ORDER taken by the book (R56). -/
def orderWork (q : Asker) (a : BookingId × OrderParam) (s : State) : State :=
  if !s.clockSet .rbk then reply q .clockUnset [] s
  else
    onRecord q a.1 noItems (fun b s =>
      let r := s.bookRec a.1.index
      match b.state with
      | .held | .block => reply q .badState [] s
      | .confirmed | .active =>
        if r.order.isSome || r.pending = .attach then reply q .badState [] s
        else if r.pending = .abandoned then reply q .busyRecord [] s
        else sendAttach q a.1 a.2 b s) s

/-- ORDER (R56). -/
def execOrder (p : Port) (s : State) : Outcome State Fault Refusal :=
  .next (onBookRequest p (fun | .order i prm => some (i, prm) | _ => none) orderWork s)

/-! ## BLOCK_ROOM and UNBLOCK (R59 to R61) -/

/-- What BLOCK_ROOM carries. -/
structure BlockArg where
  room : Nat
  span : Span
  cause : Nat
  display : Nat
  force : Nat
  deriving DecidableEq, Repr

/-- The entries of a room that overlap a span, in ascending START. -/
def overlapping (s : State) (r : Room) (sp : Span) : List Entry := (s.schedule r).filter (fun e => e.overlaps sp)

/-- The code of the first failing check of BLOCK_ROOM on the overlapping entries (R59). Of several BLOCK entries CONFLICT names the one of
the earliest START: the model's choice (log 14). -/
def blockRefused (es : List Entry) (force : Bool) (s : State) : Option (Code × List Byte) :=
  if es.any (fun e => e.summary = .damaged) then some (.damaged, [])
  else
    match es.find? (fun e => e.summary = .block) with
    | some e => some (.conflict, conflictItems e)
    | none =>
      if es.any (fun e => e.summary = .active) && !force then some (.badState, [])
      else if s.freeIndex.isNone then some (.bookFull, [])
      else none

/-- A reseat of record `i` from the blocked room to `r` (R60). -/
def reseat (q : Asker) (i : BookIx) (b : Body) (r : Room) (s : State) : State :=
  let es := (s.schedule b.room).filter (fun e => e.index = i)
  let s := setSchedule b.room ((s.schedule b.room).filter (fun e => e.index != i)) s
  let s := setSchedule r (es.foldl (fun xs e => insertEntry e xs) (s.schedule r)) s
  let s := setBody i { b with room := r, earlyIn := false, overCapacity := false, fromPool := true } s
  let s := recordNotice .reseated i b.room.val (some q.port) s
  match (s.bookRec i).order with
  | some o => handPlanner (.reseat (s.handle i) o r) s
  | none => s

/-- How many records a cascade has displaced and reseated so far, and the state it has left. -/
structure Cascade where
  displaced : Nat
  reseated : Nat
  state : State

/-- One overlapping record of the displacement cascade (R60). -/
def cascadeOne (q : Asker) (c : Cascade) (i : BookIx) : Cascade :=
  let s := c.state
  let b := (s.bookRec i).body
  let displaced (tried : Nat) : Cascade :=
    { c with displaced := c.displaced + 1, state := freeRecord i .displaced (detail2 b.state.toNat tried) (some q.port) s }
  if b.state = .confirmed && s.kindOf (s.zoneOf b.room) = .pooled then
    match choose s ⟨s.zoneOf b.room, b.span, b.attendees.getD 1, some b.room⟩ with
    | some (r, _) => { c with reseated := c.reseated + 1, state := reseat q i b r s }
    | none => displaced 1
  else displaced 0

/-- The body of a block (R60). -/
def blockBody (q : Asker) (r : Room) (sp : Span) (a : BlockArg) : Body :=
  { Body.blank with
    state := .block, room := r, span := sp, owner := .port q.port, display := some a.display, cause := some a.cause }

/-- The cascade and the block's record (R60). -/
def carryBlock (q : Asker) (a : BlockArg) (r : Room) (sp : Span) (s : State) : State :=
  let c := ((overlapping s r sp).map Entry.index).foldl (cascadeOne q) ⟨0, 0, s⟩
  match c.state.freeIndex with
  | none => c.state
  | some i =>
    let s := allocate i (blockBody q r sp a) c.state
    let s := recordNotice .booked i (detail2 BState.block.toNat a.cause) (some q.port) s
    reply q .ok (eBookingId (s.handle i) ++ e1 c.displaced ++ e1 c.reseated) s

/-- BLOCK_ROOM taken by the book (R59). The octet 1 of its force flag is *set*, 0 *clear*: the model's choice (log 57). -/
def blockRoomWork (q : Asker) (a : BlockArg) (s : State) : State :=
  if !s.clockSet .rbk then reply q .clockUnset [] s
  else if h : a.room < 128 then
    let r : Room := ⟨a.room, h⟩
    if badSpan a.span || 15 < a.cause || 1 < a.force then reply q .badParam [] s
    else
      match prepareSpan s a.span with
      | .error c => reply q c [] s
      | .ok sp =>
        if (s.roomRec r).cap = 0 then reply q .noRoom [] s
        else
          let es := overlapping s r sp
          if es.any (fun e => e.summary = .claim || (s.bookRec e.index).pending = .attach || (s.bookRec e.index).pending = .move)
          then reply q .busyRecord [] s
          else
            -- The overlapping bodies are read before the checks that need them (R62; log 36).
            let s := readAll (es.map Entry.index) s
            match blockRefused (overlapping s r sp) (a.force = 1) s with
            | some (c, items) => reply q c items s
            | none => carryBlock q a r sp s
  else reply q .badParam [] s

/-- BLOCK_ROOM (R59). -/
def execBlockRoom (p : Port) (s : State) : Outcome State Fault Refusal :=
  .next (onBookRequest p (fun | .blockRoom r sp c d f => some (BlockArg.mk r sp c d f) | _ => none) blockRoomWork s)

/-- UNBLOCK taken by the book (R61). -/
def unblockWork (q : Asker) (id : BookingId) (s : State) : State :=
  onRecord q id noItems (fun b s =>
    if b.state = .block then
      reply q .ok [] (freeRecord id.index .cancelled BState.block.toNat (some q.port) s)
    else reply q .badState [] s) s

/-- UNBLOCK (R61). -/
def execUnblock (p : Port) (s : State) : Outcome State Fault Refusal :=
  .next (onBookRequest p (fun | .unblock i => some i | _ => none) unblockWork s)

/-! ## Statistics and queries (R64, R66) -/

/-- CLEAR_BOOK_STATS taken by the book (R64). -/
def clearBookStatsWork (q : Asker) (_ : Unit) (s : State) : State :=
  reply q .ok [] (s.setBook { s.book with corrected := 0, trap := none })

/-- CLEAR_BOOK_STATS (R64). -/
def execClearBookStats (p : Port) (s : State) : Outcome State Fault Refusal :=
  .next (onBookRequest p (fun | .clearBookStats => some () | _ => none) clearBookStatsWork s)

/-- One entry of QUERY_ROOM's answer (R66). -/
def entryItems (s : State) (e : Entry) : List Byte :=
  e4 e.start ++ e4 e.stop ++ eBookingId (s.handle e.index) ++ e1 e.owner.toNat ++ e1 e.summary.toNat

/-- QUERY_ROOM taken by the book (R66). A continuation slot of any four octets is taken: the model's choice (log 56). -/
def queryRoomWork (q : Asker) (a : Nat × Nat × Option Nat) (s : State) : State :=
  if h : a.1 < 128 then
    let r : Room := ⟨a.1, h⟩
    let day : Span := ⟨a.2.1 * 288, 288⟩
    let es := (s.schedule r).filter (fun e => e.overlaps day && a.2.2.all (fun c => c ≤ e.start))
    reply q .ok
      (eOpt e4 s.book.releaseMarks[r] ++ eList (entryItems s) (es.take 96) ++ eOpt (fun e => e4 e.start) (es.drop 96).head?) s
  else reply q .badParam [] s

/-- QUERY_ROOM (R66). -/
def execQueryRoom (p : Port) (s : State) : Outcome State Fault Refusal :=
  .next (onBookRequest p (fun | .queryRoom r d c => some (r, d, c) | _ => none) queryRoomWork s)

/-- What QUERY_BOOKING answers for a DAMAGED record: START, END and OWNER of its entry, the room and the ORDER (R66). -/
def damagedItems (i : BookIx) (s : State) : List Byte :=
  match s.entryOf i with
  | some (r, e) => e4 e.start ++ e4 e.stop ++ e1 e.owner.toNat ++ eRoom r ++ eOpt eOrderId (s.bookRec i).order
  | none => []

/-- The body fields that CHECK covers, in the order of their table (03, Records and handles). -/
def bodyItems (b : Body) : List Byte :=
  e1 b.state.toNat ++ eRoom b.room ++ eSpan b.span ++ e1 b.owner.toNat ++ eOpt (fun o => e4 o.toNat) b.organiser ++
    eOpt e2 b.display ++ eOpt e1 b.attendees ++ eOpt e4 b.holdExpiry ++ eOpt e4 b.checkinMinute ++ eOpt e1 b.cause ++ eFlags b

/-- The body fields of QUERY_BOOKING, CHECK among them, then ORDER, PENDING and the state (R66). The octets of CHECK are a free value
(log 10). -/
def bookingItems (i : BookIx) (b : Body) (s : State) : List Byte :=
  bodyItems b ++ Config.checkOctets (bodyItems b) ++
    eOpt eOrderId (s.bookRec i).order ++ e1 (s.bookRec i).pending.toNat ++ e1 b.state.toNat

/-- QUERY_BOOKING taken by the book (R66). -/
def queryBookingWork (q : Asker) (id : BookingId) (s : State) : State :=
  onRecord q id (damagedItems id.index) (fun b s => reply q .ok (bookingItems id.index b s) s) s

/-- QUERY_BOOKING (R66). -/
def execQueryBooking (p : Port) (s : State) : Outcome State Fault Refusal :=
  .next (onBookRequest p (fun | .queryBooking i => some i | _ => none) queryBookingWork s)

/-- The number of live records whose entry has a summary (log 40). -/
def countState (s : State) (x : Summary) : Nat := (entryIxs (fun e => e.summary = x) s).length

/-- QUERY_BOOK_STATS taken by the book (R64). -/
def queryBookStatsWork (q : Asker) (_ : Unit) (s : State) : State :=
  reply q .ok
    (e2 (ixsWhere (fun r => r.life = .free) s.book.records).length ++ e2 (countState s .held) ++ e2 (countState s .confirmed) ++
      e2 (countState s .active) ++ e2 (countState s .block) ++ e2 (countState s .damaged) ++ e2 s.book.corrected ++
      eOpt (fun i => e2 i.val) s.book.trap ++ e2 s.book.scrub.val) s

/-- QUERY_BOOK_STATS (R64). -/
def execQueryBookStats (p : Port) (s : State) : Outcome State Fault Refusal :=
  .next (onBookRequest p (fun | .queryBookStats => some () | _ => none) queryBookStatsWork s)

end Sys2Proof.Machine
end

