-- ==== Sys2Proof/Machine/BookEvents.lean ====
section
/-! DEFINITION. What reaches the book other than from an agent port (03): OCU's requests, the planner's answers and events, the
configuration-applied signal, emptying and the stop. -/

namespace Sys2Proof.Machine

open Host

/-! ## OCU's requests (R52, R54, R55) -/

/-- Whether a check-in counts under the zone's BADGE_ONLY against a record's ORGANISER (R52). -/
def badgeCounts (a : ZoneAttr) (badge : Option Nat) (b : Body) : Bool :=
  !a.badgeOnly || (badge.isSome && badge == b.organiser.map (fun o => o.toNat % 16777216))

/-- The first of the listed records whose body a read finds sound; those found damaged are left DAMAGED (R52, R62). -/
def firstSound : List BookIx → State → Option (BookIx × Body) × State
  | [], s => (none, s)
  | i :: is, s =>
    if (s.bookRec i).life = .live then
      match readBody i s with
      | (some b, s) => (some (i, b), s)
      | (none, s) => firstSound is s
    else firstSound is s

/-- The CONFIRMED entries of a room whose check-in window contains the current slot, earliest first (R52). -/
def windowIxs (s : State) (r : Room) : List BookIx :=
  ((s.schedule r).filter (fun e => e.summary = .confirmed && inWindow (s.attrOf r) e.start s.bookSlot)).map Entry.index

/-- The ACTIVE entry of a room. -/
def activeIxs (s : State) (r : Room) : List BookIx := ((s.schedule r).filter (fun e => e.summary = .active)).map Entry.index

/-- With no record to check in, the release mark decides between TOO_LATE and NOTHING (R52). -/
def noneToCheckIn (r : Room) (s : State) : BookOutcome × State :=
  (if s.book.releaseMarks[r].any (fun m => s.bookSlot < m) then .tooLate else .nothing, s)

/-- The outcome of a PANEL_CHECKIN (R52). -/
def panelCheckinOutcome (r : Room) (badge : Option Nat) (s : State) : BookOutcome × State :=
  let path := if badge.isSome then 1 else 0
  let judge (work : BookIx → Body → Nat → Option Port → State → BookOutcome × State) (i : BookIx) (b : Body) (s : State) :
      BookOutcome × State :=
    if (s.bookRec i).pending = .move then (.busyRecord, s)
    else if badgeCounts (s.attrOf r) badge b then work i b path none s
    else (.notOrganiser, s)
  match firstSound (windowIxs s r) s with
  | (some (i, b), s) => judge checkInConfirmed i b s
  | (none, s) =>
    match firstSound (activeIxs s r) s with
    | (some (i, b), s) => judge checkInActive i b s
    | (none, s) => noneToCheckIn r s

/-- A work on OCU's item whose outcome is handed to OCU. -/
def giveOutcome (work : Item → State → BookOutcome × State) (it : Item) (s : State) : State :=
  let x := work it s
  handOutcome x.1 x.2

/-- PANEL_CHECKIN (R52). -/
def execPanelCheckin (s : State) : Outcome State Fault Refusal :=
  .next (onOcuRequest .panelCheckin (giveOutcome (fun it s => panelCheckinOutcome it.room it.badge s)) s)

/-- The outcome of END_NOW (R54). -/
def endNowOutcome (r : Room) (s : State) : BookOutcome × State :=
  match firstSound (activeIxs s r) s with
  | (some (i, _), s) => (.done none, freeRecord i .ended (detail2 1 BState.active.toNat) none s)
  | (none, s) => (.nothing, s)

/-- END_NOW (R54). -/
def execEndNow (s : State) : Outcome State Fault Refusal :=
  .next (onOcuRequest .endNow (giveOutcome (fun it s => endNowOutcome it.room s)) s)

/-- The least of a limit and the STARTs of the entries at or after a slot, other records' only (R54). -/
def limitedEnd (s : State) (r : Room) (i : BookIx) (from_ limit : Nat) : Nat :=
  ((s.schedule r).filter (fun e => e.index != i && from_ ≤ e.start)).foldl (fun m e => min m e.start) limit

/-- The outcome of EXTEND by a count of slots (R54). -/
def extendOutcome (r : Room) (count : Nat) (s : State) : BookOutcome × State :=
  match firstSound (activeIxs s r) s with
  | (some (i, b), s) =>
    let old := b.span.stop
    let new := limitedEnd s r i old (min (old + count) (b.span.start + 96))
    if new ≤ old then (.noGain, s)
    else
      let s := setBody i { b with span := ⟨b.span.start, new - b.span.start⟩ } s
      let s := changeEntry r i (fun e => { e with stop := new }) s
      (.done none, recordNotice .changed i 3 none s)
  | (none, s) => (.nothing, s)

/-- EXTEND (R54). -/
def execExtend (s : State) : Outcome State Fault Refusal :=
  .next (onOcuRequest .extend (giveOutcome (fun it s => extendOutcome it.room (it.slots.getD 0) s)) s)

/-- The body of a walk-up (R55). -/
def walkupBody (r : Room) (badge : Option Nat) (start stop minute : Nat) : Body :=
  { Body.blank with
    state := .active, room := r, span := ⟨start, stop - start⟩, owner := .panel, organiser := badge.map (BitVec.ofNat 32),
    attendees := some 1, checkinMinute := some minute }

/-- The outcome of WALKUP (R55). -/
def walkupOutcome (r : Room) (badge : Option Nat) (s : State) : BookOutcome × State :=
  let now := s.bookSlot
  if (s.roomRec r).cap = 0 then (.noRoom, s)
  else if !(s.attrOf r).bookers.walkup then (.denied, s)
  else if (s.schedule r).any (fun e => e.start ≤ now && now < e.stop) then (.noGain, s)
  else
    match s.freeIndex with
    | none => (.bookFull, s)
    | some i =>
      let stop := ((s.schedule r).filter (fun e => now < e.start)).foldl (fun m e => min m e.start) (now + 6)
      let s := allocate i (walkupBody r badge now stop s.bookMinute) s
      let s := recordNotice .walkup i (stop - now) none s
      (.done (some (s.handle i)), s)

/-- WALKUP (R55). -/
def execWalkup (s : State) : Outcome State Fault Refusal :=
  .next (onOcuRequest .walkup (giveOutcome (fun it s => walkupOutcome it.room it.badge s)) s)

/-- The outcome of GHOST_RELEASE (R55). -/
def ghostReleaseOutcome (r : Room) (s : State) : BookOutcome × State :=
  match firstSound (activeIxs s r) s with
  | (some (i, b), s) =>
    if b.unverified then (.nothing, s)
    else
      let s := freeRecord i .ghostReleased (s.attrOf r).h none s
      (.done none, s.setBook { s.book with releaseMarks := put s.book.releaseMarks r (some b.span.stop) })
  | (none, s) => (.nothing, s)

/-- GHOST_RELEASE (R55). -/
def execGhostRelease (s : State) : Outcome State Fault Refusal :=
  .next (onOcuRequest .ghostRelease (giveOutcome (fun it s => ghostReleaseOutcome it.room s)) s)

/-! ## The planner's answers and events (R49, R57, R58) -/

/-- The book takes the planner's message at the head of the lane, when `sel` selects it. -/
def takePlan {α : Type} (sel : PlanMsg → Option α) (work : α → State → State) (s : State) : State :=
  match s.wires.toBook.head?.bind sel with
  | some a => work a (s.setWires { s.wires with toBook := s.wires.toBook.tail })
  | none => s

/-- The first exchange that `p` selects, and the list without it. -/
def takeExchange (p : Exchange → Bool) : List Exchange → Option (Exchange × List Exchange)
  | [] => none
  | x :: xs => if p x then some (x, xs) else (takeExchange p xs).map (fun y => (y.1, x :: y.2))

/-- The answer an exchange's port waits for; nothing for an abandoned exchange (R68). -/
def answerExchange (x : Exchange) (code : Code) (items : List Byte) (s : State) : State :=
  match x.who with
  | some (p, n) => answer p n code items s
  | none => s

/-- The drop order message of R57, for an answer that carries an order. -/
def dropOrder (id : BookingId) (o : Option OrderId) (s : State) : State :=
  match o with
  | some o => handPlanner (.dropOrder id o) s
  | none => s

/-- What the book does with the answer to the attach numbered `n`: an Order ID, or a failure code (R57). The answer to an attach that was
in flight when the book emptied finds no exchange and is discarded (R67; log 59). -/
def attachAnswered (n : Nat) (id : BookingId) (result : Except Code OrderId) (s : State) : State :=
  match takeExchange (fun x => x.serial = n && x.move.isNone) s.book.exchanges with
  | none => s
  | some (x, rest) =>
    let s := s.setBook { s.book with exchanges := rest }
    let o := result.toOption
    match resolve id s with
    | none => answerExchange x .unknown [] (dropOrder id o s)
    | some r =>
      match r.pending, r.life, result with
      | .attach, .live, .ok o => answerExchange x .ok (eOrderId o) (setRec id.index { r with order := some o, pending := .none } s)
      | .attach, .live, .error c => answerExchange x c [] (setPending id.index .none s)
      | .attach, .damaged, _ => answerExchange x .damaged [] (dropOrder id o (setPending id.index .none s))
      | .abandoned, _, _ => dropOrder id o (setPending id.index .none s)
      | _, _, _ => s

/-- ATTACH_ANSWER (R57). -/
def execAttachAnswer (s : State) : Outcome State Fault Refusal :=
  .next (takePlan
    (fun | .attachOk n i o => some (n, i, Except.ok o) | .attachFailed n i c => some (n, i, Except.error c) | _ => none)
    (fun a s => attachAnswered a.1 a.2.1 a.2.2 s) s)

/-- The record's entries after a move: as moved, the claim entry becomes the record's entry; else the claim entry goes (R49). -/
def settleClaim (i : BookIx) (moved : Bool) (x : Summary) (s : State) : State :=
  let room := s.roomOf i
  let es := s.schedule room
  setSchedule room
    (if moved then
      (es.filter (fun e => !(e.index = i && e.summary != .claim))).map
        (fun e => if e.index = i then { e with summary := x } else e)
    else es.filter (fun e => !(e.index = i && e.summary = .claim))) s

/-- A pending move completed, by the table of R49; `failure` is the code of *not moved*. PENDING becomes NONE and the held deadlines
are taken. The answer OK of a completed move has no payload, for R49 names no items (11 R196, log 15). -/
def completeMove (x : Exchange) (span : Span) (attendees : Option Nat) (failure : Option Code) (s : State) : State :=
  let i := x.id.index
  let cause := x.who.map Prod.fst
  let s :=
    if (s.bookRec i).life = .damaged then
      answerExchange x .damaged [] (setPending i .none (settleClaim i failure.isNone .damaged s))
    else
      match failure with
      | some c => answerExchange x c [] (setPending i .none (settleClaim i false .confirmed s))
      | none =>
        match readBody i s with
        | (none, s) => answerExchange x .damaged [] (setPending i .none (settleClaim i true .damaged s))
        | (some b, s) =>
          let s := settleClaim i true b.state.summary s
          let b := b.moved span attendees s
          let s := setPending i .none (setBody i b s)
          answerExchange x .ok [] (recordNotice .changed i 2 cause s)
  heldDeadlines s.bookSlot i s

/-- Whether the book has a pending move with this serial number. -/
def State.moveOpen (s : State) (n : Nat) : Bool := s.book.exchanges.any (fun x => x.serial = n && x.move.isSome)

/-- What the book does with the answer to the move numbered `n` (R49). An answer whose own move is no longer pending is discarded
(R49, R67; 07 R160). -/
def moveAnswered (n : Nat) (order : OrderId) (failure : Option Code) (s : State) : State :=
  match takeExchange (fun x => x.serial = n && x.move.isSome) s.book.exchanges with
  | none => s
  | some (x, rest) =>
    match x.move with
    | none => s
    | some (span, att) =>
      let s := s.setBook { s.book with exchanges := rest }
      let s := if failure.isNone then s.setWires { s.wires with taken := s.wires.taken ++ [order] } else s
      completeMove x span att failure s

/-- Whether the message ends an order of a current handle that ORDER names (R58). -/
def orderEndedWork (id : BookingId) (o : OrderId) (delivered : Bool) (s : State) : State :=
  match resolve id s with
  | some r =>
    if r.order = some o then
      let s := setRec id.index { r with order := none } s
      if delivered && r.life = .live then
        match readBody id.index s with
        | (some b, s) => handSched b.room (setBody id.index { b with cateringDelivered := true } s)
        | (none, s) => s
      else s
    else s
  | none => s

/-- ORDER_ENDED (R58). -/
def execOrderEnded (s : State) : Outcome State Fault Refusal :=
  .next (takePlan (fun | .orderEnded i o d => some (i, o, d) | _ => none) (fun a s => orderEndedWork a.1 a.2.1 a.2.2 s) s)

/-- RESEAT_DONE (R58): taken, and nothing else changes. -/
def execReseatDone (s : State) : Outcome State Fault Refusal :=
  .next (takePlan (fun | .reseatDone _ _ => some () | _ => none) (fun _ s => s) s)

/-- NOT_FOUND (R58): taken, and nothing else changes. -/
def execNotFound (s : State) : Outcome State Fault Refusal :=
  .next (takePlan (fun | .notFound _ _ => some () | _ => none) (fun _ s => s) s)

/-! ## Configuration, emptying, stop (R65, R67, R68) -/

/-- OVER_CAPACITY re-evaluated for one record (R65). -/
def reevaluate (s : State) (i : BookIx) : State :=
  if (s.bookRec i).life = .live then
    match readBody i s with
    | (some b, s) =>
      let exceeds := exceedsCap s b.room b.attendees
      let s := setBody i { b with overCapacity := exceeds } s
      if exceeds && !b.overCapacity then
        recordNotice .overCapacity i (detail2 (b.attendees.getD 0) (s.roomRec b.room).cap) none s
      else s
    | (none, s) => s
  else s

/-- The records of changed rooms in HELD, CONFIRMED or ACTIVE (R65). -/
def changedIxs (rooms : List Room) (s : State) : List BookIx :=
  rooms.flatMap (fun r =>
    ((s.schedule r).filter (fun e => e.summary = .held || e.summary = .confirmed || e.summary = .active)).map Entry.index)

/-- BOOK_CONFIG_APPLIED (R65). The changed rooms are taken by ascending index, and the records of a room in the order of its schedule: the
manual states no order, and this one is the model's choice (log 54). -/
def execBookConfigApplied (s : State) : Outcome State Fault Refusal :=
  .next (takeConfig rbkCfg (fun sig s => (changedIxs sig.changed s).foldl reevaluate s) s)

/-- Every schedule emptied at once: the indication of each schedule that changed, by ascending room (R37; logs 29 and 54). -/
def indicateEmptied (schedules : Vector (List Entry) 128) (s : State) : State :=
  (ixsWhere (fun es => !es.isEmpty) schedules).foldl (fun s r => handSched r s) s

/-- The book's messages of before its emptying: a planner that has emptied takes them without acting on them (07 R161), so none of them is
left to be acted on after its time-set (log 38). -/
def dropUntaken (s : State) : State := if s.kpl.frozen then s.setWires { s.wires with toPlanner := [] } else s

/-- BOOK_EMPTY (R67): told by the CTU, the book answers UNKNOWN to attaches and moves in flight, empties, hands the schedule indications
and reports. Answers to those exchanges, which are numbered below `emptied`, are discarded from here on. -/
def execBookEmpty (s : State) : Outcome State Fault Refusal :=
  .next (match s.wires.time[blockIx .rbk].head? with
    | some .empty =>
      let s := dropUntaken (popTime .rbk s)
      let s := s.book.exchanges.foldl (fun s x => answerExchange x .unknown [] s) s
      let s := indicateEmptied s.book.schedules
        (s.setBook { Book.reset with frozen := true, serial := s.book.serial, emptied := s.book.serial })
      settleTime (s.setCtu { s.ctu with resync := s.ctu.resync.map (fun r => { r with rbk := true }) })
    | _ => s)

/-- Whether a port is stopped, or has been told to stop. -/
def portStopping (s : State) (p : Port) : Bool :=
  ((s.ports[p]).link = .stopped) || (s.wires.supply[portIx p]).contains .stop

/-- The waiting book requests of stopped ports are withdrawn (R68; log 30). -/
def withdrawRequests (s : State) : State :=
  s.setWires
    { s.wires with
      requests := tabulate (fun p => (s.wires.requests[p]).filter (fun h => !(h.req.isBook && (h.stopped || portStopping s p)))) }

/-- Every attach in flight is abandoned (R68). -/
def abandonAttaches (s : State) : State :=
  s.setBook
    { s.book with
      records := mapV (fun r => if r.pending = .attach then { r with pending := .abandoned } else r) s.book.records
      exchanges := s.book.exchanges.map (fun x => if x.move.isNone then { x with who := none } else x) }

/-- One pending move completed as not moved, with no answer given (R68). -/
def stopMove (s : State) (x : Exchange) : State :=
  match x.move with
  | some (span, att) => completeMove { x with who := none } span att (some .unknown) s
  | none => s

/-- The book's reaction to a stop of the ports (R68). The pending moves are completed in the order they were sent: the manual states no
order, and this one is the model's choice (log 54). -/
def bookStop (s : State) : State :=
  let s := abandonAttaches (withdrawRequests s)
  let moves := s.book.exchanges.filter (fun x => x.move.isSome)
  let s := s.setBook { s.book with exchanges := s.book.exchanges.filter (fun x => x.move.isNone) }
  moves.foldl stopMove s

/-- BOOK_STOP (R68). -/
def execBookStop (s : State) : Outcome State Fault Refusal :=
  .next (takeSupply rbkIx (fun | .stop => some () | _ => none) (fun _ s => bookStop s) s)

end Sys2Proof.Machine
end

