-- ==== Sys2Proof/Machine/Flags.lean ====
section
/-! DEFINITION. The flags and levels that are computed from the state: a port's attention line and the places a queue has left. -/

namespace Sys2Proof.Machine

/-- The attention line: asserted while PORT_STATE is READY or QLEN is above 0, and released while LINK is STOPPED (09 R182). -/
def PortRec.attention (p : PortRec) : Bool := p.link = .open && (p.state = .ready || 0 < p.qlen)

/-- Whether a notice queue holds as many notices as it can (08 R170). -/
def queueFull (q : List Notice) : Bool := Config.queueLimit ≤ q.length

/-- Whether a port takes transactions (09, The port record). -/
def PortRec.isOpen (p : PortRec) : Bool := p.link = .open

/-- Whether a port is STOPPED, with no *complete* on its way that would open it (09 R185, R186). -/
def State.portDown (s : State) (p : Port) : Bool := !(s.ports[p]).isOpen && !(s.wires.supply[portIx p]).contains .complete

end Sys2Proof.Machine
end

