-- ==== Sys2Proof/Machine/Notices.lean ====
section
/-! DEFINITION. The Notice Router (08): destinations, queues, fetching, the route table. -/

namespace Sys2Proof.Machine

open Host

/-! ## Destinations (R166 to R169) -/

/-- Whether a route entry matches a notice, under the active pointers (R168). -/
def Route.matches (r : Route) (z : ZoneTable) (n : Notice) : Bool :=
  r.enabled && r.kind.all (fun k => k = n.kind) && n.room.all (fun x => r.zones.contains (z.zoneOf x))

/-- Whether the owner port receives an owner copy (R166). -/
def ownerCopy (h : HandedNotice) (p : Port) : Bool := h.owner = some p && h.cause != some p

/-- Whether a port is in the destination set of a notice (R169). -/
def inDestination (s : State) (h : HandedNotice) (p : Port) : Bool :=
  ownerCopy h p || (h.note.kind = .recordDamaged && (s.ports[p]).role = .facilities) ||
    s.nrt.routes.toList.any (fun r => r.matches s.rzt.zones h.note && r.ports.contains p)

/-- The date of a notice handed without one is the CTU's clock as NRT takes it (R163). -/
def dateNotice (s : State) (h : HandedNotice) : Notice := if h.dated then h.note else { h.note with date := s.ctu.clock }

/-! ## Queues (R170) -/

/-- A queue replaced, its length reported to the port when it changes (R170). -/
def setQueue (p : Port) (q : List Notice) (s : State) : State :=
  let before := (s.nrt.queues[p]).length
  let s := s.setNrt { s.nrt with queues := put s.nrt.queues p q }
  if q.length = before then s else handQlen p q.length s

/-- A port's LOST marker replaced. -/
def setLost (p : Port) (b : Bool) (s : State) : State := s.setNrt { s.nrt with lost := put s.nrt.lost p b }

/-- One copy placed in a port's queue, or dropped with the LOST marker set (R170). -/
def placeCopy (n : Notice) (p : Port) (s : State) : State :=
  if queueFull s.nrt.queues[p] then setLost p true s else setQueue p (s.nrt.queues[p] ++ [n]) s

/-- A notice taken whole (R169). -/
def routeNotice (h : HandedNotice) (s : State) : State :=
  ((List.finRange 4).filter (inDestination s h)).foldl (fun t p => placeCopy (dateNotice s h) p t) s

/-- NRT takes the first notice at a producer's place, if one waits there (R163, R169); of those handed before the latest warm start began
it is the oldest, if any is left (log 60). -/
def takeNotice (s : State) (i : Fin 9) : State :=
  match s.wires.notices[i] with
  | h :: rest =>
    routeNotice h
      (s.setWires
        { s.wires with notices := put s.wires.notices i rest, noticesBefore := modAt s.wires.noticesBefore i (· - 1) })
  | [] => s

/-- NOTICE (R169): NRT takes a producer's first notice. -/
def execNotice (from_ : Producer) (s : State) : Outcome State Fault Refusal := .next (takeNotice s (producerIx from_))

/-- One queue emptied and its marker set (R175). -/
def emptyQueue (s : State) (p : Port) : State := setLost p true (setQueue p [] s)

/-- Whether NRT may take its warm start. The notices that any block handed before the warm start began stand in the queues that it empties,
and are reported through LOST only; those handed during it may come before or after (R175, 10 R192, R193; log 60). The ports are stopped from
the beginning of a warm start to its end (10 R193), so that no fetch of before it clears a LOST marker that it sets (R171; log 64). -/
def warmStartDue (s : State) : Bool := s.wires.noticesBefore.toList.all (· == 0) && (List.finRange 4).all s.portDown

/-- NOTICE_WARM_START (R175). -/
def execNoticeWarmStart (s : State) : Outcome State Fault Refusal :=
  .next (
    if warmStartDue s then
      takeSupply nrtIx (fun | .warmStart => some () | _ => none) (fun _ s => (List.finRange 4).foldl emptyQueue s) s
    else s)

/-! ## Requests (R171 to R173) -/

/-- FETCH_NOTICES taken by NRT (R171). -/
def fetchNoticesWork (q : Asker) (count : Nat) (s : State) : State :=
  if count = 0 || 8 < count then reply q .badParam [] s
  else
    let queue := s.nrt.queues[q.port]
    let rest := queue.drop count
    reply q .ok (eList eNotice (queue.take count) ++ e1 rest.length ++ eFlag s.nrt.lost[q.port])
      (setLost q.port false (setQueue q.port rest s))

/-- FETCH_NOTICES (R171). -/
def execFetchNotices (p : Port) (s : State) : Outcome State Fault Refusal :=
  .next (onRequest p (fun | .fetchNotices n => some n | _ => none) fetchNoticesWork s)

/-- QUERY_NOTICES taken by NRT (R173). -/
def queryNoticesWork (q : Asker) (_ : Unit) (s : State) : State :=
  reply q .ok
    (s.nrt.routes.toList.flatMap eRoute ++
      (List.finRange 4).flatMap (fun p => e1 (s.nrt.queues[p]).length ++ eFlag s.nrt.lost[p])) s

/-- QUERY_NOTICES (R173). -/
def execQueryNotices (p : Port) (s : State) : Outcome State Fault Refusal :=
  .next (onRequest p (fun | .queryNotices => some () | _ => none) queryNoticesWork s)

/-- What ROUTE_SET carries. -/
structure RouteArg where
  index : Nat
  kind : Nat
  zones : Nat
  ports : Nat
  enabled : Nat
  deriving DecidableEq, Repr

/-- The kind of a route entry as carried: 255 is ANY; nothing for a code that names neither (R172, 11 R197). -/
def routeKind (n : Nat) : Option (Option NoticeKind) := if n = 255 then some none else (NoticeKind.all[n]?).map some

/-- The zones, ports of a set octet. -/
def membersOf (n octet : Nat) : List (Fin n) := (List.finRange n).filter (fun i => octet.testBit i.val)

/-- ROUTE_SET taken by NRT (R172). The octet 1 of ENABLED is *on*, 0 *off*: the model's choice (log 57). -/
def routeSetWork (q : Asker) (a : RouteArg) (s : State) : State :=
  if h : a.index < 16 then
    match routeKind a.kind with
    | some k =>
      if 31 < a.zones || 15 < a.ports || 1 < a.enabled then reply q .badParam [] s
      else
        let r : Route := { kind := k, zones := membersOf 5 a.zones, ports := membersOf 4 a.ports, enabled := a.enabled = 1 }
        reply q .ok (eRoute r) (s.setNrt { s.nrt with routes := put s.nrt.routes ⟨a.index, h⟩ r })
    | none => reply q .badParam [] s
  else reply q .badParam [] s

/-- ROUTE_SET (R172). -/
def execRouteSet (p : Port) (s : State) : Outcome State Fault Refusal :=
  .next (onRequest p (fun | .routeSet i k z po e => some (RouteArg.mk i k z po e) | _ => none) routeSetWork s)

end Sys2Proof.Machine
end

