-- ==== Sys2Proof/Machine/Campus.lean ====
section
/-! DEFINITION. The Campus Time Unit (01): the reference minute, setting and trimming the clock, RESYNC. -/

namespace Sys2Proof.Machine

open Host

/-- The ROLLOVER notice of an advance to `c` (R6). -/
def rolloverNotice (c : Clock) : HandedNotice :=
  { note := { kind := .rollover, date := c, booking := none, order := none, room := none, panel := none, detail := c.weekday },
    dated := true, owner := none, cause := none }

/-- The clock advances by one minute: the tick is handed to the receiving blocks, with the ROLLOVER notice across midnight
(R3, R4, R6). -/
def ctuAdvance (s : State) : State :=
  let c := s.ctu.clock.next
  let s := handTimeAll (.tick c) (s.setCtu { s.ctu with clock := c })
  if c.isRollover then handNotice .ctu (rolloverNotice c) s else s

/-- A minute of a trim that is not its last: the notices that NRT takes in it, dated by the minute the trim has reached (08 R163). Which
they are is a free value (log 52). -/
def noticesInTrim (s : State) : State :=
  (Config.takenInTrim s.ctu.trimmed).foldl takeNotice (s.setCtu { s.ctu with trimmed := s.ctu.trimmed + 1 })

/-- `d` successive advances (R10). -/
def ctuAdvances : Nat → State → State
  | 0, s => s
  | 1, s => ctuAdvance s
  | d + 2, s => ctuAdvances (d + 1) (noticesInTrim (ctuAdvance s))

/-- The clock at the end of the day count (R3). -/
def lastClock : Clock := ⟨65535, 1439⟩

/-- What a reference minute expiry does by CSTATE (R3); during a RESYNC it is discarded (R13). -/
def minuteExpiry (s : State) : State :=
  if s.ctu.resync.isSome then s
  else
    match s.ctu.cstate with
    | .unset => s
    | .running =>
      if s.ctu.clock = lastClock then handTimeAll .expiry (s.setCtu { s.ctu with cstate := .expired }) else ctuAdvance s
    | .slewing =>
      s.setCtu { s.ctu with slew := s.ctu.slew - 1, cstate := if s.ctu.slew - 1 = 0 then .running else .slewing }
    | .expired => s

/-- The remaining periods of the reference minute pass and REFCOUNT returns to 0 (R2). -/
def wrapRefcount (s : State) : State :=
  s.setCtu { s.ctu with periods := s.ctu.periods + (Config.refMinute - s.ctu.refcount), refcount := 0 }

/-- REFERENCE_MINUTE_EXPIRY (R2, R3). -/
def execReferenceMinuteExpiry (s : State) : Outcome State Fault Refusal := .next (minuteExpiry (wrapRefcount s))

/-- One period of the reference input passes: REFCOUNT rises by one, or wraps with the expiry's effect (R2, log 5). -/
def onePeriod (s : State) : State :=
  if s.ctu.refcount + 1 < Config.refMinute then
    s.setCtu { s.ctu with periods := s.ctu.periods + 1, refcount := s.ctu.refcount + 1 }
  else minuteExpiry (wrapRefcount s)

/-- Whether `n` periods may pass before the end of the reference minute (log 5). -/
def periodsFit (n : Nat) (s : State) : Bool := s.ctu.refcount + n < Config.refMinute

/-- `n` periods pass within the reference minute (R2). -/
def passPeriods (n : Nat) (s : State) : State :=
  s.setCtu { s.ctu with periods := s.ctu.periods + n, refcount := s.ctu.refcount + n }

/-- An answer that waits until every receiving block has taken what stands in its list now. -/
def waitTime (q : Asker) (showClock : Bool) (s : State) : State :=
  let w : TimeWait := { port := q.port, reqno := q.reqno, showClock := showClock, left := mapV List.length s.wires.time }
  s.setCtu { s.ctu with waits := s.ctu.waits ++ [w] }

/-- A day or minute that SET_TIME and RESYNC refuse (R8, R13). -/
def badSetTime (day minute : Nat) : Bool := Config.maxSetDay < day || 1439 < minute

/-- The clock is set to `c`, REFCOUNT restarts, and a time-set is handed to every receiving block (R2, R8, R13). -/
def setClock (c : Clock) (s : State) : State :=
  handTimeAll (.timeSet c) (s.setCtu { s.ctu with clock := c, cstate := .running, slew := 0, refcount := 0 })

/-- A trim to `c` (R9): forward by up to ten minutes (R10), none, or backward by up to ten (R11). -/
def trim (q : Asker) (c : Clock) (s : State) : State :=
  let now := s.ctu.clock.minutes
  let new := c.minutes
  if new + 10 < now || now + 10 < new then reply q .stepTooLarge (ctuPayload s.ctu) s
  else if now < new then
    waitTime q true (ctuAdvances (new - now) (s.setCtu { s.ctu with slew := 0, cstate := .running }))
  else if now = new then
    let s := s.setCtu { s.ctu with slew := 0, cstate := .running }
    reply q .ok (ctuPayload s.ctu) s
  else
    let s := s.setCtu { s.ctu with slew := now - new, cstate := .slewing }
    reply q .ok (ctuPayload s.ctu) s

/-- SET_TIME taken by the CTU (R8). -/
def setTimeWork (q : Asker) (arg : Nat × Nat) (s : State) : State :=
  if badSetTime arg.1 arg.2 then reply q .badParam (ctuPayload s.ctu) s
  else
    match s.ctu.cstate with
    | .unset => waitTime q true (setClock ⟨arg.1, arg.2⟩ s)
    | .running | .slewing | .expired => trim q ⟨arg.1, arg.2⟩ s

/-- SET_TIME (R8 to R11). While a RESYNC is in progress it waits (R13). -/
def execSetTime (p : Port) (s : State) : Outcome State Fault Refusal :=
  .next (if s.ctu.resync.isSome then s
    else onRequest p (fun | .setTime d m => some (d, m) | _ => none) setTimeWork s)

/-- QUERY_TIME taken by the CTU (R12). -/
def queryTimeWork (q : Asker) (_ : Unit) (s : State) : State :=
  reply q .ok (ctuPayload s.ctu ++ e1 s.ctu.clock.weekday) s

/-- QUERY_TIME (R12). While a RESYNC is in progress it waits (R13). -/
def execQueryTime (p : Port) (s : State) : Outcome State Fault Refusal :=
  .next (if s.ctu.resync.isSome then s
    else onRequest p (fun | .queryTime => some () | _ => none) queryTimeWork s)

/-- RESYNC taken by the CTU: RBK, KPL and PSL are told to empty their state (R13). -/
def resyncWork (q : Asker) (arg : Nat × Nat) (s : State) : State :=
  if badSetTime arg.1 arg.2 then reply q .badParam [] s
  else
    let r : Resync :=
      { port := q.port, reqno := q.reqno, target := ⟨arg.1, arg.2⟩, rbk := false, kpl := false, psl := false }
    handTime .psl .empty (handTime .kpl .empty (handTime .rbk .empty (s.setCtu { s.ctu with resync := some r })))

/-- RESYNC (R13). -/
def execResync (p : Port) (s : State) : Outcome State Fault Refusal :=
  .next (if s.ctu.resync.isSome then s
    else onRequest p (fun | .resync d m => some (d, m) | _ => none) resyncWork s)

/-- Every owner has reported its state emptied: the setting of R13. -/
def resyncSetting (r : Resync) (s : State) : State :=
  waitTime ⟨r.port, r.reqno, .facilities⟩ false (setClock r.target (s.setCtu { s.ctu with resync := none }))

/-- RESYNC_COMPLETE (R13). -/
def execResyncComplete (s : State) : Outcome State Fault Refusal :=
  .next (match s.ctu.resync with
    | some r => if r.rbk && r.kpl && r.psl then resyncSetting r s else s
    | none => s)

end Sys2Proof.Machine
end

