-- ==== Sys2Proof/Machine/Kitchen.lean ====
section
/-! DEFINITION. The Kitchen Planner's tables, maps and orders (07): staging, placement, boundaries, the rollover, requests. -/

namespace Sys2Proof.Machine

open Host

/-! ## Maps (R136) -/

/-- The planner's today. -/
def State.kplDay (s : State) : Nat := (s.now .kpl).day

/-- The planner's current bucket. -/
def State.kplBucket (s : State) : Nat := (s.now .kpl).bucket

/-- The map index of an absolute bucket, for maps that begin at day `base`. -/
def mapIx (base bucket : Nat) : Option (Fin 192) :=
  if h : base * 96 ≤ bucket ∧ bucket - base * 96 < 192 then some ⟨bucket - base * 96, h.2⟩ else none

/-- LOAD of a bucket in a kitchen's map. -/
def State.load (s : State) (k : Kitchen) (bucket : Nat) : Nat :=
  match mapIx s.kplDay bucket with
  | some i => (s.kpl.maps[k])[i]
  | none => 0

/-- A bucket's LOAD changed. -/
def changeLoad (f : Nat → Nat) (k : Kitchen) (bucket : Nat) (s : State) : State :=
  match mapIx s.kplDay bucket with
  | some i => s.setKpl { s.kpl with maps := modAt s.kpl.maps k (fun m => modAt m i f) }
  | none => s

/-- Contributions added to their buckets (R136). -/
def addLoads (k : Option Kitchen) (cs : List (Nat × Nat)) (s : State) : State :=
  match k with
  | some k => cs.foldl (fun s c => changeLoad (· + c.2) k c.1 s) s
  | none => s

/-- Contributions withdrawn from their buckets (R136). -/
def withdrawLoads (k : Option Kitchen) (cs : List (Nat × Nat)) (s : State) : State :=
  match k with
  | some k => cs.foldl (fun s c => changeLoad (· - c.2) k c.1 s) s
  | none => s

/-! ## Orders (R141, R142) -/

def State.orderRec (s : State) (i : OrderIx) : OrderRec := s.kpl.orders[i]

/-- An order record replaced. -/
def setOrder (i : OrderIx) (o : OrderRec) (s : State) : State := s.setKpl { s.kpl with orders := put s.kpl.orders i o }

/-- The handle of an order as it stands. -/
def State.orderHandle (s : State) (i : OrderIx) : OrderId := ⟨i, (s.orderRec i).gen⟩

/-- The order a current handle names (R141). -/
def resolveOrder (id : OrderId) (s : State) : Option OrderRec :=
  let o := s.orderRec id.index
  if o.live ∧ o.gen = id.gen then some o else none

/-- The lowest free order index. -/
def State.freeOrder (s : State) : Option OrderIx := firstIx (fun o => !o.live) s.kpl.orders

/-- A notice about an order, with the record's booking and room (R142, 08 R163). -/
def orderNotice (kind : NoticeKind) (i : OrderIx) (o : OrderRec) (detail : Nat) (cause : Option Port) (s : State) : State :=
  handNotice .kpl
    { note := { kind := kind, date := s.now .kpl, booking := o.booking, order := some ⟨i, o.gen⟩, room := some o.room, panel := none,
                detail := detail },
      dated := true, owner := some o.owner, cause := cause } s

/-- The DETAIL that carries KITCHEN, 0 where absent (R142; log 34). -/
def kitchenDetail (o : OrderRec) : Nat := o.kitchen.elim 0 Fin.val

/-- An order freed, by the steps of R141, with the order indication (R142). -/
def freeOrderRec (i : OrderIx) (s : State) : State :=
  let o := s.orderRec i
  let s := withdrawLoads o.kitchen o.contribs s
  let s := s.setKpl { s.kpl with deferred := s.kpl.deferred.filter (fun j => j != i) }
  handOrderInd o.room (setOrder i (OrderRec.blank (o.gen + 1)) s)

/-- An order freed with a notice. -/
def freeOrderWith (i : OrderIx) (kind : NoticeKind) (detail : Nat) (cause : Option Port) (s : State) : State :=
  let o := s.orderRec i
  orderNotice kind i o detail cause (freeOrderRec i s)

/-- A place in the deferred list: ascending DELIVERY, ties in ascending index (R149). -/
def insertDeferred (s : State) (i : OrderIx) : List OrderIx → List OrderIx
  | [] => [i]
  | j :: js =>
    let di := (s.orderRec i).delivery
    let dj := (s.orderRec j).delivery
    if di < dj ∨ (di = dj ∧ i.val < j.val) then i :: j :: js else j :: insertDeferred s i js

/-- An order takes its place in the deferred list. -/
def joinDeferred (i : OrderIx) (s : State) : State :=
  s.setKpl { s.kpl with deferred := insertDeferred s i (s.kpl.deferred.filter (fun j => j != i)) }

/-- An order leaves the deferred list. -/
def leaveDeferred (i : OrderIx) (s : State) : State :=
  s.setKpl { s.kpl with deferred := s.kpl.deferred.filter (fun j => j != i) }

/-! ## Placement (R145, R146) -/

/-- What a successful placement yields. -/
structure Placing where
  kitchen : Kitchen
  departure : Nat
  contribs : List (Nat × Nat)
  deriving DecidableEq, Repr

/-- The walk of a trial over `n` buckets from `b` down; the takes so far stand in ascending order (R145, steps 6 and 7). -/
def walk (capb : Nat) (load : Nat → Nat) : Nat → Nat → Nat → List (Nat × Nat) → Option (List (Nat × Nat))
  | 0, _, rem, acc => if rem = 0 then some acc else none
  | n + 1, b, rem, acc =>
    if rem = 0 then some acc
    else
      let room := capb - load b
      if room = 0 then walk capb load n (b - 1) rem acc
      else if acc.length = 4 then none
      else walk capb load n (b - 1) (rem - min rem room) ((b, min rem room) :: acc)

/-- A placement trial of `units` for delivery minute `m` in kitchen `k`, for a room (R145). -/
def trial (s : State) (room : Room) (units : Nat) (m : Int) (k : Kitchen) : Except Code Placing :=
  let rec_ := s.kpl.kitchens[k]
  if !rec_.enabled then .error .kitchenFull
  else
    let dep : Int := m / 15 - (((s.roomRec room).travel)[k] : Nat)
    let lp : Int := dep - 1
    let c : Int := s.kplBucket
    if lp < c + 1 then .error .tooSoon
    else
      let ea : Int := max (lp - rec_.lead + 1) (c + 1)
      match walk rec_.capb (s.load k) (lp - ea + 1).toNat lp.toNat units [] with
      | some cs => .ok ⟨k, dep.toNat, cs⟩
      | none => .error .kitchenFull

/-- A placement: the first kitchen, then the room's secondary kitchen where allowed (R146). -/
def placement (s : State) (room : Room) (kreq : KReq) (fallback : Bool) (units : Nat) (m : Int) : Except Code Placing :=
  let first : Except Code Placing :=
    match kreq with
    | .kitchen k => trial s room units m k
    | .primary =>
      match (s.roomRec room).k1 with
      | some k => trial s room units m k
      | none => .error .kitchenFull
  match first with
  | .ok pl => .ok pl
  | .error c =>
    if fallback then
      match (s.roomRec room).k2 with
      | some k => trial s room units m k
      | none => .error c
    else .error c

/-- An order as a placement leaves it. -/
def OrderRec.placed (o : OrderRec) (pl : Placing) : OrderRec :=
  { o with state := .placed, kitchen := some pl.kitchen, departure := some pl.departure, contribs := pl.contribs }

/-- A placed order written, its contributions added to their buckets. -/
def writePlaced (i : OrderIx) (o : OrderRec) (pl : Placing) (s : State) : State :=
  addLoads (some pl.kitchen) pl.contribs (setOrder i (o.placed pl) s)

/-- DETAIL of ORDER_PLACED: the new STATE, and KITCHEN if present (R142). -/
def placedDetail (o : OrderRec) : Nat := detail2 o.state.toNat (kitchenDetail o)

/-! ## The kitchen table (R133 to R135) -/

/-- A carried kitchen record as stored, with how many fields were clamped; nothing for an ENABLED octet above 1 (R133, 11 R197).
ENABLED 1 is *on*, 0 *off* (log 57). -/
def KitchenParam.judge (q : KitchenParam) : Option (KitchenRec × Nat) :=
  if 1 < q.enabled then none
  else
    let lead := max 1 (min q.lead 16)
    let late := max 1 (min q.lateMargin 6)
    some ({ capb := q.capb, lead := lead, lateMargin := late, enabled := q.enabled = 1 },
      (if lead = q.lead then 0 else 1) + (if late = q.lateMargin then 0 else 1))

/-- The KITCHEN_OVERLOAD notice of one kitchen, if a bucket not passed holds more than its CAPB. The maps begin at day `base`, and the
current bucket is `c` (R135). -/
def overloadNotice (base c : Nat) (k : Kitchen) (s : State) : State :=
  let m := s.kpl.maps[k]
  match (ixsWhere (fun l => (s.kpl.kitchens[k]).capb < l) m).find? (fun i => c ≤ base * 96 + i.val) with
  | some i =>
    handNotice .kpl
      { note := { kind := .kitchenOverload, date := s.now .kpl, booking := none, order := none, room := none, panel := none,
                  detail := detail2 k.val i.val },
        dated := true, owner := none, cause := none } s
  | none => s

/-- The kitchens whose staged record differs from the active one (R134). -/
def changedKitchens (s : State) : List Kitchen := (List.finRange 4).filter (fun k => decide (s.kpl.kitchens[k] ≠ s.kpl.staged[k]))

/-- The staged kitchen table becomes active, with the reaction (R134, R135). The changed kitchens are taken by ascending index, and so are
their KITCHEN_OVERLOAD notices: the manual states no order, and this one is the model's choice (log 54). -/
def kitchenApply (base c : Nat) (s : State) : State :=
  let changed := changedKitchens s
  let s := s.setKpl { s.kpl with kitchens := s.kpl.staged, method := .none }
  changed.foldl (fun s k => overloadNotice base c k s) s

/-- STAGE_KITCHEN taken by the planner (R133). -/
def stageKitchenWork (q : Asker) (a : Nat × List KitchenParam × Nat) (s : State) : State :=
  let first := a.1
  let recs := a.2.1
  if a.2.2 = 1 && !s.clockSet .kpl then reply q .clockUnset [] s
  else if 3 < first || recs.length = 0 || 4 < recs.length || 4 < first + recs.length then reply q .badParam [] s
  else
    match methodOf a.2.2, judgeAll KitchenParam.judge recs with
    | some m, some rs =>
      let clamped := (rs.map Prod.snd).foldl (· + ·) 0
      let s := s.setKpl { s.kpl with staged := writeFrom s.kpl.staged first (rs.map Prod.fst), method := m.pend }
      if m = .immediate then
        reply q .ok (e1 clamped ++ e1 (changedKitchens s).length) (kitchenApply s.kplDay s.kplBucket s)
      else reply q .ok (e1 clamped) s
    | _, _ => reply q .badParam [] s

/-- STAGE_KITCHEN (R133). -/
def execStageKitchen (p : Port) (s : State) : Outcome State Fault Refusal :=
  .next (onRequest p (fun | .stageKitchen f r m => some (f, r, m) | _ => none) stageKitchenWork s)

/-- APPLY as it is taken: KITCHENS (3) by the planner (R134), the rest by RZT (02 R31). -/
def applyWork (q : Asker) (table : Nat) (s : State) : State :=
  if table = 3 then reply q .ok (e1 (changedKitchens s).length) (kitchenApply s.kplDay s.kplBucket s)
  else rztApplyWork q table s

/-- APPLY (R31). -/
def execApply (p : Port) (s : State) : Outcome State Fault Refusal :=
  .next (onRequest p (fun | .apply t => some t | _ => none) applyWork s)

/-! ## Boundaries (R137, R138) -/

/-- PLACED to COMMITTED, with PREP_DUE (R137, step 1). -/
def commit (i : OrderIx) (s : State) : State :=
  let o := { s.orderRec i with state := .committed }
  handOrderInd o.room (orderNotice .prepDue i o (kitchenDetail o) none (setOrder i o s))

/-- COMMITTED to DUE, with DISPATCH_DUE (R137, step 2). -/
def dispatch (i : OrderIx) (s : State) : State :=
  let o := { s.orderRec i with state := .due }
  handOrderInd o.room (orderNotice .dispatchDue i o (kitchenDetail o) none (setOrder i o s))

/-- Step 1 of R137 for one order at bucket `c`. -/
def commitOn (c : Nat) (i : OrderIx) (s : State) : State :=
  let o := s.orderRec i
  if o.live && o.state = .placed && o.contribs.any (fun x => x.1 ≤ c) then commit i s else s

/-- Step 2 of R137 for one order at bucket `c`. -/
def dispatchOn (c : Nat) (i : OrderIx) (s : State) : State :=
  let o := s.orderRec i
  if o.live && o.state = .committed && o.departure.any (fun d => d ≤ c) then dispatch i s else s

/-- Step 3 of R137 for one order: contributions naming a bucket before `c` leave the order and their buckets. -/
def dropPassed (c : Nat) (i : OrderIx) (s : State) : State :=
  let o := s.orderRec i
  setOrder i { o with contribs := o.contribs.filter (fun x => c ≤ x.1) }
    (withdrawLoads o.kitchen (o.contribs.filter (fun x => x.1 < c)) s)

/-- The live orders, in index order. The manual gives no order among the orders of one step; this one is the model's choice (log 54). -/
def liveOrders (s : State) : List OrderIx := ixsWhere OrderRec.live s.kpl.orders

/-- The bucket boundary work of R137. -/
def bucketBoundary (c : Nat) (s : State) : State :=
  let is := liveOrders s
  let s := is.foldl (fun s i => commitOn c i s) s
  let s := is.foldl (fun s i => dispatchOn c i s) s
  is.foldl (fun s i => dropPassed c i s) s

/-- The planner takes a slot boundary under the LATE_MARGINs active now (R135, R138). -/
def takeMargins (s : State) : State := s.setKpl { s.kpl with boundaryMargins := mapV KitchenRec.lateMargin s.kpl.kitchens }

/-- Whether the late test finds an order late at an absolute minute, under the margins of the boundary (R138). -/
def lateNow (s : State) (minute : Nat) (o : OrderRec) : Bool :=
  o.live && (o.state = .committed || o.state = .due) && !o.late &&
    o.kitchen.any (fun k => decide (o.delivery + (s.kpl.boundaryMargins[k] * 5 : Nat) ≤ (minute : Int)))

/-- The late test of one order (R138). -/
def lateOn (minute : Nat) (i : OrderIx) (s : State) : State :=
  if lateNow s minute (s.orderRec i) then
    let o := { s.orderRec i with late := true }
    handOrderInd o.room (orderNotice .orderLate i o (kitchenDetail o) none (setOrder i o s))
  else s

/-! ## The rollover (R139) -/

/-- Every map shifted by a day (step 2). -/
def shiftMap (m : Vector Nat 192) : Vector Nat 192 := ⟨⟨m.toList.drop 96 ++ List.replicate 96 0⟩, by simp⟩

/-- Step 2: the maps shift to begin at `day`, and contributions of earlier days leave their orders. -/
def shiftMaps (day : Nat) (s : State) : State :=
  s.setKpl
    { s.kpl with
      maps := mapV shiftMap s.kpl.maps
      orders := mapV (fun o => { o with contribs := o.contribs.filter (fun x => day * 96 ≤ x.1) }) s.kpl.orders }

/-- One order of the deferred list placed, or made UNPLACED (R149). -/
def placeDeferred (s : State) (i : OrderIx) : State :=
  let o := s.orderRec i
  match placement s o.room o.kreq o.fallback o.units o.delivery with
  | .ok pl =>
    let s := leaveDeferred i (writePlaced i o pl s)
    handOrderInd o.room (orderNotice .orderPlaced i (o.placed pl) (placedDetail (o.placed pl)) none s)
  | .error c =>
    let o := { o with state := .unplaced }
    let s := leaveDeferred i (setOrder i o s)
    handOrderInd o.room (orderNotice .orderUnplaced i o c.toNat none s)

/-- Whether a delivery minute falls on a day before `day`. -/
def dueBefore (day : Nat) (m : Int) : Bool := m < (day * 1440 : Nat)

/-- The planner's work at the rollover into day `day`, before the boundary work (R139). -/
def plannerRollover (day : Nat) (s : State) : State :=
  let s := if s.kpl.method = .rollover then kitchenApply (day - 1) (day * 96) s else s
  let s := shiftMaps day s
  let s := (s.kpl.deferred.filter (fun i => dueBefore (day + 2) (s.orderRec i).delivery)).foldl placeDeferred s
  let stale := ixsWhere (fun o => o.live && o.orphaned && dueBefore day o.delivery) s.kpl.orders
  stale.foldl (fun s i => freeOrderWith i .orderAbandoned (kitchenDetail (s.orderRec i)) none s) s

/-- The planner's work on a minute tick (R137 to R139). -/
def plannerTick (c : Clock) (s : State) : State :=
  let s := if c.isRollover then plannerRollover c.day s else s
  let s := if c.isBucketBoundary then bucketBoundary c.bucket s else s
  if c.isSlotBoundary then (liveOrders s).foldl (fun s i => lateOn c.minutes i s) (takeMargins s) else s

/-- PLANNER_TICK (R137): the planner takes the tick at the head of its list whole (log 8). -/
def execPlannerTick (s : State) : Outcome State Fault Refusal := .next (takeTick .kpl (fun _ => true) plannerTick s)

/-- PLANNER_ROLLOVER (R139): the planner takes a rollover tick (log 8). -/
def execPlannerRollover (s : State) : Outcome State Fault Refusal := .next (takeTick .kpl Clock.isRollover plannerTick s)

/-- ORDER_COMMIT (R137) for one order, when the planner's copy of the time stands at a bucket boundary (log 7). -/
def execOrderCommit (i : OrderIx) (s : State) : Outcome State Fault Refusal :=
  .next (if (s.now .kpl).isBucketBoundary then commitOn s.kplBucket i s else s)

/-- ORDER_DISPATCH (R137) for one order, when the planner's copy of the time stands at a bucket boundary (log 7). -/
def execOrderDispatch (i : OrderIx) (s : State) : Outcome State Fault Refusal :=
  .next (if (s.now .kpl).isBucketBoundary then dispatchOn s.kplBucket i s else s)

/-- LATE_MARKING (R138) for one order, when the planner's copy of the time stands at a slot boundary (log 7), with the margins that were
active when the planner took that boundary (R135). -/
def execLateMarking (i : OrderIx) (s : State) : Outcome State Fault Refusal :=
  .next (if (s.now .kpl).isSlotBoundary then lateOn (s.now .kpl).minutes i s else s)

/-- Every order freed at once, without notices: the indication of each, by ascending index (R142, R161; logs 29 and 54). -/
def indicateFreed (orders : Vector OrderRec 512) (s : State) : State :=
  (ixsWhere OrderRec.live orders).foldl (fun s i => handOrderInd (orders[i]).room s) s

/-- PLANNER_EMPTY (R161): told by the CTU, the planner frees every order with its indication, empties the path and reports. -/
def execPlannerEmpty (s : State) : Outcome State Fault Refusal :=
  .next (match s.wires.time[blockIx .kpl].head? with
    | some .empty =>
      let s := popTime .kpl s
      let s := indicateFreed s.kpl.orders
        (s.setKpl { Kpl.reset with kitchens := s.kpl.kitchens, staged := s.kpl.staged, method := s.kpl.method, frozen := true })
      let s := s.setWires { s.wires with toPlanner := [], toBook := [], taken := [] }
      settleTime (s.setCtu { s.ctu with resync := s.ctu.resync.map (fun r => { r with kpl := true }) })
    | _ => s)

/-! ## Requests -/

/-- Whether a GATEWAY port that is not OWNER asks (R150, R152). -/
def foreignGateway (q : Asker) (o : OrderRec) : Bool := q.role = .gateway && o.owner != q.port

/-- A request about a named order: UNKNOWN for a stale handle (R141). -/
def onOrder (q : Asker) (id : OrderId) (work : OrderRec → State → State) (s : State) : State :=
  match resolveOrder id s with
  | some o => work o s
  | none => reply q .unknown [] s

/-- ORDER_RETRY taken by the planner (R150). KITCHEN, which an order has only in some states, stands in the answer OK without a presence
octet: the model's choice (log 16). -/
def orderRetryWork (q : Asker) (id : OrderId) (s : State) : State :=
  if !s.clockSet .kpl then reply q .clockUnset [] s
  else
    onOrder q id (fun o s =>
      if foreignGateway q o then reply q .denied [] s
      else if o.state ≠ .unplaced then reply q .badState [] s
      else
        match placement s o.room o.kreq o.fallback o.units o.delivery with
        | .ok pl =>
          let s := writePlaced id.index o pl s
          let s := orderNotice .orderPlaced id.index (o.placed pl) (placedDetail (o.placed pl)) (some q.port) s
          reply q .ok (e1 pl.kitchen.val) (handOrderInd o.room s)
        | .error c => reply q c [] s) s

/-- ORDER_RETRY (R150). -/
def execOrderRetry (p : Port) (s : State) : Outcome State Fault Refusal :=
  .next (onRequest p (fun | .orderRetry i => some i | _ => none) orderRetryWork s)

/-- *Order ended* to the book, when the order still names a booking (R151, R152). -/
def tellEnded (id : OrderId) (o : OrderRec) (delivered : Bool) (s : State) : State :=
  match o.booking with
  | some b => handBook (.orderEnded b id delivered) s
  | none => s

/-- ORDER_CANCEL taken by the planner (R152). -/
def orderCancelWork (q : Asker) (id : OrderId) (s : State) : State :=
  onOrder q id (fun o s =>
    if foreignGateway q o then reply q .denied [] s
    else
      match o.state with
      | .deferred | .placed | .unplaced =>
        reply q .ok [] (tellEnded id o false (freeOrderWith id.index .orderCancelled 0 (some q.port) s))
      | .committed | .due => reply q .cateringCommitted [] s) s

/-- ORDER_CANCEL (R152). -/
def execOrderCancel (p : Port) (s : State) : Outcome State Fault Refusal :=
  .next (onRequest p (fun | .orderCancel i => some i | _ => none) orderCancelWork s)

/-- MARK_DELIVERED taken by the planner (R151). -/
def markDeliveredWork (q : Asker) (id : OrderId) (s : State) : State :=
  onOrder q id (fun o s =>
    match o.state with
    | .committed | .due => reply q .ok [] (tellEnded id o true (freeOrderRec id.index s))
    | .deferred | .placed | .unplaced => reply q .badState [] s) s

/-- MARK_DELIVERED (R151). -/
def execMarkDelivered (p : Port) (s : State) : Outcome State Fault Refusal :=
  .next (onRequest p (fun | .markDelivered i => some i | _ => none) markDeliveredWork s)

/-- QUERY_KITCHEN taken by the planner (R140). A bucket's headroom takes two octets, as its LOAD does: 11 R197 has no row for it (log 16). -/
def queryKitchenWork (q : Asker) (a : Nat × Nat × Nat) (s : State) : State :=
  if h : a.1 < 4 then
    let k : Kitchen := ⟨a.1, h⟩
    if 191 < a.2.1 || a.2.2 = 0 || 32 < a.2.2 || 192 < a.2.1 + a.2.2 then reply q .badParam [] s
    else
      let loads := ((s.kpl.maps[k]).toList.drop a.2.1).take a.2.2
      reply q .ok
        (eKitchen s.kpl.kitchens[k] ++ eKitchen s.kpl.staged[k] ++ e1 s.kpl.method.toNat ++ e4 (s.kplDay * 96) ++
          eList (fun l => e2 l ++ e2 ((s.kpl.kitchens[k]).capb - l)) loads) s
  else reply q .badParam [] s

/-- QUERY_KITCHEN (R140). -/
def execQueryKitchen (p : Port) (s : State) : Outcome State Fault Refusal :=
  .next (onRequest p (fun | .queryKitchen k f n => some (k, f, n) | _ => none) queryKitchenWork s)

/-- The fields of an order in the order of its table, then whether MOVE_UNDO is present and the deferred position, in two octets
(R162; log 16). -/
def orderItems (id : OrderId) (o : OrderRec) (s : State) : List Byte :=
  eOrderId id ++ e1 o.state.toNat ++ eOpt eBookingId o.booking ++ eRoom o.room ++ e1 o.kreq.toNat ++ eFlag o.fallback ++
    eOpt (fun k => e1 k.val) o.kitchen ++ e1 o.covers ++ e1 o.cls.toNat ++ e2 o.units ++ eInt1 o.offset ++ eInt4 o.delivery ++
    eInt4 o.deliveryBucket ++ eOpt e4 o.departure ++ eList (fun c => e4 c.1 ++ e2 c.2) o.contribs ++ e1 o.owner.val ++
    eFlag o.late ++ eFlag o.redirected ++ eFlag o.orphaned ++ eFlag o.undo.isSome ++
    eOpt (fun n => e2 (n + 1)) (if o.state = .deferred then s.kpl.deferred.findIdx? (fun j => j = id.index) else none)

/-- QUERY_ORDER taken by the planner (R162). -/
def queryOrderWork (q : Asker) (id : OrderId) (s : State) : State :=
  onOrder q id (fun o s => reply q .ok (orderItems id o s) s) s

/-- QUERY_ORDER (R162). -/
def execQueryOrder (p : Port) (s : State) : Outcome State Fault Refusal :=
  .next (onRequest p (fun | .queryOrder i => some i | _ => none) queryOrderWork s)

end Sys2Proof.Machine
end

