-- ==== Sys2Proof/Machine/Lines.lean ====
section
/-! DEFINITION. The Panel Line Units (05): poll turns, events and acknowledgements, displays, claims, announcements, line requests. -/

namespace Sys2Proof.Machine

open Host

/-! ## Reading and changing a line -/

def State.line (s : State) (l : Line) : LineUnit := s.lines[l]

def State.ctx (s : State) (l : Line) (a : Addr) : PanelCtx := (s.line l).ctx[a]

/-- One line changed. -/
def modLine (l : Line) (f : LineUnit → LineUnit) (s : State) : State := s.setLine l (f (s.line l))

/-- One panel context replaced. -/
def setCtx (l : Line) (a : Addr) (x : PanelCtx) (s : State) : State := modLine l (fun u => { u with ctx := put u.ctx a x }) s

/-- One panel context changed. -/
def modCtx (l : Line) (a : Addr) (f : PanelCtx → PanelCtx) (s : State) : State := setCtx l a (f (s.ctx l a)) s

/-- What a line is doing. -/
def setPhase (l : Line) (x : LinePhase) (s : State) : State := modLine l (fun u => { u with phase := x }) s

/-- A panel OFFLINE or ONLINE is configured (05, Panel contexts). -/
def PanelCtx.configured (c : PanelCtx) : Bool := c.pstate != .unconfigured

/-- The configured addresses of a line, ascending. -/
def configuredAddrs (u : LineUnit) : List Addr := ixsWhere PanelCtx.configured u.ctx

/-- A frame sent on a line. -/
def sendFrame (l : Line) (octets : List Byte) (s : State) : State := modLine l (fun u => { u with sent := u.sent ++ [octets] }) s

/-- A step of a line begins with nothing sent (log 41). -/
def clearSent (l : Line) (s : State) : State := modLine l (fun u => { u with sent := [] }) s

/-- A message to OCU about a panel's room. -/
def tellOcu (l : Line) (a : Addr) (m : Room → LineMsg) (s : State) : State :=
  match (s.ctx l a).room with
  | some r => handOcu l a (m r) s
  | none => s

/-- A panel notice, undated: NRT dates it (08 R163, R165). -/
def panelNotice (kind : NoticeKind) (l : Line) (a : Addr) (detail : Nat) (s : State) : State :=
  handNotice (.plu l)
    { note := { kind := kind, date := Clock.zero, booking := none, order := none, room := (s.ctx l a).room, panel := some ⟨l, a⟩,
                detail := detail },
      dated := false, owner := none, cause := none } s

/-! ## Requests over several lines (R101, R105, 09 R184) -/

/-- One line has finished its part of a request: a line's matched count joins, and the request is answered when no line is left. -/
def jobStep (l : Line) (port : Port) (reqno : Fin 256) (ann : Bool) (count : Nat) (j : LineJob) : LineJob :=
  if j.port = port ∧ j.reqno = reqno ∧ j.announce = ann then
    { j with left := j.left.filter (fun x => x != l), counts := j.counts ++ [(l, count)] }
  else j

/-- The answer of a finished request: for ANNOUNCE, the matched count of each line named, in line order. -/
def jobItems (j : LineJob) : List Byte :=
  if j.announce then
    eList (fun x : Line × Nat => e1 x.2) ((List.finRange 4).flatMap (fun l => j.counts.filter (fun x => x.1 = l)))
  else []

/-- The line's part of a request is done. -/
def lineDone (l : Line) (port : Port) (reqno : Fin 256) (ann : Bool) (count : Nat) (s : State) : State :=
  let jobs := s.jobs.map (jobStep l port reqno ann count)
  let done := jobs.filter (fun j => j.left.isEmpty)
  let s := s.setJobs (jobs.filter (fun j => !j.left.isEmpty))
  done.foldl (fun s j => answer j.port j.reqno .ok (jobItems j) s) s

/-! ## Announcements (R101, R102) -/

/-- Whether a group matches an address (R102). -/
def Announcement.hits (an : Announcement) (a : Addr) : Bool :=
  ((BitVec.ofNat 5 a.val ^^^ BitVec.ofNat 5 an.pattern) &&& ~~~(BitVec.ofNat 5 an.mask)) = 0

/-- The announcement in the slot is sent: the slot empties and takes the next that waits, and the line's part is done (R101). -/
def sendAnnounce (l : Line) (s : State) : State :=
  match (s.line l).annSlot with
  | none => s
  | some an =>
    let n := ((configuredAddrs (s.line l)).filter an.hits).length
    let s := sendFrame l (announceFrame an) s
    let s := modLine l (fun u => { u with annSlot := u.annWait.head?, annWait := u.annWait.tail }) s
    lineDone l an.port an.reqno true n s

/-- `n` announcements sent one after another. -/
def sendAnnounces (l : Line) : Nat → State → State
  | 0, s => s
  | n + 1, s => sendAnnounces l n (sendAnnounce l s)

/-- On a line with no configured address that is not stopped or in a turn, what waits is sent at once (R101; log 25). -/
def flushAnnounces (l : Line) (s : State) : State :=
  let u := s.line l
  if (configuredAddrs u).isEmpty && (u.phase = .idle || u.phase = .restarted) then sendAnnounces l (u.annWait.length + 1) s else s

/-- The line becomes idle. -/
def goIdle (l : Line) (s : State) : State := flushAnnounces l (setPhase l .idle s)

/-! ## Failed turns and panels going OFFLINE (R88) -/

/-- What a panel that was ONLINE hands on when it becomes OFFLINE, by cause: 0 frame error, 1 timeout, 2 LINE_RESET (08 R165). -/
def handOffline (l : Line) (a : Addr) (cause : Nat) (s : State) : State :=
  tellOcu l a .down (panelNotice .panelOffline l a cause s)

/-- The line statistics of a failed turn (R88). -/
def countFailure (l : Line) (a : Addr) (k : TrapKind) (s : State) : State :=
  modLine l (fun u =>
    { u with
      crcCount := if k = .crc then satInc u.crcCount else u.crcCount
      timeoutCount := if k = .timeout then satInc u.timeoutCount else u.timeoutCount
      trap := u.trap.or (some (a, k)) }) s

/-- A failed turn (R88). -/
def failTurn (l : Line) (a : Addr) (k : TrapKind) (s : State) : State :=
  let s := countFailure l a k s
  let c := s.ctx l a
  let missed := min (c.missed + 1) 3
  let s := setCtx l a { c with missed := missed } s
  if c.pstate = .online && missed = 3 then
    let s := modCtx l a (fun c => { c with pstate := .offline }) s
    let s := handOffline l a k.toNat s
    modCtx l a (fun c => { c with rawLast := none, rawPrev := none, evbuf := [] }) s
  else s

/-! ## Events (R91 to R94) -/

/-- The reference of a context (R91). -/
def PanelCtx.reference (c : PanelCtx) : Option Seq :=
  match c.evbuf.getLast? with
  | some e => some e.seq
  | none => (c.outstanding.map (fun o => o.1.seq)).or c.ackSeq

/-- The distance of a sequence from a reference; 1 when there is none (R91). -/
def distance (ref : Option Seq) (q : Seq) : Nat :=
  match ref with
  | some r => (q - r).val
  | none => 1

/-- An event at distance 0 or 9..15 is a repeat (R91). -/
def isRepeat (ref : Option Seq) (q : Seq) : Bool := distance ref q = 0 || 9 ≤ distance ref q

/-- The events a walk appends, with `left` places free; `started` once the first new event has been taken (R92). -/
def walkEvents : Option Seq → Bool → Nat → List PEvent → List PEvent
  | _, _, 0, _ => []
  | _, _, _ + 1, [] => []
  | ref, started, left + 1, e :: es =>
    if isRepeat ref e.seq then walkEvents ref started (left + 1) es
    else if !started || distance ref e.seq = 1 then e :: walkEvents (some e.seq) true left es
    else []

/-- How many more events OUTSTANDING and EVBUF may hold. -/
def PanelCtx.places (c : PanelCtx) : Nat := 4 - (c.evbuf.length + (if c.outstanding.isSome then 1 else 0))

/-- The first event of EVBUF handed onward; void events are acknowledged and passed (R93). -/
def handOnward (l : Line) (a : Addr) : List PEvent → State → State
  | [], s => modCtx l a (fun c => { c with evbuf := [] }) s
  | e :: es, s =>
    if e.kind = .void then handOnward l a es (modCtx l a (fun c => { c with ackSeq := some e.seq }) s)
    else
      let s := modCtx l a (fun c => { c with outstanding := some (e, c.room), evbuf := es }) s
      tellOcu l a (fun r => .event r e) s

/-- The next buffered event goes to OCU when none is outstanding (R92, R93). -/
def handNext (l : Line) (a : Addr) (s : State) : State :=
  let c := s.ctx l a
  if c.outstanding.isNone && !c.evbuf.isEmpty then handOnward l a c.evbuf s else s

/-- The walk of a good STATUS (R92). -/
def eventWalk (l : Line) (a : Addr) (es : List PEvent) (s : State) : State :=
  let c := s.ctx l a
  handNext l a (setCtx l a { c with evbuf := c.evbuf ++ walkEvents c.reference false c.places es } s)

/-- A verdict taken for a configured address (R94). -/
def takeVerdict (l : Line) (a : Addr) (q : Seq) (taken : Bool) (s : State) : State :=
  let c := s.ctx l a
  let mine := c.outstanding.any (fun o => o.1.seq = q)
  if taken then
    let ack := match c.ackSeq with
      | none => some q
      | some r => if 1 ≤ (q - r).val ∧ (q - r).val ≤ 8 then some q else some r
    if mine then handNext l a (setCtx l a { c with ackSeq := ack, outstanding := none } s)
    else setCtx l a { c with ackSeq := ack } s
  else if mine then setCtx l a { c with outstanding := none, evbuf := [] } s
  else s

/-! ## Displays (R96 to R98) -/

/-- The applied version taken (R98). -/
def takeApplied (l : Line) (a : Addr) (applied : Seq) (s : State) : State :=
  let c := s.ctx l a
  let c :=
    if c.dvSent = some applied then
      { c with
        dvAck := some applied
        dentry := match c.dentry with
          | some (.sent d v) => if v = applied then none else some (.sent d v)
          | x => x }
    else c
  let s := setCtx l a c s
  if c.dentry.isNone && c.dvAck != some applied then
    tellOcu l a .loss (setCtx l a { c with dentry := some .awaiting } s)
  else s

/-- The push after a good turn (R97). -/
def pushDisplay (l : Line) (a : Addr) (applied : Seq) (s : State) : State :=
  let c := s.ctx l a
  match c.dentry with
  | some (.unsent d) =>
    let v := c.dvSent.getD applied + 1
    sendFrame l (displayFrame a v d) (setCtx l a { c with dentry := some (.sent d v), dvSent := some v } s)
  | some (.sent d v) => sendFrame l (displayFrame a v d) s
  | some .awaiting => s
  | none => s

/-! ## Turns -/

/-- A poll turn begins: the announcement in the slot, then the POLL (R88). -/
def beginTurn (l : Line) (a : Addr) (claim : Bool) (s : State) : State :=
  let s := sendAnnounce l s
  setPhase l (.turn a claim) (sendFrame l (pollFrame a (s.ctx l a).ackSeq) s)

/-- The cycle's last turn is over: the claim window opens, but on a line left with no configured address it does not, and the line is
idle (R87, R99). -/
def endCycle (l : Line) (s : State) : State :=
  if (configuredAddrs (s.line l)).isEmpty then goIdle l s else setPhase l .window s

/-- The line goes to its next configured address, or ends the cycle after the last (R87, R99). -/
def nextTurn (l : Line) : List Addr → State → State
  | [], s => endCycle l (modLine l (fun u => { u with rest := [] }) s)
  | a :: rest, s =>
    if (s.ctx l a).configured then beginTurn l a false (modLine l (fun u => { u with rest := rest }) s) else nextTurn l rest s

/-- LINE_RESET of one configured address (R105). -/
def resetAddr (l : Line) (s : State) (a : Addr) : State :=
  let c := s.ctx l a
  if c.configured then
    let s := setCtx l a
      { c with pstate := .offline, missed := 0, ackSeq := none, rawLast := none, rawPrev := none, evbuf := [], outstanding := none } s
    if c.pstate = .online then handOffline l a 2 s else s
  else s

/-- The line statistics cleared (R104, R105). -/
def clearStats (l : Line) (s : State) : State := modLine l (fun u => { u with crcCount := 0, timeoutCount := 0, trap := none }) s

/-- LINE_RESET carried out on one line (R105). The addresses are taken in ascending order, and so are its PANEL_OFFLINE notices: the manual
states no order, and this one is the model's choice (log 54). -/
def resetLine (l : Line) (s : State) : State := clearStats l ((List.finRange 32).foldl (resetAddr l) s)

/-- The LINE_RESETs that waited for the end of a turn (R105; log 24). -/
def doResets (l : Line) (s : State) : State :=
  let waiting := (s.line l).resetWait
  let s := modLine l (fun u => { u with resetWait := [] }) s
  waiting.foldl (fun s w => lineDone l w.1 w.2 false 0 (resetLine l s)) s

/-- A turn ends. -/
def finishTurn (l : Line) (claim : Bool) (s : State) : State :=
  let s := doResets l s
  if claim then goIdle l s else nextTurn l (s.line l).rest s

/-- The steps of a good STATUS (R89). -/
def goodSteps (l : Line) (a : Addr) (st : Status) (s : State) : State :=
  let c := s.ctx l a
  let s := setCtx l a { c with missed := 0, pstate := .online } s
  let s := if c.pstate = .offline then tellOcu l a .up (panelNotice .panelOnline l a st.applied.val s) else s
  let s := takeApplied l a st.applied s
  let s := modCtx l a (fun c => { c with rawPrev := c.rawLast, rawLast := some st.raw }) s
  let s := tellOcu l a (fun r => .presence (s.line l).era r st.raw c.rawLast) s
  pushDisplay l a st.applied (eventWalk l a st.events s)

/-- GOOD_STATUS (R89): in a turn, with a frame that R83 judges good. The answer counts for the address's context as it stands, also when the
address was removed and named again within the turn (log 23). -/
def execGoodStatus (l : Line) (octets : List Byte) (s : State) : Outcome State Fault Refusal :=
  .next (match (s.line l).phase with
    | .turn a claim =>
      match judgeStatus a octets with
      | some st =>
        let s := clearSent l s
        finishTurn l claim (if (s.ctx l a).configured then goodSteps l a st s else s)
      | none => s
    | _ => s)

/-- FRAME_ERROR (R88): in a turn, with a frame that R83 judges bad. -/
def execFrameError (l : Line) (octets : List Byte) (s : State) : Outcome State Fault Refusal :=
  .next (match (s.line l).phase with
    | .turn a claim =>
      match judgeStatus a octets with
      | some _ => s
      | none =>
        let s := clearSent l s
        finishTurn l claim (if (s.ctx l a).configured then failTurn l a .crc s else s)
    | _ => s)

/-- ANSWER_TIMEOUT (R88): in a turn. -/
def execAnswerTimeout (l : Line) (s : State) : Outcome State Fault Refusal :=
  .next (match (s.line l).phase with
    | .turn a claim =>
      let s := clearSent l s
      finishTurn l claim (if (s.ctx l a).configured then failTurn l a .timeout s else s)
    | _ => s)

/-- The cycle period under a supply state; none in RETAIN (R87). -/
def cyclePeriod : SState → Option Nat
  | .run => some Config.runPeriod
  | .quiet => some Config.quietPeriod
  | .retain => none

/-- Whether a line may begin a cycle (R87); after a warm start it waits until the start is complete (R106; log 26). -/
def cycleDue (l : Line) (s : State) : Bool :=
  let u := s.line l
  let free := u.phase = .idle || (u.phase = .restarted && s.pwc.phase = .open)
  match cyclePeriod s.pwc.sstate with
  | some n => free && !(configuredAddrs u).isEmpty && u.cycleStart.all (fun t => t + n ≤ s.ctu.periods)
  | none => false

/-- A cycle begins over the configured addresses (R87). -/
def beginCycle (l : Line) (s : State) : State :=
  let addrs := configuredAddrs (s.line l)
  let s := modLine l (fun u => { u with cycleStart := some s.ctu.periods, cycleList := addrs }) (clearSent l s)
  nextTurn l addrs s

/-- CYCLE_START (R87) after `elapsed` further periods of the reference input, which pass whether or not a cycle then begins (log 5). -/
def execCycleStart (l : Line) (elapsed : Nat) (s : State) : Outcome State Fault Refusal :=
  .next (
    if periodsFit elapsed s then
      let s := passPeriods elapsed s
      if cycleDue l s then beginCycle l s else s
    else s)

/-- CLAIM_WINDOW (R99, R100): bit 5 is the claim bit, bits 4..0 the address. R86 has an address named during a cycle polled from the next
cycle on, and R100 gives every configured winner its claim turn at once: an address named during the current cycle that wins the window
gets the claim turn, which is the model's choice (log 61). -/
def execClaimWindow (l : Line) (bits : BitVec 6) (s : State) : Outcome State Fault Refusal :=
  .next (if (s.line l).phase = .window then
      let s := clearSent l s
      let w : Addr := Fin.ofNat 32 bits.toNat
      if !bits.msb && (s.ctx l w).configured then beginTurn l w true s else goIdle l s
    else s)

/-! ## What OCU hands -/

/-- The line takes OCU's first message for an address, when `sel` selects it. -/
def takeFromOcu {α : Type} (l : Line) (a : Addr) (sel : OcuMsg → Option α) (work : α → State → State) (s : State) : State :=
  match takeAddr a s.wires.toLine[l] with
  | some (m, rest) =>
    match sel m with
    | some x => work x (s.setWires { s.wires with toLine := put s.wires.toLine l rest })
    | none => s
  | none => s

/-- VERDICT (R94); discarded for an UNCONFIGURED address. -/
def execVerdict (l : Line) (a : Addr) (s : State) : Outcome State Fault Refusal :=
  .next (takeFromOcu l a (fun | .verdict q t => some (q, t) | _ => none)
    (fun x s => if (s.ctx l a).configured then takeVerdict l a x.1 x.2 s else s) s)

/-- DISPLAY_RECORD (R96); discarded for an UNCONFIGURED address (R86). -/
def execDisplayRecord (l : Line) (a : Addr) (s : State) : Outcome State Fault Refusal :=
  .next (takeFromOcu l a (fun | .display d => some d | _ => none)
    (fun d s => if (s.ctx l a).configured then modCtx l a (fun c => { c with dentry := some (.unsent d) }) s else s) s)

/-! ## Configuration, supply, warm start (R86, R90, R106) -/

/-- The room whose active record names an address, if any. -/
def namingRoom (s : State) (l : Line) (a : Addr) : Option Room := firstIx (fun r => r.panel = some ⟨l, a⟩) s.rzt.rooms

/-- An address loses its panel: its context is as after power-on and it leaves the cycle in progress, so that one named again waits for the
next cycle (R86, R87). -/
def unconfigure (l : Line) (a : Addr) (s : State) : State :=
  modLine l (fun u => { u with ctx := put u.ctx a PanelCtx.reset, rest := u.rest.filter (fun x => x != a) }) s

/-- One address compared with the active room table (R86). -/
def reconfigure (l : Line) (s : State) (a : Addr) : State :=
  let c := s.ctx l a
  match c.configured, namingRoom s l a with
  | false, none => s
  | false, some r => setCtx l a { PanelCtx.reset with pstate := .offline, room := some r } s
  | true, none => unconfigure l a (tellOcu l a .down s)
  | true, some q =>
    if c.room = some q then s
    else
      let s := tellOcu l a .down s
      let s := setCtx l a { c with room := some q, rawLast := none, rawPrev := none, dentry := some .awaiting } s
      tellOcu l a .loss s

/-- LINE_CONFIG_APPLIED (R86). -/
def execLineConfigApplied (l : Line) (s : State) : Outcome State Fault Refusal :=
  .next (takeConfig (lineCfg l) (fun _ s => flushAnnounces l ((List.finRange 32).foldl (reconfigure l) (clearSent l s))) s)

/-- A turn or cycle in progress is abandoned and the line is in a resting phase (R90). Presence reports handed before this are of an earlier
era (log 62). -/
def abandonTurn (l : Line) (x : LinePhase) (s : State) : State :=
  doResets l (modLine l (fun u => { u with phase := x, rest := [], sent := [], era := u.era + 1 }) s)

/-- LINE_SUPPLY_CHANGE (R90): at RETAIN the line stops; else only its period changes. -/
def execLineSupplyChange (l : Line) (s : State) : Outcome State Fault Refusal :=
  .next (takeSupply (lineIx l) (fun | .state x => some x | _ => none)
    (fun x s => if x = .retain then abandonTurn l .stopped s else s) s)

/-- The warm start of one configured address (R106). -/
def warmAddr (l : Line) (s : State) (a : Addr) : State :=
  let c := s.ctx l a
  if c.configured then
    let kept : Option DEntry := match c.dentry with
      | some (.unsent d) => some (.unsent d)
      | some (.sent d _) => some (.unsent d)
      | _ => none
    let s := setCtx l a
      { c with pstate := .offline, missed := 0, rawLast := none, rawPrev := none, evbuf := [], outstanding := none, dvSent := none,
               dvAck := none, dentry := some (kept.getD .awaiting) } s
    if kept.isNone then tellOcu l a .loss s else s
  else s

/-- The warm start of a line (R106). The addresses are taken in ascending order: the model's choice (log 54). -/
def warmLine (l : Line) (s : State) : State :=
  let s := abandonTurn l .restarted s
  let s := modLine l (fun u => { u with cycleStart := none, cycleList := [], annSlot := none, annWait := [] }) s
  let s := s.setJobs (s.jobs.filter (fun j => !(j.announce && j.left.contains l)))
  (List.finRange 32).foldl (warmAddr l) s

/-- LINE_WARM_START (R106). -/
def execLineWarmStart (l : Line) (s : State) : Outcome State Fault Refusal :=
  .next (takeSupply (lineIx l) (fun | .warmStart => some () | _ => none) (fun _ s => warmLine l s) s)

/-! ## Line requests (R101, R103 to R105) -/

/-- What ANNOUNCE carries. -/
structure AnnounceArg where
  lines : Nat
  pattern : Nat
  mask : Nat
  code : Nat
  duration : Nat
  deriving DecidableEq, Repr

/-- An announcement placed in a line's slot, or waiting for it (R101). -/
def placeAnnounce (an : Announcement) (s : State) (l : Line) : State :=
  let s := modLine l (fun u =>
    if u.annSlot.isNone then { u with annSlot := some an, sent := [] } else { u with annWait := u.annWait ++ [an], sent := [] }) s
  flushAnnounces l s

/-- ANNOUNCE taken by the units of the lines named (R101). -/
def announceWork (q : Asker) (a : AnnounceArg) (s : State) : State :=
  if a.lines = 0 || 15 < a.lines || 31 < a.pattern || 31 < a.mask || 255 < a.code || 255 < a.duration then
    reply q .badParam [] s
  else
    let ls := linesOf a.lines
    let s := s.setJobs (s.jobs ++ [{ port := q.port, reqno := q.reqno, announce := true, left := ls, counts := [] }])
    ls.foldl (placeAnnounce ⟨q.port, q.reqno, a.pattern, a.mask, a.code, a.duration⟩) s

/-- ANNOUNCE (R101). -/
def execAnnounce (p : Port) (s : State) : Outcome State Fault Refusal :=
  .next (onRequest p (fun | .announce l pa m c d => some (AnnounceArg.mk l pa m c d) | _ => none) announceWork s)

/-- CLEAR_LINE_STATS taken by the units of the lines named (R104). -/
def clearLineStatsWork (q : Asker) (lines : Nat) (s : State) : State :=
  if lines = 0 || 15 < lines then reply q .badParam [] s
  else reply q .ok [] ((linesOf lines).foldl (fun s l => clearStats l s) s)

/-- CLEAR_LINE_STATS (R104). -/
def execClearLineStats (p : Port) (s : State) : Outcome State Fault Refusal :=
  .next (onRequest p (fun | .clearLineStats l => some l | _ => none) clearLineStatsWork s)

/-- Whether a turn is in progress on a line. -/
def LineUnit.inTurn (u : LineUnit) : Bool :=
  match u.phase with
  | .turn _ _ => true
  | _ => false

/-- One line's part of a LINE_RESET: at once between two turns, else at the end of the turn (R105). -/
def askReset (q : Asker) (s : State) (l : Line) : State :=
  let s := modLine l (fun u => { u with resetWait := u.resetWait ++ [(q.port, q.reqno)] }) s
  if (s.line l).inTurn then s else doResets l s

/-- LINE_RESET taken by the units of the lines named (R105). -/
def lineResetWork (q : Asker) (lines : Nat) (s : State) : State :=
  if lines = 0 || 15 < lines then reply q .badParam [] s
  else
    let ls := linesOf lines
    let s := s.setJobs (s.jobs ++ [{ port := q.port, reqno := q.reqno, announce := false, left := ls, counts := [] }])
    ls.foldl (askReset q) s

/-- LINE_RESET (R105). -/
def execLineReset (p : Port) (s : State) : Outcome State Fault Refusal :=
  .next (onRequest p (fun | .lineReset l => some l | _ => none) lineResetWork s)

/-- One address of QUERY_LINE's answer (R103). -/
def ctxItems (c : PanelCtx) : List Byte :=
  e1 c.pstate.toNat ++ eOpt eRoom c.room ++ e1 c.missed ++ eOpt (fun r => e1 r.toNat) c.rawLast ++
    eOpt (fun q : Seq => e1 q.val) c.ackSeq ++ eOpt (fun q : Seq => e1 q.val) c.dvSent ++ eOpt (fun q : Seq => e1 q.val) c.dvAck ++
    eFlag c.dentry.isSome

/-- QUERY_LINE taken by a unit (R103). -/
def queryLineWork (q : Asker) (line : Nat) (s : State) : State :=
  if h : line < 4 then
    let u := s.line ⟨line, h⟩
    reply q .ok
      (u.ctx.toList.flatMap ctxItems ++ e2 u.crcCount ++ e2 u.timeoutCount ++
        eOpt (fun t : Addr × TrapKind => e1 t.1.val ++ e1 t.2.toNat) u.trap) s
  else reply q .badParam [] s

/-- QUERY_LINE (R103). -/
def execQueryLine (p : Port) (s : State) : Outcome State Fault Refusal :=
  .next (onRequest p (fun | .queryLine l => some l | _ => none) queryLineWork s)

end Sys2Proof.Machine
end

