-- ==== Sys2Proof/Machine/Path.lean ====
section
/-! DEFINITION. The book–planner path (07): what the planner does with the book's messages, and how a stop settles moves. -/

namespace Sys2Proof.Machine

open Host

/-- The planner takes the book's message at the head of the lane, when `sel` selects it. While it waits for the time-set of a RESYNC it
takes the message without acting on it (R161). -/
def takeBookMsg {α : Type} (sel : BookMsg → Option α) (work : α → State → State) (s : State) : State :=
  match s.wires.toPlanner.head?.bind sel with
  | some a =>
    let s := s.setWires { s.wires with toPlanner := s.wires.toPlanner.tail }
    if s.kpl.frozen then s else work a s
  | none => s

/-! ## Attach (R147) -/

/-- What an attach carries. -/
structure AttachArg where
  serial : Nat
  id : BookingId
  room : Room
  start : Nat
  stop : Nat
  prm : OrderParam
  owner : Port
  deriving DecidableEq, Repr

/-- KREQ as carried: 0 PRIMARY, then kitchen k as k + 1 (log 16). -/
def kreqOf : Nat → Option KReq
  | 0 => some .primary
  | n + 1 => (kitchenOf n).map .kitchen

/-- CLASS as carried. -/
def classOf : Nat → Option MealClass
  | 0 => some .light
  | 1 => some .hot
  | 2 => some .full
  | _ => none

/-- Weight of a class per cover. -/
def MealClass.weight : MealClass → Nat
  | .light => 1
  | .hot => 2
  | .full => 3

/-- Order parameters in range. -/
structure OrderAsk where
  covers : Nat
  cls : MealClass
  kreq : KReq
  offset : Int
  fallback : Bool
  deriving DecidableEq, Repr

/-- Carried order parameters, when each is in its range (07, Taking an order). FALLBACK 1 is *allowed*, 0 *not allowed* (log 57). -/
def OrderParam.judge (q : OrderParam) : Option OrderAsk := do
  let cls ← classOf q.cls
  let kreq ← kreqOf q.kreq
  if q.covers = 0 ∨ 200 < q.covers ∨ q.offset < -6 ∨ 90 < q.offset ∨ 1 < q.fallback then none
  else some { covers := q.covers, cls := cls, kreq := kreq, offset := q.offset, fallback := q.fallback = 1 }

/-- The delivery minute of a start slot and an OFFSET (R147, R156). -/
def deliveryOf (start : Nat) (offset : Int) : Int := (start * 5 : Nat) + offset * 5

/-- Whether a delivery minute falls on today + 2 or later (R147, R156). -/
def farAhead (s : State) (m : Int) : Bool := !dueBefore (s.kplDay + 2) m

/-- The record an attach creates, before any placement (R147). -/
def newOrder (gen : Fin 128) (a : AttachArg) (k : OrderAsk) (m : Int) : OrderRec :=
  { OrderRec.blank gen with
    live := true, state := .deferred, booking := some a.id, room := a.room, kreq := k.kreq, fallback := k.fallback,
    covers := k.covers, cls := k.cls, units := k.covers * k.cls.weight, offset := k.offset, delivery := m, deliveryBucket := m / 15,
    owner := a.owner }

/-- The notice, indication and answer of an order created for the attach numbered `n` (R147). -/
def orderCreated (n : Nat) (i : OrderIx) (s : State) : State :=
  let o := s.orderRec i
  let s := handOrderInd o.room (orderNotice .orderPlaced i o (placedDetail o) (some o.owner) s)
  match o.booking with
  | some b => handBook (.attachOk n b (s.orderHandle i)) s
  | none => s

/-- ATTACH taken by the planner (R147). -/
def attachWork (a : AttachArg) (s : State) : State :=
  let failed (c : Code) : State := handBook (.attachFailed a.serial a.id c) s
  if !s.clockSet .kpl then failed .clockUnset
  else
    match a.prm.judge with
    | none => failed .badParam
    | some k =>
      let m := deliveryOf a.start k.offset
      if ((a.stop * 5 : Nat) : Int) ≤ m then failed .badParam
      else
        match s.freeOrder with
        | none => failed .ordersFull
        | some i =>
          let o := newOrder (s.orderRec i).gen a k m
          if farAhead s m then orderCreated a.serial i (joinDeferred i (setOrder i o s))
          else
            match placement s a.room k.kreq k.fallback o.units m with
            | .ok pl => orderCreated a.serial i (writePlaced i o pl s)
            | .error c => failed c

/-- ATTACH (R147). -/
def execAttach (s : State) : Outcome State Fault Refusal :=
  .next (takeBookMsg (fun | .attach n i r st en prm ow => some (AttachArg.mk n i r st en prm ow) | _ => none) attachWork s)

/-! ## Moves (R156, R157, R160) -/

/-- What a move carries. -/
structure MoveArg where
  serial : Nat
  id : BookingId
  order : OrderId
  start : Nat
  stop : Nat
  deriving DecidableEq, Repr

/-- MOVE_UNDO of an order as it stands (R160). -/
def undoOf (s : State) (i : OrderIx) (o : OrderRec) : MoveUndo :=
  { state := o.state, kitchen := o.kitchen, delivery := o.delivery, deliveryBucket := o.deliveryBucket, departure := o.departure,
    contribs := o.contribs, deferred := s.kpl.deferred.contains i }

/-- An order with a new delivery minute. -/
def OrderRec.redelivered (o : OrderRec) (m : Int) : OrderRec := { o with delivery := m, deliveryBucket := m / 15 }

/-- An order that becomes DEFERRED: no KITCHEN and no contributions. -/
def OrderRec.unplacedAs (o : OrderRec) (x : OState) : OrderRec :=
  { o with state := x, kitchen := none, departure := none, contribs := [] }

/-- The order of a move re-placed by the table of R156; nothing when the placement fails, for an order that is not COMMITTED or DUE. -/
def rePlace (i : OrderIx) (o : OrderRec) (m : Int) (s : State) : Option State :=
  let u := undoOf s i o
  let o := { o with undo := some u }
  match o.state with
  | .unplaced =>
    if farAhead s m then some (handOrderInd o.room (joinDeferred i (setOrder i ((o.redelivered m).unplacedAs .deferred) s)))
    else some (setOrder i (o.redelivered m) s)
  | .deferred =>
    if farAhead s m then some (joinDeferred i (setOrder i (o.redelivered m) s))
    else
      match placement s o.room o.kreq o.fallback o.units m with
      | .ok pl => some (handOrderInd o.room (leaveDeferred i (writePlaced i (o.redelivered m) pl s)))
      | .error _ => none
  | .placed =>
    let s := withdrawLoads o.kitchen o.contribs s
    if farAhead s m then some (handOrderInd o.room (joinDeferred i (setOrder i ((o.redelivered m).unplacedAs .deferred) s)))
    else
      match placement s o.room o.kreq o.fallback o.units m with
      | .ok pl => some (writePlaced i (o.redelivered m) pl s)
      | .error _ => none
  | .committed | .due => none

/-- MOVE taken by the planner (R156). -/
def moveWork (a : MoveArg) (s : State) : State :=
  let answered (f : Option Code) (s : State) : State := handBook (.moveAnswer a.serial a.id a.order f) s
  match resolveOrder a.order s with
  | none => answered none s
  | some o =>
    if o.booking ≠ some a.id then answered none s
    else
      let m := deliveryOf a.start o.offset
      if ((a.stop * 5 : Nat) : Int) ≤ m then answered (some .badParam) s
      else if o.state = .committed ∨ o.state = .due then answered (some .cateringCommitted) s
      else
        match rePlace a.order.index o m s with
        | some s => answered none s
        | none => answered (some .kitchenFull) s

/-- The serial number of a message that is a move (log 59). -/
def BookMsg.moveSerial : BookMsg → Option Nat
  | .move n .. => some n
  | _ => none

/-- The serial number of the move that a message answers (log 59). -/
def PlanMsg.moveSerial : PlanMsg → Option Nat
  | .moveAnswer n .. => some n
  | _ => none

/-- The order of a *moved* answer. -/
def PlanMsg.movedOrder : PlanMsg → Option OrderId
  | .moveAnswer _ _ o none => some o
  | _ => none

/-- Whether the path holds a *moved* answer for an order to a move that the book has already completed: one still to be discarded and
its order restored (R160; log 28). -/
def State.moveUnsettled (s : State) (o : OrderId) : Bool :=
  s.wires.toBook.any (fun m => m.movedOrder = some o && !m.moveSerial.any s.moveOpen)

/-- MOVE (R156). The room and the attendee count of the move enter no decision of the planner. The planner takes no move of an order whose
earlier *moved* answer is still to be discarded, so MOVE_UNDO stands for that answer until then (R160; log 28). -/
def execMove (s : State) : Outcome State Fault Refusal :=
  .next (takeBookMsg
    (fun | .move n i o _ st en _ => if s.moveUnsettled o then none else some (MoveArg.mk n i o st en) | _ => none) moveWork s)

/-- The restored order brought up to the current bucket (R160): `cs` are the contributions of MOVE_UNDO, passed ones included. -/
def bringUp (i : OrderIx) (cs : List (Nat × Nat)) (s : State) : State :=
  let c := s.kplBucket
  let s := if (s.orderRec i).state = .placed && cs.any (fun x => x.1 ≤ c) then commit i s else s
  dispatchOn c i s

/-- The order of a discarded *moved* answer restored from MOVE_UNDO; nothing for one that holds none (R160). -/
def restoreOrder (id : OrderId) (s : State) : State :=
  match resolveOrder id s with
  | none => s
  | some o =>
    match o.undo with
    | none => s
    | some u =>
      let i := id.index
      let kept := u.contribs.filter (fun x => s.kplBucket ≤ x.1)
      let s := withdrawLoads o.kitchen o.contribs s
      let s := leaveDeferred i (addLoads u.kitchen kept s)
      let o :=
        { o with state := u.state, kitchen := u.kitchen, delivery := u.delivery, deliveryBucket := u.deliveryBucket,
                 departure := u.departure, contribs := kept, undo := none }
      let s := setOrder i o s
      let s := if u.deferred then joinDeferred i s else s
      handOrderInd o.room (bringUp i u.contribs s)

/-- Whether the move with this serial number is one of those a stop ends: the book has completed it, or has still to take the stop at
which it does (R160, 03 R68). A move that the book sent after it took its own stop goes on (log 28). -/
def State.moveEnded (s : State) (n : Nat) : Bool := (s.wires.supply[rbkIx]).contains .stop || !s.moveOpen n

/-- The path's reaction to a stop (R160): the untaken moves that the stop ends and the untaken answers to such moves are discarded, and
the planner restores the orders of the *moved* ones. The manual gives no order for several restored orders; they are restored in the
order of the lane, which is the model's choice (log 54). -/
def pathStop (s : State) : State :=
  let moved := (s.wires.toBook.filter (fun m => m.moveSerial.any s.moveEnded)).filterMap PlanMsg.movedOrder
  let s := s.setWires
    { s.wires with
      toPlanner := s.wires.toPlanner.filter (fun m => !m.moveSerial.any s.moveEnded)
      toBook := s.wires.toBook.filter (fun m => !m.moveSerial.any s.moveEnded) }
  moved.foldl (fun s o => restoreOrder o s) s

/-- PATH_STOP (R160). -/
def execPathStop (s : State) : Outcome State Fault Refusal :=
  .next (takeSupply pathIx (fun | .stop => some () | _ => none) (fun _ s => pathStop s) s)

/-- MOVE_ANSWER taken by the book (R49): the answer of serial number `n` completes the move of that number and no other. An answer whose
move the book has completed at a stop is discarded, and a *moved* one restored (R68, R160; log 28). The answer to a move that was in flight
when the book emptied for a RESYNC is only discarded, and the path tells the planner that a *moved* one was taken (03 R67; log 59). -/
def moveAnswerWork (n : Nat) (order : OrderId) (failure : Option Code) (s : State) : State :=
  if s.moveOpen n then moveAnswered n order failure s
  else if failure.isSome then s
  else if n < s.book.emptied then s.setWires { s.wires with taken := s.wires.taken ++ [order] }
  else restoreOrder order s

/-- MOVE_ANSWER (R49). -/
def execMoveAnswer (s : State) : Outcome State Fault Refusal :=
  .next (takePlan (fun | .moveAnswer n _ o f => some (n, o, f) | _ => none) (fun a s => moveAnswerWork a.1 a.2.1 a.2.2 s) s)

/-- MOVE_ANSWER_TAKEN's work: MOVE_UNDO becomes absent, unless a later *moved* answer for the order is still on the path (R160;
log 27). -/
def answerTaken (id : OrderId) (s : State) : State :=
  match resolveOrder id s with
  | some o => if s.wires.toBook.any (fun m => m.movedOrder = some id) then s else setOrder id.index { o with undo := none } s
  | none => s

/-- MOVE_ANSWER_TAKEN (R160). -/
def execMoveAnswerTaken (s : State) : Outcome State Fault Refusal :=
  .next (match s.wires.taken with
    | o :: os => answerTaken o (s.setWires { s.wires with taken := os })
    | [] => s)

/-! ## Booking left, drop order, reseat (R148, R154, R155) -/

/-- The order of a handle that names the booking (R154, R155). -/
def orderFor (id : BookingId) (o : OrderId) (s : State) : Option OrderRec :=
  (resolveOrder o s).filter (fun r => r.booking = some id)

/-- BOOKING_LEFT taken by the planner (R154). ORDER_ORPHANED is made once BOOKING is absent and names no booking (log 58). -/
def bookingLeftWork (a : BookingId × OrderId) (s : State) : State :=
  match orderFor a.1 a.2 s with
  | none => handBook (.notFound a.1 a.2) s
  | some o =>
    match o.state with
    | .deferred | .placed | .unplaced => freeOrderWith a.2.index .orderCancelled 1 none s
    | .committed | .due =>
      let o := { o with booking := none, orphaned := true }
      handOrderInd o.room (orderNotice .orderOrphaned a.2.index o (kitchenDetail o) none (setOrder a.2.index o s))

/-- BOOKING_LEFT (R154). -/
def execBookingLeft (s : State) : Outcome State Fault Refusal :=
  .next (takeBookMsg (fun | .bookingLeft i o => some (i, o) | _ => none) bookingLeftWork s)

/-- DROP_ORDER taken by the planner (R148). -/
def dropOrderWork (id : OrderId) (s : State) : State :=
  match resolveOrder id s with
  | some _ => freeOrderWith id.index .orderCancelled 2 none s
  | none => s

/-- DROP_ORDER (R148). -/
def execDropOrder (s : State) : Outcome State Fault Refusal :=
  .next (takeBookMsg (fun | .dropOrder _ o => some o | _ => none) dropOrderWork s)

/-- RESEAT taken by the planner (R155). -/
def reseatWork (a : BookingId × OrderId × Room) (s : State) : State :=
  match orderFor a.1 a.2.1 s with
  | none => handBook (.notFound a.1 a.2.1) s
  | some o =>
    let former := o.room
    let o := { o with room := a.2.2, redirected := true }
    let s := orderNotice .orderRedirected a.2.1.index o former.val none (setOrder a.2.1.index o s)
    handBook (.reseatDone a.1 a.2.1) (handOrderInd o.room s)

/-- RESEAT (R155). -/
def execReseat (s : State) : Outcome State Fault Refusal :=
  .next (takeBookMsg (fun | .reseat i o r => some (i, o, r) | _ => none) reseatWork s)

end Sys2Proof.Machine
end

