-- ==== Sys2Proof/Machine/Ports.lean ====
section
/-! DEFINITION. The agent ports (09): transactions, owners' answers, queue lengths, stop and restart. -/

namespace Sys2Proof.Machine

open Host

/-- What a transaction clocks out (log 41). -/
def clockOut (p : Port) (octets : List Byte) (s : State) : State := s.setPort p { s.ports[p] with dataOut := octets }

/-- STATUS_TRANSACTION (R177): the status word, and nothing changes. A STOPPED port takes no transaction (R185). -/
def execStatusTransaction (p : Port) (_code : Byte) (s : State) : Outcome State Fault Refusal :=
  .next (if (s.ports[p]).isOpen then clockOut p (statusWord s.ports[p]) s else s)

/-- The port answers a frame itself: READY at once, with a code and no payload (R178). -/
def answerItself (p : Port) (tag : Byte) (code : Code) (s : State) : State :=
  s.setPort p { s.ports[p] with state := .ready, response := some ⟨tag, code, []⟩ }

/-- A frame that passes every check is handed to its owner: REQNO advances and PORT_STATE becomes PENDING (R178). -/
def handRequest (p : Port) (tag : Byte) (req : Request) (s : State) : State :=
  let r := s.ports[p]
  let n := r.reqno + 1
  let s := s.setPort p { r with state := .pending, reqno := n, tag := tag }
  s.setWires { s.wires with requests := modAt s.wires.requests p (· ++ [⟨req, n, r.role, false⟩]) }

/-- A frame judged at select release in IDLE (R178, R184). -/
def judgeFrame (p : Port) (octets : List Byte) (s : State) : State :=
  let tag := frameTag octets
  match readFrame octets with
  | none => answerItself p tag .badFrame s
  | some req =>
    if !req.permitted (s.ports[p]).role then answerItself p tag .denied s
    else if req.badLines then answerItself p tag .badParam s
    else handRequest p tag req s

/-- REQUEST_TRANSACTION (R178, R179). -/
def execRequestTransaction (p : Port) (octets : List Byte) (s : State) : Outcome State Fault Refusal :=
  .next (let r := s.ports[p]
    if r.isOpen then
      let s := clockOut p (statusWord r) s
      match r.state with
      | .idle => if octets.isEmpty then s else judgeFrame p octets s
      | .pending | .ready => s.setPort p { s.ports[p] with dropped := true }
    else s)

/-- The first `n` octets of a list, filled up with 0x00 (11 R196). -/
def fillTo (n : Nat) (octets : List Byte) : List Byte := octets.take n ++ List.replicate (n - octets.length) 0#8

/-- RESPONSE_TRANSACTION (R181): `clocked` octets are clocked out after the status word. -/
def execResponseTransaction (p : Port) (clocked : Nat) (s : State) : Outcome State Fault Refusal :=
  .next (let r := s.ports[p]
    if r.isOpen then
      match r.state, r.response with
      | .ready, some x =>
        let octets := eResponse x r.dropped
        let s := clockOut p (statusWord r ++ fillTo clocked octets) s
        if octets.length ≤ clocked then
          s.setPort p { s.ports[p] with state := .idle, response := none, dropped := false }
        else s
      | _, _ => clockOut p (statusWord r ++ fillTo clocked []) s
    else s)

/-- OWNER_ANSWER (R180): the port takes the first answer on its way to it. -/
def execOwnerAnswer (p : Port) (s : State) : Outcome State Fault Refusal :=
  .next (match s.wires.answers[p] with
    | a :: rest =>
      let s := s.setWires { s.wires with answers := put s.wires.answers p rest }
      let r := s.ports[p]
      if r.isOpen && r.state = .pending && a.reqno = r.reqno then
        s.setPort p { r with state := .ready, response := some ⟨r.tag, a.code, a.payload⟩ }
      else s
    | [] => s)

/-- QUEUE_LENGTH_REPORT (R182). -/
def execQueueLengthReport (p : Port) (s : State) : Outcome State Fault Refusal :=
  .next (match s.wires.qlens[p] with
    | n :: rest =>
      let s := s.setWires { s.wires with qlens := put s.wires.qlens p rest }
      s.setPort p { s.ports[p] with qlen := n }
    | [] => s)

/-- The requests of a port that its stop leaves with their owners: those the book is still to withdraw at its own stop (03 R68). Any
other that its owner has not taken never reaches it (07 R158; log 31). -/
def leftAtStop (s : State) (hs : List HandedRequest) : List HandedRequest :=
  (hs.filter (fun h => h.req.isBook && (s.wires.supply[rbkIx]).contains .stop)).map (fun h => { h with stopped := true })

/-- A port told to stop: LINK STOPPED, a pending request abandoned, a response lost (R185). PORT_STATE and REQNO stand until the warm
start (log 49). -/
def portStop (p : Port) (s : State) : State :=
  let s := s.setPort p { s.ports[p] with link := .stopped, response := none }
  s.setWires { s.wires with requests := modAt s.wires.requests p (leftAtStop s) }

/-- PORT_STOP (R185); a stop taken by a port already STOPPED changes nothing there (10 R192). -/
def execPortStop (p : Port) (s : State) : Outcome State Fault Refusal :=
  .next (takeSupply (portIx p) (fun | .stop => some () | _ => none)
    (fun _ s => if (s.ports[p]).isOpen then portStop p s else s) s)

/-- QLEN once the port has taken every length that NRT has reported to it: the last of them (08 R170). -/
def lastQlen (p : Port) (s : State) : Nat := (s.wires.qlens[p]).getLast?.getD (s.ports[p]).qlen

/-- The link opens at the end of a warm start (R186). The lengths reported before, that of the emptied queue among them, are taken first:
QLEN stands at 0 as the link opens unless notices have joined since (log 64). -/
def portOpen (p : Port) (s : State) : State :=
  let s := s.setPort p
    { s.ports[p] with state := .idle, response := none, dropped := false, link := .open, qlen := lastQlen p s }
  s.setWires { s.wires with qlens := put s.wires.qlens p [] }

/-- PORT_WARM_START_COMPLETE (R186). -/
def execPortWarmStartComplete (p : Port) (s : State) : Outcome State Fault Refusal :=
  .next (takeSupply (portIx p) (fun | .complete => some () | _ => none) (fun _ s => portOpen p s) s)

end Sys2Proof.Machine
end

