-- ==== Sys2Proof/Machine/Power.lean ====
section
/-! DEFINITION. The Power Controller (10): supply states, the quiet schedule, power failure and the warm start. -/

namespace Sys2Proof.Machine

open Host

/-! ## Handing on -/

/-- The line units and OCU, which take the supply-state indication (R188). -/
def stateTakers : List (Fin 12) := (List.finRange 4).map lineIx ++ [ocuIx]

/-- The receivers of the warm-start indication (R193). -/
def warmTakers : List (Fin 12) := (List.finRange 4).map lineIx ++ [ocuIx, nrtIx]

/-- The receivers of the stop indication (R192). -/
def stopTakers : List (Fin 12) := (List.finRange 4).map portIx ++ [rbkIx, ocuIx, pathIx]

/-- The SUPPLY notice: the state entered and the cause (R188). -/
def supplyNotice (x : SState) (c : Cause) (port : Option Port) (s : State) : State :=
  handNotice .pwc
    { note := { kind := .supply, date := s.now .pwc, booking := none, order := none, room := none, panel := none,
                detail := detail2 x.toNat c.toNat },
      dated := true, owner := none, cause := port } s

/-- A change of SSTATE recorded and indicated, without its notice (R188). -/
def enterState (x : SState) (c : Cause) (s : State) : State :=
  handSupplyTo stateTakers (.state x)
    (s.setPwc { s.pwc with sstate := x, lastCause := some c, lastChange := some (s.now .pwc) })

/-- A change of SSTATE (R188). -/
def changeState (x : SState) (c : Cause) (port : Option Port) (s : State) : State := supplyNotice x c port (enterState x c s)

/-! ## The quiet schedule (R191) -/

/-- PWC's work on a minute tick (R191). -/
def pwcTick (c : Clock) (s : State) : State :=
  if s.pwc.phase = .open && s.pwc.auto then
    if c.minute = s.pwc.qStart && s.pwc.sstate = .run then changeState .quiet .scheduleStart none s
    else if c.minute = s.pwc.qEnd && s.pwc.sstate = .quiet then changeState .run .scheduleEnd none s
    else s
  else s

/-- Whether a tick is one the schedule compares with a minute. -/
def scheduled (s : State) (minute : Nat) (c : Clock) : Bool := s.pwc.phase = .open && s.pwc.auto && c.minute = minute

/-- QUIET_START (R191): PWC takes a tick that is not the one of Q_END (log 8). -/
def execQuietStart (s : State) : Outcome State Fault Refusal :=
  .next (takeTick .pwc (fun c => !scheduled s s.pwc.qEnd c) pwcTick s)

/-- QUIET_END (R191): PWC takes a tick that is not the one of Q_START (log 8). -/
def execQuietEnd (s : State) : Outcome State Fault Refusal :=
  .next (takeTick .pwc (fun c => !scheduled s s.pwc.qStart c) pwcTick s)

/-! ## Requests (R189, R190, R194) -/

/-- SET_POWER's target as carried: 0 RUN, 1 QUIET (R189). -/
def powerTarget : Nat → Option SState
  | 0 => some .run
  | 1 => some .quiet
  | _ => none

/-- An answer that waits until the line units and OCU have taken what stands in their lists (R189). -/
def waitSupply (q : Asker) (s : State) : State :=
  let left : Vector Nat 5 := tabulate (fun i => (s.wires.supply[i.castLE (by omega : 5 ≤ 12)]).length)
  s.setPwc { s.pwc with waits := s.pwc.waits ++ [{ port := q.port, reqno := q.reqno, left := left }] }

/-- SET_POWER taken by PWC (R189). -/
def setPowerWork (q : Asker) (target : Nat) (s : State) : State :=
  match powerTarget target with
  | none => reply q .badParam [] s
  | some x =>
    if x = s.pwc.sstate then reply q .ok [] s else waitSupply q (changeState x .request (some q.port) s)

/-- SET_POWER (R189). While PHASE is not OPEN a request left untaken waits (log 31). -/
def execSetPower (p : Port) (s : State) : Outcome State Fault Refusal :=
  .next (if s.pwc.phase = .open then onRequest p (fun | .setPower t => some t | _ => none) setPowerWork s else s)

/-- SET_QUIET taken by PWC (R190). The octet 1 of AUTO is *on*, 0 *off*: the model's choice (log 57). -/
def setQuietWork (q : Asker) (a : Nat × Nat × Nat) (s : State) : State :=
  if 1439 < a.1 || 1439 < a.2.1 || 1 < a.2.2 || a.1 = a.2.1 then reply q .badParam [] s
  else
    reply q .ok (e2 a.1 ++ e2 a.2.1 ++ e1 a.2.2)
      (s.setPwc { s.pwc with qStart := a.1, qEnd := a.2.1, auto := a.2.2 = 1 })

/-- SET_QUIET (R190). It is carried out in every PHASE: the model's choice (log 31). -/
def execSetQuiet (p : Port) (s : State) : Outcome State Fault Refusal :=
  .next (onRequest p (fun | .setQuiet x y z => some (x, y, z) | _ => none) setQuietWork s)

/-- QUERY_POWER taken by PWC (R194). -/
def queryPowerWork (q : Asker) (_ : Unit) (s : State) : State :=
  let p := s.pwc
  reply q .ok
    (e1 p.sstate.toNat ++ e2 p.qStart ++ e2 p.qEnd ++ eFlag p.auto ++ eOpt (fun c => e1 c.toNat) p.lastCause ++
      eOpt eClock p.lastChange) s

/-- QUERY_POWER (R194). It is carried out in every PHASE: the model's choice (log 31). -/
def execQueryPower (p : Port) (s : State) : Outcome State Fault Refusal :=
  .next (onRequest p (fun | .queryPower => some () | _ => none) queryPowerWork s)

/-! ## Power failure and the warm start (R192, R193) -/

/-- The stop indication (R192). -/
def handStop (s : State) : State := handSupplyTo stopTakers .stop s

/-- What a power-fail assertion does while PHASE is OPEN or STARTING (R192). -/
def powerFailWork (s : State) : State :=
  let s := if s.pwc.sstate = .retain then s else changeState .retain .powerFail none s
  handStop (s.setPwc { s.pwc with phase := .stopped, startCause := none, powerFail := true })

/-- POWER_FAIL_ASSERT (R192). -/
def execPowerFailAssert (s : State) : Outcome State Fault Refusal :=
  .next (if s.pwc.phase = .stopped then s else powerFailWork s)

/-- The notices that wait for NRT as a warm start begins: it takes them before its emptying (08 R175; log 60). -/
def markNotices (s : State) : State := s.setWires { s.wires with noticesBefore := mapV List.length s.wires.notices }

/-- A warm start begins (R193, step 1). -/
def beginWarmStart (c : StartCause) (s : State) : State :=
  handSupplyTo warmTakers .warmStart (markNotices (s.setPwc { s.pwc with phase := .starting, startCause := some c }))

/-- POWER_FAIL_RELEASE (R193). -/
def execPowerFailRelease (s : State) : Outcome State Fault Refusal :=
  .next (if s.pwc.phase = .stopped then beginWarmStart .powerReturn (s.setPwc { s.pwc with powerFail := false }) else s)

/-- WARM_RESET (R193); ignored while PHASE is STOPPED or STARTING. -/
def execWarmReset (s : State) : Outcome State Fault Refusal :=
  .next (if s.pwc.phase = .open then beginWarmStart .warmReset (handStop s) else s)

/-- The cause a warm start is recorded under. -/
def StartCause.cause : StartCause → Cause
  | .powerReturn => .powerReturn
  | .warmReset => .warmReset

/-- Whether the six receivers have taken the warm-start indication (R193, step 2). -/
def warmTaken (s : State) : Bool := warmTakers.all (fun i => !(s.wires.supply[i]).contains .warmStart)

/-- The end of a warm start (R193, steps 2 to 4). -/
def completeWarmStart (c : StartCause) (s : State) : State :=
  let s := if s.pwc.sstate = .run then s else enterState .run c.cause s
  let s := s.setPwc
    { s.pwc with
      sstate := .run, lastCause := some c.cause, lastChange := some (s.now .pwc), phase := .open, startCause := none }
  supplyNotice .run c.cause none (handSupplyTo ((List.finRange 4).map portIx) .complete s)

/-- WARM_START_COMPLETE (R193). -/
def execWarmStartComplete (s : State) : Outcome State Fault Refusal :=
  .next (match s.pwc.phase, s.pwc.startCause with
    | .starting, some c => if warmTaken s then completeWarmStart c s else s
    | _, _ => s)

/-- POWER_ON_RESET (R187): every block takes its power-on values and the ports their straps; with power-fail asserted the part comes up
in RETAIN. The commands that wait are the model's and stand. -/
def execPowerOnReset (s0 s1 s2 s3 : BitVec 2) (powerFail : Bool) (s : State) : Outcome State Fault Refusal :=
  .next (
    let t := { State.powerOn #v[Role.ofStraps s0, Role.ofStraps s1, Role.ofStraps s2, Role.ofStraps s3] with pending := s.pending }
    if powerFail then powerFailWork t else t)

end Sys2Proof.Machine
end

