-- ==== Sys2Proof/Machine/Rooms.lean ====
section
/-! DEFINITION. The Occupancy Unit (06): confirmed presence, the book request queue, ghost counting, feedback and the room display. -/

namespace Sys2Proof.Machine

open Host

/-- OCU's current slot. -/
def State.ocuSlot (s : State) : Nat := (s.now .ocu).slot

/-! ## Composing a display record (R125, R126) -/

/-- The entry whose span contains a slot; claim entries are not read (R125). -/
def entryNow (s : State) (r : Room) (slot : Nat) : Option Entry :=
  (s.schedule r).find? (fun e => e.summary != .claim && e.start ≤ slot && slot < e.stop)

/-- The earliest entry that starts after a slot (R125). -/
def nextEntry (s : State) (r : Room) (slot : Nat) : Option Entry :=
  (s.schedule r).find? (fun e => e.summary != .claim && slot < e.start)

/-- The body behind an entry. -/
def entryBody (s : State) (e : Entry) : Body := (s.book.records[e.index]).body

/-- What the table of R125 gives: ROOM_STATE, the subject, UNTIL and NEXT, the last two as slots. -/
structure Shown where
  roomState : RoomState
  subject : Option Entry
  till : Option Nat
  next : Option Nat
  deriving DecidableEq, Repr

/-- The rows of R125 for the entry now. -/
def shownNow (s : State) (e : Entry) : Option Shown :=
  match e.summary with
  | .damaged => some ⟨.checkConsole, some e, some e.stop, none⟩
  | .block => some ⟨.outOfService, some e, some e.stop, none⟩
  | .active => some ⟨.inUse, some e, some e.stop, none⟩
  | .confirmed =>
    if (entryBody s e).earlyIn then some ⟨.inUse, some e, some e.stop, none⟩
    else some ⟨.checkinOpen, some e, some e.stop, some e.start⟩
  | .held => some ⟨.heldNext, some e, some e.stop, some e.start⟩
  | .claim => none

/-- The rows of R125 for the next entry inside the look-ahead; `early` is E of the room's zone. -/
def shownNext (s : State) (slot early : Nat) (e : Entry) : Option Shown :=
  if e.start < slot + 12 then
    match e.summary with
    | .confirmed =>
      if (entryBody s e).earlyIn then some ⟨.inUse, some e, some e.stop, some e.start⟩
      else if e.start ≤ slot + early then some ⟨.checkinOpen, some e, some e.start, some e.start⟩
      else some ⟨.bookedNext, some e, some e.start, some e.start⟩
    | .held => some ⟨.heldNext, some e, some e.start, some e.start⟩
    | _ => none
  else none

/-- The last two rows of R125. -/
def shownFree (tomorrow : Nat) : Option Entry → Shown
  | some e => if e.start < tomorrow then ⟨.freeUntil, none, some e.start, none⟩ else ⟨.free, none, none, none⟩
  | none => ⟨.free, none, none, none⟩

/-- The first row of the table of R125 that applies to a room. -/
def shown (s : State) (r : Room) : Shown :=
  let slot := s.ocuSlot
  let nxt := nextEntry s r slot
  if !s.clockSet .ocu || (s.roomRec r).cap = 0 then ⟨.notAvailable, none, none, none⟩
  else
    match (entryNow s r slot).bind (shownNow s) with
    | some x => x
    | none =>
      match nxt.bind (shownNext s slot (s.attrOf r).e) with
      | some x => x
      | none => shownFree (((s.now .ocu).day + 1) * 288) nxt

/-- CATERING of an order's state and LATE flag (R126). -/
def orderCatering (o : OrderRec) : Catering :=
  if o.late then .late
  else
    match o.state with
    | .due => .onWay
    | .committed => .preparing
    | .deferred | .placed | .unplaced => .none

/-- CATERING of a subject (R126). An order the planner no longer holds shows NONE (log 32). -/
def catering (s : State) (subject : Option Entry) : Catering :=
  match subject with
  | none => .none
  | some e =>
    if e.summary != .damaged && (entryBody s e).cateringDelivered then .delivered
    else
      match (s.book.records[e.index]).order.bind (fun o => resolveOrder o s) with
      | some o => orderCatering o
      | none => .none

/-- A room's display record, composed from what stands now (R125, R126). -/
def compose (s : State) (r : Room) : DisplayRec :=
  let x := shown s r
  { roomState := x.roomState
    label := (s.roomRec r).label
    meeting := x.subject.bind (fun e => if e.summary = .damaged then none else (entryBody s e).display)
    till := x.till.map (· * 5)
    next := x.next.map (· * 5)
    catering := catering s x.subject
    dim := s.pwc.sstate = .quiet
    feedback := (s.ocu.feedback[r]).map Prod.fst }

/-- The book reads, with its check, the body of the entry now, or of the next entry that the table looks at (R125, R62). -/
def readForDisplay (r : Room) (s : State) : State :=
  if !s.clockSet .ocu || (s.roomRec r).cap = 0 then s
  else
    match entryNow s r s.ocuSlot with
    | some e => scrubOne e.index s
    | none =>
      match nextEntry s r s.ocuSlot with
      | some e => if e.start < s.ocuSlot + 12 && (e.summary = .confirmed || e.summary = .held) then scrubOne e.index s else s
      | none => s

/-- LAST_DISPLAY replaced. -/
def setLastDisplay (r : Room) (d : Option DisplayRec) (s : State) : State :=
  s.setOcu { s.ocu with lastDisplay := put s.ocu.lastDisplay r d }

/-- A record handed to the room's panel, LAST_DISPLAY taking it (R127, R130). -/
def handDisplay (r : Room) (p : PanelAddr) (d : DisplayRec) (s : State) : State :=
  setLastDisplay r (some d) (handLine p.line p.addr (.display d) s)

/-- A room recomposed (R127). -/
def recompose (r : Room) (s : State) : State :=
  let s := readForDisplay r s
  match (s.roomRec r).panel with
  | some p => if s.ocu.lastDisplay[r] = some (compose s r) then s else handDisplay r p (compose s r) s
  | none => s

/-- Every room recomposed (R128): at a slot boundary, a change of supply state, a time-set and the expiry indication. The rooms are taken by
ascending index: the manual states no order, and this one is the model's choice (log 54). -/
def recomposeAll (s : State) : State := (List.finRange 128).foldl (fun s r => recompose r s) s

/-! ## Feedback (R116) -/

/-- A room's feedback set, for one full slot, and the room recomposed (R116, R128). -/
def setFeedback (r : Room) (f : Feedback) (s : State) : State :=
  recompose r (s.setOcu { s.ocu with feedback := put s.ocu.feedback r (some (f, s.ocuSlot + 2)) })

/-- A room's feedback made absent. -/
def clearFeedback (r : Room) (s : State) : State := s.setOcu { s.ocu with feedback := put s.ocu.feedback r none }

/-- Whether a feedback's expiry is at or before a slot. -/
def feedbackOver (slot : Nat) (f : Option (Feedback × Nat)) : Bool := f.any (fun x => x.2 ≤ slot)

/-! ## The book request queue (R111) -/

/-- While PRESENTED is absent, the head item becomes PRESENTED (R111). -/
def presentNext (s : State) : State :=
  match s.ocu.presented, s.ocu.queue with
  | none, it :: rest => s.setOcu { s.ocu with presented := some it, queue := rest }
  | _, _ => s

/-- Every item queued or presented. -/
def allItems (s : State) : List Item := s.ocu.presented.toList ++ s.ocu.queue

/-- A PRESENCE or GHOST item joins unless one of its kind for the room is queued or presented (R111). -/
def joinOnce (it : Item) (s : State) : State :=
  if (allItems s).any (fun x => x.origin = it.origin && x.room = it.room) then s
  else presentNext (s.setOcu { s.ocu with queue := s.ocu.queue ++ [it] })

/-- Whether an item is a PANEL item of a line and address. -/
def Item.fromPanel (it : Item) (l : Line) (a : Addr) : Bool := it.source.any (fun x => x.line = l && x.addr = a)

/-- The verdict for the sequence of an item's SOURCE. -/
def verdictFor (it : Item) (taken : Bool) (s : State) : State :=
  match it.source with
  | some x => handLine x.line x.addr (.verdict x.seq taken) s
  | none => s

/-- A PANEL item of a line and address joins: not while one is PRESENTED, and in place of an unpresented one (R111). -/
def joinPanel (it : Item) (l : Line) (a : Addr) (s : State) : State :=
  if s.ocu.presented.any (fun x => x.fromPanel l a) then verdictFor it false s
  else
    let old := s.ocu.queue.filter (fun x => x.fromPanel l a)
    let s := s.setOcu { s.ocu with queue := s.ocu.queue.filter (fun x => !x.fromPanel l a) }
    let s := old.foldl (fun s x => verdictFor x false s) s
    presentNext (s.setOcu { s.ocu with queue := s.ocu.queue ++ [it] })

/-- An item that no panel event made. -/
def plainItem (o : Origin) (r : Room) (q : OcuRequest) : Item :=
  { origin := o, room := r, request := q, badge := none, slots := none, source := none }

/-! ## Presence (R108, R118, R121) -/

/-- The presence check-in test of a room (R118). -/
def presenceTest (s : State) (r : Room) : Bool :=
  let a := s.attrOf r
  s.clockSet .ocu && a.presenceCheckin && !a.badgeOnly &&
    (s.schedule r).any (fun e =>
      e.summary = .confirmed && !(entryBody s e).earlyIn && e.start ≤ s.ocuSlot && s.ocuSlot < e.start + a.g)

/-- The bodies whose EARLY_IN a test looks at are read with their check (R118, 03 R62). -/
def readForPresence (r : Room) (s : State) : State :=
  let a := s.attrOf r
  if s.clockSet .ocu && a.presenceCheckin && !a.badgeOnly then
    readAll
      (((s.schedule r).filter (fun e => e.summary = .confirmed && e.start ≤ s.ocuSlot && s.ocuSlot < e.start + a.g)).map Entry.index) s
  else s

/-- A test that succeeds queues a PRESENCE item (R118). -/
def testPresence (r : Room) (s : State) : State :=
  let s := readForPresence r s
  if presenceTest s r then joinOnce (plainItem .presence r .panelCheckin) s else s

/-- An unpresented GHOST item of a room whose people are back leaves the queue, and the count restarts (R121). -/
def withdrawGhost (r : Room) (s : State) : State :=
  if s.ocu.queue.any (fun x => x.origin = .ghost && x.room = r) then
    s.setOcu
      { s.ocu with
        queue := s.ocu.queue.filter (fun x => !(x.origin = .ghost && x.room = r))
        ghostCount := put s.ocu.ghostCount r 0 }
  else s

/-- PRESENCE of a room replaced. -/
def setPresence (r : Room) (x : Presence) (s : State) : State := s.setOcu { s.ocu with presence := put s.ocu.presence r x }

/-- The presence two equal readings name (R108). -/
def Raw.presence : Raw → Presence
  | .vacant => .vacant
  | .occupied => .occupied
  | .fault => .unknown

/-- A presence report taken (R108). A report of an earlier era was handed before its line stopped, or restarted, at an indication that OCU
has taken: it is taken without effect, since from there every room stays UNKNOWN until its panel is polled again (R110; log 62). -/
def presenceReport (era : Nat) (r : Room) (last : Raw) (prev : Option Raw) (s : State) : State :=
  if s.ocu.era ≤ era ∧ prev = some last then
    let was := s.ocu.presence[r]
    let s := setPresence r last.presence s
    if last = .occupied && was != .occupied then testPresence r (withdrawGhost r s) else s
  else s

/-- OCU takes a line's first message for an address, when `sel` selects it. -/
def takeFromLine {α : Type} (l : Line) (a : Addr) (sel : LineMsg → Option α) (work : α → State → State) (s : State) : State :=
  match takeAddr a s.wires.fromLine[l] with
  | some (m, rest) =>
    match sel m with
    | some x => work x (s.setWires { s.wires with fromLine := put s.wires.fromLine l rest })
    | none => s
  | none => s

/-- PRESENCE_REPORT (R108). -/
def execPresenceReport (l : Line) (a : Addr) (s : State) : Outcome State Fault Refusal :=
  .next (takeFromLine l a (fun | .presence n r x y => some (n, r, x, y) | _ => none)
    (fun m s => presenceReport m.1 m.2.1 m.2.2.1 m.2.2.2 s) s)

/-- PANEL_DOWN (R109). -/
def execPanelDown (l : Line) (a : Addr) (s : State) : Outcome State Fault Refusal :=
  .next (takeFromLine l a (fun | .down r => some r | _ => none) (fun r s => setPresence r .unknown s) s)

/-- PANEL_UP (R109): taken, and no presence changes. -/
def execPanelUp (l : Line) (a : Addr) (s : State) : Outcome State Fault Refusal :=
  .next (takeFromLine l a (fun | .up r => some r | _ => none) (fun _ s => s) s)

/-! ## Events from the panels (R113, R114) -/

/-- The request of an event, with badge and slots (R113); nothing for REPORT_ISSUE. -/
def EvKind.request : EvKind → Option (OcuRequest × Option Nat × Option Nat)
  | .checkIn => some (.panelCheckin, none, none)
  | .badge n => some (.panelCheckin, some n, none)
  | .endNow => some (.endNow, none, none)
  | .extend15 => some (.extend, none, some 3)
  | .extend30 => some (.extend, none, some 6)
  | .bookNow b => some (.walkup, b, none)
  | .reportIssue _ => none
  | .void => none

/-- The notice ISSUE_REPORT (R114). -/
def issueNotice (r : Room) (l : Line) (a : Addr) (code : Nat) (s : State) : State :=
  handNotice .ocu
    { note := { kind := .issueReport, date := s.now .ocu, booking := none, order := none, room := some r, panel := some ⟨l, a⟩,
                detail := code },
      dated := true, owner := none, cause := none } s

/-- A panel event taken (R113, R114). -/
def panelEvent (l : Line) (a : Addr) (r : Room) (ev : PEvent) (s : State) : State :=
  match ev.kind with
  | .reportIssue code => handLine l a (.verdict ev.seq true) (issueNotice r l a code s)
  | k =>
    if !s.clockSet .ocu then handLine l a (.verdict ev.seq true) (setFeedback r .notAvailable s)
    else
      match k.request with
      | some (q, badge, slots) =>
        joinPanel { origin := .panel, room := r, request := q, badge := badge, slots := slots, source := some ⟨l, a, ev.seq, k⟩ } l a s
      | none => s

/-- PANEL_EVENT (R113). -/
def execPanelEvent (l : Line) (a : Addr) (s : State) : Outcome State Fault Refusal :=
  .next (takeFromLine l a (fun | .event r e => some (r, e) | _ => none) (fun m s => panelEvent l a m.1 m.2 s) s)

/-! ## The book's outcomes (R115, R119, R121) -/

/-- The feedback and the verdict of a PANEL item's outcome; true is TAKEN (R115). -/
def feedbackOf : OcuRequest → BookOutcome → Option (Feedback × Bool)
  | _, .busyRecord => some (.busy, false)
  | .panelCheckin, .checkedInEarly => some (.ok, true)
  | .panelCheckin, .checkedIn => some (.ok, true)
  | .panelCheckin, .verified => some (.ok, true)
  | .panelCheckin, .already => some (.ok, true)
  | .panelCheckin, .tooLate => some (.tooLate, true)
  | .panelCheckin, .nothing => some (.nothingToCheckIn, true)
  | .panelCheckin, .notOrganiser => some (.notOrganiser, true)
  | .endNow, .done _ => some (.ok, true)
  | .endNow, .nothing => some (.notAvailable, true)
  | .extend, .done _ => some (.ok, true)
  | .extend, .noGain => some (.cannotExtend, true)
  | .extend, .nothing => some (.cannotExtend, true)
  | .walkup, .done _ => some (.ok, true)
  | .walkup, .noGain => some (.notAvailable, true)
  | .walkup, .denied => some (.notAvailable, true)
  | .walkup, .noRoom => some (.notAvailable, true)
  | .walkup, .bookFull => some (.notAvailable, true)
  | _, _ => none

/-- What an outcome does, by the item's ORIGIN (R115, R119, R121). -/
def itemAnswered (it : Item) (o : BookOutcome) (s : State) : State :=
  match it.origin with
  | .panel =>
    match feedbackOf it.request o with
    | some (f, taken) => verdictFor it taken (setFeedback it.room f s)
    | none => verdictFor it true s
  | .presence => s
  | .ghost =>
    s.setOcu { s.ocu with ghostCount := put s.ocu.ghostCount it.room 0, ghostRec := put s.ocu.ghostRec it.room none }

/-- BOOK_OUTCOME (R115). -/
def execBookOutcome (s : State) : Outcome State Fault Refusal :=
  .next (match s.ocu.presented, s.wires.outcome with
    | some it, some o =>
      let s := (s.setWires { s.wires with outcome := none }).setOcu { s.ocu with presented := none }
      presentNext (itemAnswered it o s)
    | _, _ => s)

/-! ## Slot boundaries (R116, R118, R120, R128) -/

/-- The handle of the counted record of a room at slot `slot` (R120). -/
def countedRecord (s : State) (slot : Nat) (r : Room) : Option BookingId :=
  if (s.attrOf r).h = 0 then none
  else
    ((s.schedule r).find? (fun e =>
      e.summary = .active && e.start ≤ slot && slot < e.stop && !(entryBody s e).unverified)).map (fun e => s.handle e.index)

/-- The ghost count of a room after a boundary, from the count before the presence is read (R120). -/
def ghostStep (p : Presence) (n : Nat) : Nat :=
  match p with
  | .vacant => min (n + 1) 12
  | .occupied => 0
  | .unknown => n

/-- The body whose UNVERIFIED decides the counted record is read with its check (R120, 03 R62). -/
def readForGhost (slot : Nat) (r : Room) (s : State) : State :=
  if (s.attrOf r).h = 0 then s
  else
    readAll
      (((s.schedule r).filter (fun e => e.summary = .active && e.start ≤ slot && slot < e.stop)).map Entry.index) s

/-- Ghost counting of one room at a boundary (R120). -/
def ghostCountOne (slot : Nat) (s : State) (r : Room) : State :=
  let s := readForGhost slot r s
  match countedRecord s slot r with
  | none => s.setOcu { s.ocu with ghostCount := put s.ocu.ghostCount r 0, ghostRec := put s.ocu.ghostRec r none }
  | some id =>
    let before := if s.ocu.ghostRec[r] = some id then s.ocu.ghostCount[r] else 0
    let n := ghostStep s.ocu.presence[r] before
    let s := s.setOcu { s.ocu with ghostCount := put s.ocu.ghostCount r n, ghostRec := put s.ocu.ghostRec r (some id) }
    if (s.attrOf r).h ≤ n then joinOnce (plainItem .ghost r .ghostRelease) s else s

/-- OCU's work at a slot boundary (R128). The rooms are taken by ascending index: the model's choice (log 54). -/
def ocuBoundary (slot : Nat) (s : State) : State :=
  let s := s.setOcu { s.ocu with feedback := mapV (fun f => if feedbackOver slot f then none else f) s.ocu.feedback }
  let s := if s.pwc.sstate = .retain then s else (List.finRange 128).foldl (ghostCountOne slot) s
  let s := (ixsWhere (fun p => p = .occupied) s.ocu.presence).foldl (fun s r => testPresence r s) s
  recomposeAll s

/-- OCU's work on a minute tick. -/
def ocuTick (c : Clock) (s : State) : State := if c.isSlotBoundary then ocuBoundary c.slot s else s

/-- OCU_SLOT_BOUNDARY (R128): OCU takes the tick at the head of its list whole (log 8). -/
def execOcuSlotBoundary (s : State) : Outcome State Fault Refusal := .next (takeTick .ocu (fun _ => true) ocuTick s)

/-- FEEDBACK_EXPIRY (R116) of one room, when OCU's copy of the time stands at a slot boundary (log 7). -/
def execFeedbackExpiry (r : Room) (s : State) : Outcome State Fault Refusal :=
  .next (if (s.now .ocu).isSlotBoundary && feedbackOver s.ocuSlot s.ocu.feedback[r] then recompose r (clearFeedback r s) else s)

/-! ## Indications (R128 to R130) -/

/-- SCHEDULE_INDICATION (R128). -/
def execScheduleIndication (s : State) : Outcome State Fault Refusal :=
  .next (match s.wires.sched with
    | r :: rs => recompose r (s.setWires { s.wires with sched := rs })
    | [] => s)

/-- ORDER_INDICATION (R128). -/
def execOrderIndication (s : State) : Outcome State Fault Refusal :=
  .next (match s.wires.orders with
    | r :: rs => recompose r (s.setWires { s.wires with orders := rs })
    | [] => s)

/-- One changed room recomposed under the new tables (R129). -/
def configRoom (sig : ConfigSignal) (s : State) (r : Room) : State :=
  recompose r (if sig.panelChanged.contains r then setLastDisplay r none s else s)

/-- OCU_CONFIG_APPLIED (R129). The changed rooms are recomposed by ascending index: the model's choice (log 54). -/
def execOcuConfigApplied (s : State) : Outcome State Fault Refusal :=
  .next (takeConfig ocuCfg (fun sig s => sig.changed.foldl (configRoom sig) s) s)

/-- A display-loss request taken: the room's record is handed even when it is unchanged (R130). -/
def displayLoss (r : Room) (s : State) : State :=
  let s := readForDisplay r s
  match (s.roomRec r).panel with
  | some p => handDisplay r p (compose s r) s
  | none => s

/-- DISPLAY_LOSS (R130). -/
def execDisplayLoss (l : Line) (a : Addr) (s : State) : Outcome State Fault Refusal :=
  .next (takeFromLine l a (fun | .loss r => some r | _ => none) (fun r s => displayLoss r s) s)

/-! ## Supply states, stop, warm start (R110, R112, R131) -/

/-- Every PRESENCE made UNKNOWN (R110), and the presence reports still on their way from the lines made of an earlier era (log 62). -/
def forgetPresence (s : State) : State :=
  s.setOcu { s.ocu with presence := Vector.replicate 128 .unknown, era := s.ocu.era + 1 }

/-- OCU_SUPPLY_CHANGE (R110, R128). -/
def execOcuSupplyChange (s : State) : Outcome State Fault Refusal :=
  .next (takeSupply ocuIx (fun | .state x => some x | _ => none)
    (fun x s => recomposeAll (if x = .retain then forgetPresence s else s)) s)

/-- OCU's reaction to a stop (R112). The presented item and then QUEUE in its order: the model's choice (log 54). -/
def ocuStop (s : State) : State :=
  let withdrawn := if s.wires.outcome.isNone then s.ocu.presented.toList else []
  let leaving := withdrawn ++ s.ocu.queue
  let s := s.setOcu
    { s.ocu with queue := [], presented := if s.wires.outcome.isNone then none else s.ocu.presented }
  leaving.foldl (fun s it => verdictFor it false s) s

/-- OCU_STOP (R112). -/
def execOcuStop (s : State) : Outcome State Fault Refusal :=
  .next (takeSupply ocuIx (fun | .stop => some () | _ => none) (fun _ s => ocuStop s) s)

/-- The warm start: PRESENCE UNKNOWN and feedback absent, LAST_DISPLAY kept (R110, R116, R131; log 39). The rooms whose
feedback was present are recomposed by ascending index: the model's choice (log 54). -/
def ocuWarmStart (s : State) : State :=
  let cleared := ixsWhere Option.isSome s.ocu.feedback
  let s := forgetPresence s
  let s := s.setOcu { s.ocu with feedback := Vector.replicate 128 none }
  cleared.foldl (fun s r => recompose r s) s

/-- OCU_WARM_START (R131). -/
def execOcuWarmStart (s : State) : Outcome State Fault Refusal :=
  .next (takeSupply ocuIx (fun | .warmStart => some () | _ => none) (fun _ s => ocuWarmStart s) s)

/-- OCU's reaction to a time-set (R116, R122, R128). -/
def ocuTimeSet (s : State) : State :=
  recomposeAll
    (s.setOcu
      { s.ocu with
        feedback := Vector.replicate 128 none
        ghostCount := Vector.replicate 128 0
        ghostRec := Vector.replicate 128 none })

/-- One item flushed at the expiry indication (R112). -/
def flushItem (s : State) (it : Item) : State :=
  match it.origin with
  | .panel => verdictFor it true (setFeedback it.room .notAvailable s)
  | .presence | .ghost => s

/-- OCU's reaction to the expiry indication (R112, R128). The items leave in the order of QUEUE: the model's choice (log 54). -/
def ocuExpiry (s : State) : State :=
  let items := s.ocu.queue
  recomposeAll (items.foldl flushItem (s.setOcu { s.ocu with queue := [] }))

end Sys2Proof.Machine
end

