-- ==== Sys2Proof/Machine/Times.lean ====
section
/-! DEFINITION. What each receiving block does with a time-set and with the expiry indication (01 R4). -/

namespace Sys2Proof.Machine

open Host

/-- A block's own reaction to a time-set (03 R67, 04 R81, 06 R116, R122, R128, 07 R161). -/
def onTimeSet (b : TimedBlock) (s : State) : State :=
  match b with
  | .rbk => s.setBook { s.book with frozen := false }
  | .ocu => ocuTimeSet s
  | .kpl => s.setKpl { s.kpl with frozen := false }
  | .psl => s.setPsl { s.psl with frozen := false }
  | .rzt | .pwc => s

/-- A block's own reaction to the expiry indication (06 R112, R128). -/
def onExpiry (b : TimedBlock) (s : State) : State :=
  match b with
  | .ocu => ocuExpiry s
  | .rzt | .rbk | .psl | .kpl | .pwc => s

/-- Whether a block may take a time-set: the book, which grants requests again from then on, takes that of a RESYNC once PSL has taken it
(04 R81, 03 R67; log 65). -/
def timeSetDue (b : TimedBlock) (s : State) : Bool := b != .rbk || !s.psl.frozen

/-- TIME_SET (R4): the block adopts the new clock, its status becomes set, and it resets what its chapter states. -/
def execTimeSet (b : TimedBlock) (s : State) : Outcome State Fault Refusal :=
  .next (match s.wires.time[blockIx b].head? with
    | some (.timeSet c) => if timeSetDue b s then settleTime (onTimeSet b ((popTime b s).setTime b ⟨c, .set⟩)) else s
    | _ => s)

/-- EXPIRY_INDICATION (R4): the block's clock status becomes expired. -/
def execExpiryIndication (b : TimedBlock) (s : State) : Outcome State Fault Refusal :=
  .next (match s.wires.time[blockIx b].head? with
    | some .expiry => settleTime (onExpiry b ((popTime b s).setTime b ⟨s.now b, .expired⟩))
    | _ => s)

end Sys2Proof.Machine
end

