-- ==== Sys2Proof/Machine/Usage.lean ====
section
/-! DEFINITION. The Pool Selector's counters (04): counting usage at slot boundaries, the weekly halving, emptying. -/

namespace Sys2Proof.Machine

open Host

/-- The panel condition of a room (R74). -/
def panelCondition (s : State) (r : Room) : Bool :=
  (s.roomRec r).panel.isNone || !s.panelOnline r || s.pwc.sstate = .retain

/-- The UNVERIFIED flag of the room's ACTIVE record, if it has one (R74). -/
def activeUnverified (s : State) (r : Room) : Option Bool :=
  ((s.schedule r).find? (fun e => e.summary = .active)).map (fun e => (s.book.records[e.index]).body.unverified)

/-- The basis of a room's count, by the first matching row of the table (R74). -/
def basisOf (s : State) (r : Room) : Basis :=
  if s.ocu.presence[r] = .occupied then .occupied
  else if panelCondition s r then
    match activeUnverified s r with
    | some false => .booked
    | some true => .unverified
    | none => .none
  else .none

/-- The body whose UNVERIFIED a room's count looks at is read with its check (R74, 03 R62). -/
def readForUsage (s : State) (r : Room) : State :=
  if s.ocu.presence[r] != .occupied && panelCondition s r then
    readAll (((s.schedule r).find? (fun e => e.summary = .active)).toList.map Entry.index) s
  else s

/-- The count of a slot boundary (R74, R76). The bodies are read by ascending room: the model's choice (log 54). -/
def countUsage (s : State) : State :=
  let s := (List.finRange 128).foldl readForUsage s
  let basis : Vector Basis 128 := tabulate (basisOf s)
  let usage : Vector Nat 128 := tabulate (fun r => if basisOf s r = .none then s.psl.usage[r] else satInc s.psl.usage[r])
  s.setPsl { s.psl with usage := usage, basis := basis }

/-- The weekly halving (R78). -/
def halve (day : Nat) (s : State) : State :=
  s.setPsl { s.psl with usage := mapV (· / 2) s.psl.usage, lastHalved := some day }

/-- Whether a tick is the rollover into the levelling weekday (R78). -/
def halvingDue (s : State) (c : Clock) : Bool := c.isRollover && c.weekday = s.psl.levelDay

/-- PSL's work on a tick: the halving first, then the count of a slot boundary (R77, R78). -/
def pslTick (c : Clock) (s : State) : State :=
  let s := if halvingDue s c then halve c.day s else s
  if c.isSlotBoundary then countUsage s else s

/-- USAGE_COUNT (R74): PSL takes the tick at the head of its list whole (log 8). -/
def execUsageCount (s : State) : Outcome State Fault Refusal := .next (takeTick .psl (fun _ => true) pslTick s)

/-- LEVELLING_HALVING (R78): PSL takes a tick that is the rollover into the levelling weekday (log 8). -/
def execLevellingHalving (s : State) : Outcome State Fault Refusal := .next (takeTick .psl (halvingDue s) pslTick s)

/-- Whether PSL may empty for a RESYNC: the book has reported its state emptied, and grants no request from then on, so that no pool HOLD
or FIND_FREE finds the counters at 0 (R81, 03 R67; log 65). -/
def usageEmptyDue (s : State) : Bool := s.ctu.resync.any (fun r => r.rbk)

/-- USAGE_EMPTY (R81): told by the CTU, PSL empties its counters and reports. -/
def execUsageEmpty (s : State) : Outcome State Fault Refusal :=
  .next (match s.wires.time[blockIx .psl].head? with
    | some .empty =>
      if usageEmptyDue s then
        let s := popTime .psl s
        let s := s.setPsl { Psl.reset with levelDay := s.psl.levelDay, frozen := true }
        settleTime (s.setCtu { s.ctu with resync := s.ctu.resync.map (fun r => { r with psl := true }) })
      else s
    | _ => s)

end Sys2Proof.Machine
end

