-- ==== Sys2Proof/Machine/Dispatch.lean ====
section
/-! DEFINITION. The meaning of every command: one arm for each row of the opcode table. -/

namespace Sys2Proof.Machine

open Host

/-- The effect of a command on everything but the queue. -/
def exec (i : Instr) (s : State) : Host.Outcome State Fault Refusal :=
  match i with
  | .powerOnReset s0 s1 s2 s3 powerFail => Sys2Proof.Machine.execPowerOnReset s0 s1 s2 s3 powerFail s
  | .referenceMinuteExpiry => Sys2Proof.Machine.execReferenceMinuteExpiry s
  | .timeSet b => Sys2Proof.Machine.execTimeSet b s
  | .expiryIndication b => Sys2Proof.Machine.execExpiryIndication b s
  | .bookMinuteTick => Sys2Proof.Machine.execBookMinuteTick s
  | .holdExpiry ix => Sys2Proof.Machine.execHoldExpiry ix s
  | .endBoundary ix => Sys2Proof.Machine.execEndBoundary ix s
  | .noShowBoundary ix => Sys2Proof.Machine.execNoShowBoundary ix s
  | .startBoundary ix => Sys2Proof.Machine.execStartBoundary ix s
  | .usageCount => Sys2Proof.Machine.execUsageCount s
  | .levellingHalving => Sys2Proof.Machine.execLevellingHalving s
  | .ocuSlotBoundary => Sys2Proof.Machine.execOcuSlotBoundary s
  | .feedbackExpiry r => Sys2Proof.Machine.execFeedbackExpiry r s
  | .plannerTick => Sys2Proof.Machine.execPlannerTick s
  | .orderCommit o => Sys2Proof.Machine.execOrderCommit o s
  | .orderDispatch o => Sys2Proof.Machine.execOrderDispatch o s
  | .lateMarking o => Sys2Proof.Machine.execLateMarking o s
  | .plannerRollover => Sys2Proof.Machine.execPlannerRollover s
  | .tableRolloverApply => Sys2Proof.Machine.execTableRolloverApply s
  | .quietStart => Sys2Proof.Machine.execQuietStart s
  | .quietEnd => Sys2Proof.Machine.execQuietEnd s
  | .queryTime p => Sys2Proof.Machine.execQueryTime p s
  | .setTime p => Sys2Proof.Machine.execSetTime p s
  | .resync p => Sys2Proof.Machine.execResync p s
  | .bookEmpty => Sys2Proof.Machine.execBookEmpty s
  | .plannerEmpty => Sys2Proof.Machine.execPlannerEmpty s
  | .usageEmpty => Sys2Proof.Machine.execUsageEmpty s
  | .resyncComplete => Sys2Proof.Machine.execResyncComplete s
  | .stageRooms p => Sys2Proof.Machine.execStageRooms p s
  | .stageZones p => Sys2Proof.Machine.execStageZones p s
  | .stageDiscard p => Sys2Proof.Machine.execStageDiscard p s
  | .apply p => Sys2Proof.Machine.execApply p s
  | .queryRooms p => Sys2Proof.Machine.execQueryRooms p s
  | .queryZones p => Sys2Proof.Machine.execQueryZones p s
  | .hold p => Sys2Proof.Machine.execHold p s
  | .book p => Sys2Proof.Machine.execBook p s
  | .confirm p => Sys2Proof.Machine.execConfirm p s
  | .findFree p => Sys2Proof.Machine.execFindFree p s
  | .cancel p => Sys2Proof.Machine.execCancel p s
  | .modify p => Sys2Proof.Machine.execModify p s
  | .checkIn p => Sys2Proof.Machine.execCheckIn p s
  | .order p => Sys2Proof.Machine.execOrder p s
  | .blockRoom p => Sys2Proof.Machine.execBlockRoom p s
  | .unblock p => Sys2Proof.Machine.execUnblock p s
  | .clearBookStats p => Sys2Proof.Machine.execClearBookStats p s
  | .queryRoom p => Sys2Proof.Machine.execQueryRoom p s
  | .queryBooking p => Sys2Proof.Machine.execQueryBooking p s
  | .queryBookStats p => Sys2Proof.Machine.execQueryBookStats p s
  | .setLevellingDay p => Sys2Proof.Machine.execSetLevellingDay p s
  | .queryUsage p => Sys2Proof.Machine.execQueryUsage p s
  | .announce p => Sys2Proof.Machine.execAnnounce p s
  | .clearLineStats p => Sys2Proof.Machine.execClearLineStats p s
  | .lineReset p => Sys2Proof.Machine.execLineReset p s
  | .queryLine p => Sys2Proof.Machine.execQueryLine p s
  | .stageKitchen p => Sys2Proof.Machine.execStageKitchen p s
  | .orderRetry p => Sys2Proof.Machine.execOrderRetry p s
  | .orderCancel p => Sys2Proof.Machine.execOrderCancel p s
  | .markDelivered p => Sys2Proof.Machine.execMarkDelivered p s
  | .queryKitchen p => Sys2Proof.Machine.execQueryKitchen p s
  | .queryOrder p => Sys2Proof.Machine.execQueryOrder p s
  | .fetchNotices p => Sys2Proof.Machine.execFetchNotices p s
  | .queryNotices p => Sys2Proof.Machine.execQueryNotices p s
  | .routeSet p => Sys2Proof.Machine.execRouteSet p s
  | .setPower p => Sys2Proof.Machine.execSetPower p s
  | .setQuiet p => Sys2Proof.Machine.execSetQuiet p s
  | .queryPower p => Sys2Proof.Machine.execQueryPower p s
  | .panelCheckin => Sys2Proof.Machine.execPanelCheckin s
  | .endNow => Sys2Proof.Machine.execEndNow s
  | .extend => Sys2Proof.Machine.execExtend s
  | .walkup => Sys2Proof.Machine.execWalkup s
  | .ghostRelease => Sys2Proof.Machine.execGhostRelease s
  | .attach => Sys2Proof.Machine.execAttach s
  | .attachAnswer => Sys2Proof.Machine.execAttachAnswer s
  | .move => Sys2Proof.Machine.execMove s
  | .moveAnswer => Sys2Proof.Machine.execMoveAnswer s
  | .bookingLeft => Sys2Proof.Machine.execBookingLeft s
  | .dropOrder => Sys2Proof.Machine.execDropOrder s
  | .reseat => Sys2Proof.Machine.execReseat s
  | .orderEnded => Sys2Proof.Machine.execOrderEnded s
  | .reseatDone => Sys2Proof.Machine.execReseatDone s
  | .notFound => Sys2Proof.Machine.execNotFound s
  | .bookConfigApplied => Sys2Proof.Machine.execBookConfigApplied s
  | .bookStop => Sys2Proof.Machine.execBookStop s
  | .pathStop => Sys2Proof.Machine.execPathStop s
  | .cycleStart l elapsed => Sys2Proof.Machine.execCycleStart l elapsed s
  | .goodStatus l octets => Sys2Proof.Machine.execGoodStatus l octets s
  | .frameError l octets => Sys2Proof.Machine.execFrameError l octets s
  | .answerTimeout l => Sys2Proof.Machine.execAnswerTimeout l s
  | .claimWindow l bits => Sys2Proof.Machine.execClaimWindow l bits s
  | .verdict l a => Sys2Proof.Machine.execVerdict l a s
  | .displayRecord l a => Sys2Proof.Machine.execDisplayRecord l a s
  | .lineConfigApplied l => Sys2Proof.Machine.execLineConfigApplied l s
  | .lineSupplyChange l => Sys2Proof.Machine.execLineSupplyChange l s
  | .lineWarmStart l => Sys2Proof.Machine.execLineWarmStart l s
  | .presenceReport l a => Sys2Proof.Machine.execPresenceReport l a s
  | .panelDown l a => Sys2Proof.Machine.execPanelDown l a s
  | .panelUp l a => Sys2Proof.Machine.execPanelUp l a s
  | .panelEvent l a => Sys2Proof.Machine.execPanelEvent l a s
  | .bookOutcome => Sys2Proof.Machine.execBookOutcome s
  | .scheduleIndication => Sys2Proof.Machine.execScheduleIndication s
  | .orderIndication => Sys2Proof.Machine.execOrderIndication s
  | .ocuConfigApplied => Sys2Proof.Machine.execOcuConfigApplied s
  | .displayLoss l a => Sys2Proof.Machine.execDisplayLoss l a s
  | .ocuSupplyChange => Sys2Proof.Machine.execOcuSupplyChange s
  | .ocuStop => Sys2Proof.Machine.execOcuStop s
  | .ocuWarmStart => Sys2Proof.Machine.execOcuWarmStart s
  | .notice from_ => Sys2Proof.Machine.execNotice from_ s
  | .noticeWarmStart => Sys2Proof.Machine.execNoticeWarmStart s
  | .statusTransaction p code => Sys2Proof.Machine.execStatusTransaction p code s
  | .requestTransaction p octets => Sys2Proof.Machine.execRequestTransaction p octets s
  | .responseTransaction p clocked => Sys2Proof.Machine.execResponseTransaction p clocked s
  | .ownerAnswer p => Sys2Proof.Machine.execOwnerAnswer p s
  | .queueLengthReport p => Sys2Proof.Machine.execQueueLengthReport p s
  | .portStop p => Sys2Proof.Machine.execPortStop p s
  | .portWarmStartComplete p => Sys2Proof.Machine.execPortWarmStartComplete p s
  | .powerFailAssert => Sys2Proof.Machine.execPowerFailAssert s
  | .powerFailRelease => Sys2Proof.Machine.execPowerFailRelease s
  | .warmReset => Sys2Proof.Machine.execWarmReset s
  | .warmStartComplete => Sys2Proof.Machine.execWarmStartComplete s
  | .moveAnswerTaken => Sys2Proof.Machine.execMoveAnswerTaken s

end Sys2Proof.Machine
end

