-- ==== Sys2Proof/Machine/Requests.lean ====
section
/-! DEFINITION. The layout of request frames (11 R195): for each request its kind code and its parameters, field by field, as an agent
sends them. The part reads frames with `readFrame`; this is the same layout written out from the sender's side, for the statements. -/

namespace Sys2Proof.Machine

/-- A field of a frame: a number of one, two or four octets, or a signed octet (11 R197). -/
inductive Field where
  | n1 (v : Nat)
  | n2 (v : Nat)
  | n4 (v : Nat)
  | i1 (v : Int)
  deriving DecidableEq, Repr

/-- The octets of a field. -/
def Field.octets : Field → List Byte
  | .n1 v => e1 v
  | .n2 v => e2 v
  | .n4 v => e4 v
  | .i1 v => eInt1 v

/-- Whether a value fits the octets of its field. -/
def Field.fits : Field → Bool
  | .n1 v => v < 256
  | .n2 v => v < 65536
  | .n4 v => v < 4294967296
  | .i1 v => -128 ≤ v && v < 128

/-- An optional field: a presence octet 0, or 1 and the field (R195). -/
def optField (f : Nat → Field) : Option Nat → List Field
  | none => [.n1 0]
  | some v => [.n1 1, f v]

def Span.fields (sp : Span) : List Field := [.n4 sp.start, .n1 sp.len]

def TargetParam.fields (t : TargetParam) : List Field := [.n1 t.kind, .n1 t.index]

/-- A room record (02 R16, R25). -/
def RoomParam.fields (q : RoomParam) : List Field :=
  [.n1 q.cap, .n1 q.bldg] ++ optField .n1 q.panel ++ optField .n1 q.k1 ++ optField .n1 q.k2 ++ [.n2 q.travel, .n2 q.label]

/-- A zone attribute record (02 R19, R26). -/
def ZoneParam.fields (q : ZoneParam) : List Field :=
  [.n1 q.kind, .n1 q.bookers, .n1 q.e, .n1 q.g, .n1 q.h, .n1 q.autorelease, .n1 q.presenceCheckin, .n1 q.badgeOnly, .n1 q.w]

/-- A kitchen record (07 R133). -/
def KitchenParam.fields (q : KitchenParam) : List Field := [.n1 q.capb, .n1 q.lead, .n1 q.lateMargin, .n1 q.enabled]

/-- The parameters of an order (07, Taking an order). -/
def OrderParam.fields (q : OrderParam) : List Field := [.n1 q.covers, .n1 q.cls, .n1 q.kreq, .i1 q.offset, .n1 q.fallback]

/-- The kind code of a request: they count from 1 through the catalogue (R195, 09 R184). -/
def Request.kind : Request → Nat
  | .queryTime => 1
  | .setTime .. => 2
  | .resync .. => 3
  | .stageRooms .. => 4
  | .stageZones .. => 5
  | .stageDiscard .. => 6
  | .apply .. => 7
  | .queryRooms .. => 8
  | .queryZones .. => 9
  | .hold .. => 10
  | .book .. => 11
  | .confirm .. => 12
  | .findFree .. => 13
  | .cancel .. => 14
  | .modify .. => 15
  | .checkIn .. => 16
  | .order .. => 17
  | .blockRoom .. => 18
  | .unblock .. => 19
  | .clearBookStats => 20
  | .queryRoom .. => 21
  | .queryBooking .. => 22
  | .queryBookStats => 23
  | .setLevellingDay .. => 24
  | .queryUsage .. => 25
  | .announce .. => 26
  | .clearLineStats .. => 27
  | .lineReset .. => 28
  | .queryLine .. => 29
  | .stageKitchen .. => 30
  | .orderRetry .. => 31
  | .orderCancel .. => 32
  | .markDelivered .. => 33
  | .queryKitchen .. => 34
  | .queryOrder .. => 35
  | .fetchNotices .. => 36
  | .queryNotices => 37
  | .routeSet .. => 38
  | .setPower .. => 39
  | .setQuiet .. => 40
  | .queryPower => 41

/-- The parameters of a request in the order its owning rule names them, each in the octets of its type (R195, R197; log 16 where R197
gives no type). -/
def Request.fields : Request → List Field
  | .queryTime | .clearBookStats | .queryBookStats | .queryNotices | .queryPower => []
  | .setTime d m | .resync d m => [.n2 d, .n2 m]
  | .stageRooms first recs method => [.n1 first, .n1 recs.length] ++ recs.flatMap RoomParam.fields ++ [.n1 method]
  | .stageZones b1 b2 b3 b4 attrs method => [.n1 b1, .n1 b2, .n1 b3, .n1 b4] ++ attrs.flatMap ZoneParam.fields ++ [.n1 method]
  | .stageDiscard t | .apply t => [.n1 t]
  | .queryRooms copy first count => [.n1 copy, .n1 first, .n1 count]
  | .queryZones copy => [.n1 copy]
  | .hold t sp att org disp time =>
    t.fields ++ sp.fields ++ [.n1 att, .n4 org.toNat, .n2 disp] ++ optField .n1 time
  | .book t sp att org disp => t.fields ++ sp.fields ++ [.n1 att, .n4 org.toNat, .n2 disp]
  | .findFree zone sp att => [.n1 zone] ++ sp.fields ++ [.n1 att]
  | .modify id start len att => [.n2 id.word] ++ optField .n4 start ++ optField .n1 len ++ optField .n1 att
  | .order id prm => [.n2 id.word] ++ prm.fields
  | .confirm id | .cancel id | .checkIn id | .unblock id | .queryBooking id => [.n2 id.word]
  | .blockRoom room sp cause disp force => [.n1 room] ++ sp.fields ++ [.n1 cause, .n2 disp, .n1 force]
  | .queryRoom room day cont => [.n1 room, .n2 day] ++ optField .n4 cont
  | .setLevellingDay w => [.n1 w]
  | .queryUsage first count => [.n1 first, .n1 count]
  | .announce ls pattern mask code duration => [.n1 ls, .n1 pattern, .n1 mask, .n1 code, .n1 duration]
  | .clearLineStats ls | .lineReset ls => [.n1 ls]
  | .queryLine l => [.n1 l]
  | .stageKitchen first recs method => [.n1 first, .n1 recs.length] ++ recs.flatMap KitchenParam.fields ++ [.n1 method]
  | .orderRetry id | .orderCancel id | .markDelivered id | .queryOrder id => [.n2 id.word]
  | .queryKitchen k first count => [.n1 k, .n1 first, .n1 count]
  | .fetchNotices n => [.n1 n]
  | .routeSet i k z p en => [.n1 i, .n1 k, .n1 z, .n1 p, .n1 en]
  | .setPower t => [.n1 t]
  | .setQuiet qs qe a => [.n2 qs, .n2 qe, .n1 a]

/-- Whether every value of a request fits its octets, and a zone table has its five attribute records. -/
def Request.fits (q : Request) : Bool :=
  q.fields.all Field.fits &&
    match q with
    | .stageZones _ _ _ _ attrs _ => attrs.length = 5
    | _ => true

/-- The check byte that makes the sum of a frame 0 modulo 256 (R195). -/
def checkByte (octets : List Byte) : Byte := 0 - octets.foldl (· + ·) 0

/-- The frame of a request: LEN, TAG, KIND, the parameters and CHK (R195). -/
def requestFrame (tag : Byte) (q : Request) : List Byte :=
  let params := q.fields.flatMap Field.octets
  let covered := e1 (params.length + 4) ++ [tag] ++ e1 q.kind ++ params
  covered ++ [checkByte covered]

end Sys2Proof.Machine
end

