-- ==== Sys2Proof/Safety.lean ====
section
/-! DEFINITION. What claims speak of: the parts of the state and which of them a command may change, the conditions every step keeps,
and short words for a request that waits and for a record that is sound. -/

namespace Sys2Proof.Machine

open Host

/-! ## Parts of the state -/

/-- The parts of the state. -/
inductive Part where
  | pending | times | ctu | rzt | book | psl | lines | jobs | ocu | kpl | nrt | ports | pwc | wires
  deriving DecidableEq, Repr

/-- Two states agree on a part. -/
def agree (x : Part) (s t : State) : Prop :=
  match x with
  | .pending => t.pending = s.pending
  | .times => t.times = s.times
  | .ctu => t.ctu = s.ctu
  | .rzt => t.rzt = s.rzt
  | .book => t.book = s.book
  | .psl => t.psl = s.psl
  | .lines => t.lines = s.lines
  | .jobs => t.jobs = s.jobs
  | .ocu => t.ocu = s.ocu
  | .kpl => t.kpl = s.kpl
  | .nrt => t.nrt = s.nrt
  | .ports => t.ports = s.ports
  | .pwc => t.pwc = s.pwc
  | .wires => t.wires = s.wires

/-- From `s` to `t` only the listed parts may have changed. -/
def Only (ps : List Part) (s t : State) : Prop := ∀ x, x ∉ ps → agree x s t

/-- The parts a command may change. -/
def touches : Instr → List Part
  | .powerOnReset .. => [.times, .ctu, .rzt, .book, .psl, .lines, .jobs, .ocu, .kpl, .nrt, .ports, .pwc, .wires]
  | .referenceMinuteExpiry => [.ctu, .wires]
  | .timeSet .rbk => [.times, .ctu, .wires, .book]
  | .timeSet .ocu => [.times, .ctu, .wires, .ocu, .book]
  | .timeSet .kpl => [.times, .ctu, .wires, .kpl]
  | .timeSet .rzt => [.times, .ctu, .wires]
  | .timeSet .psl => [.times, .ctu, .wires, .psl]
  | .timeSet .pwc => [.times, .ctu, .wires]
  | .expiryIndication .ocu => [.times, .ctu, .wires, .ocu, .book]
  | .expiryIndication .rzt => [.times, .ctu, .wires]
  | .expiryIndication .rbk => [.times, .ctu, .wires]
  | .expiryIndication .psl => [.times, .ctu, .wires]
  | .expiryIndication .kpl => [.times, .ctu, .wires]
  | .expiryIndication .pwc => [.times, .ctu, .wires]
  | .bookMinuteTick => [.times, .ctu, .wires, .book]
  | .holdExpiry _ => [.book, .wires]
  | .endBoundary _ => [.book, .wires]
  | .noShowBoundary _ => [.book, .wires]
  | .startBoundary _ => [.book, .wires]
  | .usageCount => [.times, .ctu, .wires, .psl, .book]
  | .levellingHalving => [.times, .ctu, .wires, .psl, .book]
  | .ocuSlotBoundary => [.times, .ctu, .wires, .ocu, .book]
  | .feedbackExpiry _ => [.ocu, .book, .wires]
  | .plannerTick => [.times, .ctu, .wires, .kpl]
  | .orderCommit _ => [.kpl, .wires]
  | .orderDispatch _ => [.kpl, .wires]
  | .lateMarking _ => [.kpl, .wires]
  | .plannerRollover => [.times, .ctu, .wires, .kpl]
  | .tableRolloverApply => [.times, .ctu, .wires, .rzt]
  | .quietStart => [.times, .ctu, .wires, .pwc]
  | .quietEnd => [.times, .ctu, .wires, .pwc]
  | .queryTime _ => [.wires]
  | .setTime _ => [.ctu, .nrt, .wires]
  | .resync _ => [.ctu, .wires]
  | .bookEmpty => [.book, .ctu, .wires]
  | .plannerEmpty => [.kpl, .ctu, .wires]
  | .usageEmpty => [.psl, .ctu, .wires]
  | .resyncComplete => [.ctu, .wires]
  | .stageRooms _ => [.rzt, .wires]
  | .stageZones _ => [.rzt, .wires]
  | .stageDiscard _ => [.rzt, .wires]
  | .apply _ => [.rzt, .kpl, .wires]
  | .queryRooms _ => [.wires]
  | .queryZones _ => [.wires]
  | .hold _ => [.book, .wires]
  | .book _ => [.book, .wires]
  | .confirm _ => [.book, .wires]
  | .findFree _ => [.book, .wires]
  | .cancel _ => [.book, .wires]
  | .modify _ => [.book, .wires]
  | .checkIn _ => [.book, .wires]
  | .order _ => [.book, .wires]
  | .blockRoom _ => [.book, .wires]
  | .unblock _ => [.book, .wires]
  | .clearBookStats _ => [.book, .wires]
  | .queryRoom _ => [.book, .wires]
  | .queryBooking _ => [.book, .wires]
  | .queryBookStats _ => [.book, .wires]
  | .setLevellingDay _ => [.psl, .wires]
  | .queryUsage _ => [.wires]
  | .announce _ => [.lines, .jobs, .wires]
  | .clearLineStats _ => [.lines, .wires]
  | .lineReset _ => [.lines, .jobs, .wires]
  | .queryLine _ => [.wires]
  | .stageKitchen _ => [.kpl, .wires]
  | .orderRetry _ => [.kpl, .wires]
  | .orderCancel _ => [.kpl, .wires]
  | .markDelivered _ => [.kpl, .wires]
  | .queryKitchen _ => [.wires]
  | .queryOrder _ => [.wires]
  | .fetchNotices _ => [.nrt, .wires]
  | .queryNotices _ => [.wires]
  | .routeSet _ => [.nrt, .wires]
  | .setPower _ => [.pwc, .wires]
  | .setQuiet _ => [.pwc, .wires]
  | .queryPower _ => [.wires]
  | .panelCheckin => [.book, .wires]
  | .endNow => [.book, .wires]
  | .extend => [.book, .wires]
  | .walkup => [.book, .wires]
  | .ghostRelease => [.book, .wires]
  | .attach => [.kpl, .wires]
  | .attachAnswer => [.book, .wires]
  | .move => [.kpl, .wires]
  | .moveAnswer => [.book, .kpl, .wires]
  | .bookingLeft => [.kpl, .wires]
  | .dropOrder => [.kpl, .wires]
  | .reseat => [.kpl, .wires]
  | .orderEnded => [.book, .wires]
  | .reseatDone => [.wires]
  | .notFound => [.wires]
  | .bookConfigApplied => [.book, .rzt, .wires]
  | .bookStop => [.book, .pwc, .wires]
  | .pathStop => [.kpl, .pwc, .wires]
  | .cycleStart _ _ => [.ctu, .lines, .jobs, .wires]
  | .goodStatus _ _ => [.lines, .jobs, .wires]
  | .frameError _ _ => [.lines, .jobs, .wires]
  | .answerTimeout _ => [.lines, .jobs, .wires]
  | .claimWindow _ _ => [.lines, .jobs, .wires]
  | .verdict _ _ => [.lines, .wires]
  | .displayRecord _ _ => [.lines, .wires]
  | .lineConfigApplied _ => [.lines, .jobs, .rzt, .wires]
  | .lineSupplyChange _ => [.lines, .jobs, .pwc, .wires]
  | .lineWarmStart _ => [.lines, .jobs, .pwc, .wires]
  | .presenceReport _ _ => [.ocu, .book, .wires]
  | .panelDown _ _ => [.ocu, .wires]
  | .panelUp _ _ => [.wires]
  | .panelEvent _ _ => [.ocu, .book, .wires]
  | .bookOutcome => [.ocu, .book, .wires]
  | .scheduleIndication => [.ocu, .book, .wires]
  | .orderIndication => [.ocu, .book, .wires]
  | .ocuConfigApplied => [.ocu, .book, .rzt, .wires]
  | .displayLoss _ _ => [.ocu, .book, .wires]
  | .ocuSupplyChange => [.ocu, .book, .pwc, .wires]
  | .ocuStop => [.ocu, .pwc, .wires]
  | .ocuWarmStart => [.ocu, .book, .pwc, .wires]
  | .notice _ => [.nrt, .wires]
  | .noticeWarmStart => [.nrt, .pwc, .wires]
  | .statusTransaction _ _ => [.ports]
  | .requestTransaction _ _ => [.ports, .wires]
  | .responseTransaction _ _ => [.ports]
  | .ownerAnswer _ => [.ports, .wires]
  | .queueLengthReport _ => [.ports, .wires]
  | .portStop _ => [.ports, .pwc, .wires]
  | .portWarmStartComplete _ => [.ports, .pwc, .wires]
  | .powerFailAssert => [.pwc, .wires]
  | .powerFailRelease => [.pwc, .wires]
  | .warmReset => [.pwc, .wires]
  | .warmStartComplete => [.pwc, .wires]
  | .moveAnswerTaken => [.kpl, .wires]

/-! ## Conditions every step keeps -/

/-- A safe step: the part goes on. -/
def SafeStep (s : State) : Prop := ∃ t, step s = .next t

/-- PHASE, SSTATE and START_CAUSE agree, as the table of PHASE says (10, What the controller holds). -/
abbrev SupplyLegal (s : State) : Prop :=
  (s.pwc.phase = .stopped → s.pwc.sstate = .retain) ∧ (s.pwc.phase = .open → s.pwc.sstate ≠ .retain) ∧
    (s.pwc.startCause.isSome = true ↔ s.pwc.phase = .starting)

/-- RESPONSE is present in READY, and only there; a stopped port may have lost it (09, The port record). -/
abbrev PortsLegal (s : State) : Prop :=
  ∀ p : Port, ((s.ports[p]).response.isSome = true → (s.ports[p]).state = .ready) ∧
    ((s.ports[p]).link = .open → (s.ports[p]).state = .ready → (s.ports[p]).response.isSome = true)

/-- The clock is a campus time, REFCOUNT lies in the reference minute, and SLEW and the held clocks agree with CSTATE (01 R1 to R3, R9,
R12). -/
abbrev ClockLegal (s : State) : Prop :=
  s.ctu.clock.minute ≤ 1439 ∧ s.ctu.clock.day ≤ 65535 ∧ s.ctu.refcount < Config.refMinute ∧ s.ctu.slew ≤ 10 ∧
    (0 < s.ctu.slew ↔ s.ctu.cstate = .slewing) ∧ (s.ctu.cstate = .unset → s.ctu.clock = Clock.zero) ∧
    (s.ctu.cstate = .expired → s.ctu.clock = lastClock) ∧
    (s.ctu.resync.all (fun r => r.target.minute ≤ 1439 && r.target.day ≤ 60000)) = true

/-- An attribute record in its ranges (02, Zone attributes). -/
abbrev ZoneAttr.legal (a : ZoneAttr) : Prop :=
  a.e ≤ 6 ∧ 1 ≤ a.g ∧ a.g ≤ 6 ∧ (a.h = 0 ∨ 2 ≤ a.h ∧ a.h ≤ 12) ∧ a.w ≤ 15

/-- A zone table with ordered pointers and attributes in their ranges (02 R18, R27). -/
abbrev ZoneTable.legal (z : ZoneTable) : Prop :=
  z.b1 ≤ z.b2 ∧ z.b2 ≤ z.b3 ∧ z.b3 ≤ z.b4 ∧ z.b4 ≤ 128 ∧ ∀ k : Zone, (z.attrs[k]).legal

/-- Both zone tables are legal. -/
abbrev ZonesLegal (s : State) : Prop := s.rzt.zones.legal ∧ s.rzt.stagedZones.legal

/-- No notice queue holds more than 32 notices (08 R170). -/
abbrev QueuesLegal (s : State) : Prop := ∀ p : Port, (s.nrt.queues[p]).length ≤ 32

/-- No USAGE counter exceeds 65535 (04 R76). -/
abbrev UsageLegal (s : State) : Prop := ∀ r : Room, s.psl.usage[r] ≤ 65535

/-- MISSED is at most 3, and OUTSTANDING and EVBUF together hold at most 4 events (05, Panel contexts). -/
abbrev PanelCtx.legal (c : PanelCtx) : Prop := c.missed ≤ 3 ∧ c.evbuf.length + (if c.outstanding.isSome then 1 else 0) ≤ 4

/-- Every panel context is legal. -/
abbrev PanelsLegal (s : State) : Prop := ∀ l : Line, ∀ a : Addr, (s.ctx l a).legal

/-- Every schedule stands in ascending START (03 R39). -/
abbrev SchedulesOrdered (s : State) : Prop := ∀ r : Room, (s.schedule r).Pairwise (fun a b => a.start ≤ b.start)

/-- Two items that OCU's queue never holds together: PRESENCE items of one room, GHOST items of one room, or PANEL items of one line and
address (06 R111). -/
def Item.clash (x y : Item) : Prop :=
  (x.origin ≠ .panel ∧ x.origin = y.origin ∧ x.room = y.room) ∨
    ∃ a b : Source, x.source = some a ∧ y.source = some b ∧ a.line = b.line ∧ a.addr = b.addr

/-- OCU's items, the presented one first, hold no two that clash (06 R111). -/
abbrev ItemsApart (s : State) : Prop := (allItems s).Pairwise (fun x y => ¬ x.clash y)

/-! ## Words for statements -/

/-- The state after an owner has taken the request at the front of port `p`'s list, leaving `rest`. -/
def State.took (s : State) (p : Port) (rest : List HandedRequest) : State :=
  s.setWires { s.wires with requests := put s.wires.requests p rest }

/-- The state after the book has taken it, with the grant (03 R41). -/
def State.bookTook (s : State) (p : Port) (rest : List HandedRequest) : State := setGrant (.port p) (s.took p rest)

/-- The request taken and answered, with nothing else changed. -/
def State.answered (s : State) (p : Port) (h : HandedRequest) (rest : List HandedRequest) (code : Code) (items : List Byte) : State :=
  answer p h.reqno code items (s.took p rest)

/-- A book request granted, taken and answered, with nothing else changed. -/
def State.bookAnswered (s : State) (p : Port) (h : HandedRequest) (rest : List HandedRequest) (code : Code) (items : List Byte) :
    State := answer p h.reqno code items (s.bookTook p rest)

/-- The message at the head of a block's time list. -/
abbrev State.timeHead (s : State) (b : TimedBlock) : Option TimeMsg := s.wires.time[blockIx b].head?

/-- The state after block `b` has taken a tick to clock `c`. -/
def State.ticked (s : State) (b : TimedBlock) (c : Clock) : State := (popTime b s).setTime b ⟨c, (s.timeOf b).status⟩

/-- The ticks of `n` successive advances from a clock. -/
def ticks (c : Clock) : Nat → List TimeMsg
  | 0 => []
  | n + 1 => .tick c.next :: ticks c.next n

/-- A request at the front of port `p`'s list. -/
abbrev State.asks (s : State) (p : Port) (h : HandedRequest) (rest : List HandedRequest) : Prop :=
  s.wires.requests[p] = h :: rest

/-- A book request at the front of port `p`'s list, which the book grants next. -/
abbrev State.bookAsks (s : State) (p : Port) (h : HandedRequest) (rest : List HandedRequest) : Prop :=
  s.asks p h rest ∧ h.req.isBook = true ∧ granted s = some (.port p)

/-- From `s` to `t` the messages `ms` have joined what supply receiver `i` has yet to take. -/
abbrev SupplyHanded (s t : State) (i : Fin 12) (ms : List SupplyMsg) : Prop := t.wires.supply[i] = s.wires.supply[i] ++ ms

/-- The asker behind a handed request. -/
def HandedRequest.asker (h : HandedRequest) (p : Port) : Asker := ⟨p, h.reqno, h.role⟩

/-- A live record of LIFE LIVE whose body has no fault, with the room and entry that name it. -/
abbrev SoundRecord (s : State) (i : BookIx) (b : Body) (r : Room) (e : Entry) : Prop :=
  (s.bookRec i).life = .live ∧ (s.bookRec i).body = b ∧ b.faults = 0 ∧ s.entryOf i = some (r, e)

/-- A sound record that a current handle names and that no move holds. -/
abbrev NamedRecord (s : State) (id : BookingId) (b : Body) : Prop :=
  (s.bookRec id.index).life = .live ∧ (s.bookRec id.index).gen = id.gen ∧ (s.bookRec id.index).pending ≠ .move ∧
    (s.bookRec id.index).body = b ∧ b.faults = 0

/-- A live order that a current handle names. -/
abbrev NamedOrder (s : State) (id : OrderId) (o : OrderRec) : Prop := resolveOrder id s = some o

end Sys2Proof.Machine
end

