-- ==== Sys2Proof/Certificates/Slice0/Obligations.lean ====
section
/-! DEFINITION. The statements for the provers. In each, `h` is the request at the front of a port's list and `rest` what stands behind it;
`s.took p rest` is the state after an owner has taken it and `s.bookTook p rest` after the book has been granted it. -/

open Sys2Proof Sys2Proof.Machine

/-! ## The part as a whole -/

/-- A step takes the command at the front of the queue and is exec of it on the state with the queue's rest (the queue is the model's, logs
2 and 3). On an empty queue one period of the reference input passes: REFCOUNT rises by one, or the reference minute expires (01 R2; that an
idle step is one period is the model's choice, log 5). The queue and the idle period are the model's choices (logs 2 and 5). -/
def Obligations.StepRunsTheFrontCommandOrIdles : Prop :=
  (∀ (c : Instr) (rest : List Instr) (s : State), s.pending = c :: rest → step s = exec c { s with pending := rest }) ∧
  (∀ s : State, s.pending = [] →
     (s.ctu.refcount + 1 < 1966080 →
       step s = .next (s.setCtu { s.ctu with periods := s.ctu.periods + 1, refcount := s.ctu.refcount + 1 })) ∧
     (1966080 ≤ s.ctu.refcount + 1 → step s = exec .referenceMinuteExpiry s))

/-- Every command goes on to a next state and leaves every part alone but those that `touches` lists for it: no command stops the part, and
the frame of all 120 commands. That no command faults or is refused is the model's choice (log 46), and so is the division into parts. -/
def Obligations.EveryCommandGoesOnWithinItsParts : Prop :=
  ∀ (c : Instr) (s : State), ∃ t, exec c s = .next t ∧ Only (touches c) s t

/-- 09 R183: POWER_ON_RESET gives each port the role of its straps by the table, and no other command changes a role. POWER_ON_RESET makes
every block what it is after reset, whatever the state before: with the supply good the part starts in RUN; with power-fail asserted it
comes up in RETAIN by POWER_FAIL, stopped, with the stop and RETAIN handed on (10 R187, R192). The model's choices: the waiting commands
stand (log 2), the level of the power-fail input is a flag (log 48), and the values of fields that the manual gives none (logs 6 and 42). -/
def Obligations.PowerOnResetStartsThePart : Prop :=
  ((∀ (s0 s1 s2 s3 : BitVec 2) (powerFail : Bool) (s : State), ∃ t : State, exec (.powerOnReset s0 s1 s2 s3 powerFail) s = .next t ∧
     ∀ p : Port, (t.ports[p]).role =
       (let straps := (#v[s0, s1, s2, s3] : Vector (BitVec 2) 4)[p]
        if straps = 0b00#2 then .gateway else if straps = 0b01#2 then .console else if straps = 0b10#2 then .catering else .facilities)) ∧
   ∀ (c : Instr) (s t : State), (∀ s0 s1 s2 s3 f, c ≠ .powerOnReset s0 s1 s2 s3 f) → exec c s = .next t →
     ∀ p : Port, (t.ports[p]).role = (s.ports[p]).role) ∧
  (∀ (s0 s1 s2 s3 : BitVec 2) (s : State),
     let fresh : State :=
       { State.powerOn #v[Role.ofStraps s0, Role.ofStraps s1, Role.ofStraps s2, Role.ofStraps s3] with pending := s.pending }
     exec (.powerOnReset s0 s1 s2 s3 false) s = .next fresh ∧
     ∃ t : State, exec (.powerOnReset s0 s1 s2 s3 true) s = .next t ∧
       t.pwc.sstate = .retain ∧ t.pwc.phase = .stopped ∧ t.pwc.lastCause = some .powerFail ∧ t.pwc.powerFail = true ∧
       (∀ p : Port, t.wires.supply[portIx p] = [.stop]) ∧ (∀ l : Line, t.wires.supply[lineIx l] = [.state .retain]) ∧
       t.wires.supply[ocuIx] = [.state .retain, .stop] ∧ t.wires.supply[rbkIx] = [.stop] ∧ t.wires.supply[pathIx] = [.stop] ∧
       Only [.pwc, .wires] fresh t)

/-- The values that power-on reset gives (01 R1, R4, 02 R23, R24, 03 R67, 04 R69, 05 R85, 06 R110, R116, R122, R131, 07 R132, R136, R141, 08
R174, 09 R176, 10 R187). -/
def Obligations.ResetValues : Prop :=
  let s := State.reset
  (s.ctu.cstate = .unset ∧ s.ctu.clock = ⟨0, 0⟩ ∧ s.ctu.slew = 0 ∧ s.ctu.refcount = 0) ∧
  (∀ b : TimedBlock, s.timeOf b = ⟨⟨0, 0⟩, .unset⟩) ∧
  (∀ r : Room,
    let rec_ : RoomRec := { cap := 0, bldg := 0, panel := none, k1 := none, k2 := none, travel := #v[0, 0, 0, 0], label := 0 }
    s.roomRec r = rec_ ∧ s.rzt.stagedRooms[r] = rec_ ∧ s.zoneOf r = 0 ∧ s.schedule r = [] ∧ s.book.releaseMarks[r] = none ∧
      s.psl.usage[r] = 0 ∧ s.psl.basis[r] = .none ∧ s.ocu.presence[r] = .unknown ∧ s.ocu.lastDisplay[r] = none ∧
      s.ocu.feedback[r] = none ∧ s.ocu.ghostCount[r] = 0 ∧ s.ocu.ghostRec[r] = none) ∧
  (s.rzt.zones.b1 = 128 ∧ s.rzt.zones.b2 = 128 ∧ s.rzt.zones.b3 = 128 ∧ s.rzt.zones.b4 = 128 ∧
    (∀ k : Zone, s.zoneAttr k =
      { kind := .named, bookers := ⟨true, true, false⟩, e := 2, g := 2, h := 0, autorelease := true, presenceCheckin := false,
        badgeOnly := false, w := 0 }) ∧
    s.rzt.stagedZones = s.rzt.zones ∧ s.rzt.roomMethod = .none ∧ s.rzt.zoneMethod = .none) ∧
  (∀ i : BookIx, (s.bookRec i).life = .free ∧ (s.bookRec i).gen = 0) ∧
  (s.book.corrected = 0 ∧ s.book.trap = none ∧ s.book.scrub = 0 ∧ s.book.lastGrant = .ocu) ∧
  (s.psl.levelDay = 0 ∧ s.psl.lastHalved = none) ∧
  (∀ l : Line,
    (∀ a : Addr, s.ctx l a =
      { pstate := .unconfigured, room := none, missed := 0, rawLast := none, rawPrev := none, ackSeq := none, outstanding := none,
        evbuf := [], dvSent := none, dvAck := none, dentry := none }) ∧
    (s.line l).cycleStart = none ∧ (s.line l).cycleList = [] ∧ (s.line l).annSlot = none ∧ (s.line l).crcCount = 0 ∧
      (s.line l).timeoutCount = 0 ∧ (s.line l).trap = none) ∧
  (s.ocu.queue = [] ∧ s.ocu.presented = none) ∧
  (∀ k : Kitchen, s.kpl.kitchens[k] = ⟨0, 4, 2, false⟩ ∧ s.kpl.staged[k] = ⟨0, 4, 2, false⟩ ∧
    ∀ i : Fin 192, (s.kpl.maps[k])[i] = 0) ∧
  (s.kpl.method = .none ∧ s.kpl.deferred = []) ∧
  (∀ i : OrderIx, (s.orderRec i).live = false ∧ (s.orderRec i).gen = 0) ∧
  (∀ i : Fin 16, s.nrt.routes[i] = { kind := none, zones := [], ports := [], enabled := false }) ∧
  (∀ p : Port, s.nrt.queues[p] = [] ∧ s.nrt.lost[p] = false ∧ (s.ports[p]).state = .idle ∧ (s.ports[p]).link = .open ∧
    (s.ports[p]).dropped = false ∧ (s.ports[p]).reqno = 0 ∧ (s.ports[p]).response = none ∧ (s.ports[p]).qlen = 0) ∧
  (s.pwc.sstate = .run ∧ s.pwc.phase = .open ∧ s.pwc.startCause = none ∧ s.pwc.qStart = 1200 ∧ s.pwc.qEnd = 420 ∧
    s.pwc.auto = false ∧ s.pwc.lastCause = none ∧ s.pwc.lastChange = none)

/-! ## Invariants -/

/-- The conditions that every step keeps hold after reset. -/
def Obligations.ResetMeetsTheInvariants : Prop :=
  SupplyLegal State.reset ∧ PortsLegal State.reset ∧ ClockLegal State.reset ∧ ZonesLegal State.reset ∧ QueuesLegal State.reset ∧
    UsageLegal State.reset ∧ PanelsLegal State.reset ∧ SchedulesOrdered State.reset ∧ ItemsApart State.reset

/-- PHASE, SSTATE and START_CAUSE go on agreeing. A response goes on standing in READY, and only there. That a stopped port keeps PORT_STATE
without its response is the model's choice (log 49). -/
def Obligations.StepKeepsSupplyAndPortsLegal : Prop :=
  (∀ s t : State, SupplyLegal s → step s = .next t → SupplyLegal t) ∧
  (∀ s t : State, PortsLegal s → step s = .next t → PortsLegal t)

/-- The clock stays a campus time that CSTATE, SLEW and REFCOUNT agree with. The pointers stay ordered and the attributes in their ranges,
in both copies. -/
def Obligations.StepKeepsClockAndZonesLegal : Prop :=
  (∀ s t : State, ClockLegal s → step s = .next t → ClockLegal t) ∧
  (∀ s t : State, ZonesLegal s → step s = .next t → ZonesLegal t)

/-- No notice queue ever holds more than 32 notices. No USAGE counter ever exceeds 65535. MISSED stays at most 3, and OUTSTANDING and EVBUF
together at most 4 events, at every address. -/
def Obligations.StepKeepsQueuesUsageAndPanelsLegal : Prop :=
  (∀ s t : State, QueuesLegal s → step s = .next t → QueuesLegal t) ∧
  (∀ s t : State, UsageLegal s → step s = .next t → UsageLegal t) ∧
  (∀ s t : State, PanelsLegal s → step s = .next t → PanelsLegal t)

/-- Every schedule stays in ascending START. -/
def Obligations.StepKeepsSchedulesOrdered : Prop :=
  ∀ s t : State, SchedulesOrdered s → step s = .next t → SchedulesOrdered t

/-- OCU's queue never comes to hold two PRESENCE or GHOST items of one room, or two PANEL items of one panel. -/
def Obligations.StepKeepsItemsApart : Prop :=
  ∀ s t : State, ItemsApart s → step s = .next t → ItemsApart t

/-! ## Campus time -/

/-- REFERENCE_MINUTE_EXPIRY by CSTATE (01 R2, R3, R6); during a RESYNC the expiry is discarded (R13). `u` is the state with REFCOUNT
wrapped. That the rest of the reference minute passes with the command is the model's choice (log 5). -/
def Obligations.ReferenceMinuteExpiryByCState : Prop :=
  ∀ s : State,
    let u := s.setCtu { s.ctu with periods := s.ctu.periods + (1966080 - s.ctu.refcount), refcount := 0 }
    let c := s.ctu.clock.next
    let ticked := handTimeAll (.tick c) (u.setCtu { u.ctu with clock := c })
    (s.ctu.resync.isSome = true → exec .referenceMinuteExpiry s = .next u) ∧
    (s.ctu.resync = none →
      (s.ctu.cstate = .unset ∨ s.ctu.cstate = .expired → exec .referenceMinuteExpiry s = .next u) ∧
      (s.ctu.cstate = .running → s.ctu.clock = ⟨65535, 1439⟩ →
        exec .referenceMinuteExpiry s = .next (handTimeAll .expiry (u.setCtu { u.ctu with cstate := .expired }))) ∧
      (s.ctu.cstate = .running → s.ctu.clock ≠ ⟨65535, 1439⟩ → s.ctu.clock.minute ≠ 1439 →
        c = ⟨s.ctu.clock.day, s.ctu.clock.minute + 1⟩ ∧ exec .referenceMinuteExpiry s = .next ticked) ∧
      (s.ctu.cstate = .running → s.ctu.clock ≠ ⟨65535, 1439⟩ → s.ctu.clock.minute = 1439 →
        c = ⟨s.ctu.clock.day + 1, 0⟩ ∧ exec .referenceMinuteExpiry s = .next (handNotice .ctu (rolloverNotice c) ticked)) ∧
      (s.ctu.cstate = .slewing →
        exec .referenceMinuteExpiry s = .next (u.setCtu
          { u.ctu with slew := s.ctu.slew - 1, cstate := if s.ctu.slew ≤ 1 then .running else .slewing })))

/-- SET_TIME (01 R8 to R11): refused values, setting from UNSET, and the trims. A forward trim hands every receiving block the ticks of its
minutes in order, and answers once they are taken. Between two minutes of a trim NRT may take notices, dated by the minute reached (08
R163). A waiting answer counts, for each receiving block, what stood in its list: each thing the block takes is counted off, and with
nothing left to count the port is answered OK, with the clock, CSTATE and SLEW as they then stand for a SET_TIME and with nothing for a
RESYNC (01 R8, R10, R13). The model's choices: the place of the answer behind the receivers' ticks is kept in a list of waiting answers (log
21), and which notices NRT takes between two minutes of a trim is a free value (log 52). -/
def Obligations.SetTimeSetsOrTrims : Prop :=
  (∀ (b : TimedBlock) (s : State), popTime b s =
     (s.setWires { s.wires with time := modAt s.wires.time (blockIx b) List.tail }).setCtu
       { s.ctu with waits := s.ctu.waits.map (fun w => { w with left := modAt w.left (blockIx b) (· - 1) }) }) ∧
  (∀ s : State,
     let due (w : TimeWait) : Bool := decide (∀ b : Fin 6, w.left[b] = 0)
     let t := settleTime s
     t.ctu = { s.ctu with waits := s.ctu.waits.filter (fun w => !due w) } ∧
       (∀ p : Port, t.wires.answers[p] = s.wires.answers[p] ++
         (s.ctu.waits.filter (fun w => due w && decide (w.port = p))).map (fun w =>
           ⟨w.reqno, .ok, if w.showClock then eClock s.ctu.clock ++ e1 s.ctu.cstate.toNat ++ e1 s.ctu.slew else []⟩)) ∧
       t.wires = { s.wires with answers := t.wires.answers } ∧ Only [.ctu, .wires] s t) ∧
  ∀ (p : Port) (h : HandedRequest) (rest : List HandedRequest) (s : State) (d m : Nat),
    s.asks p h rest → h.req = .setTime d m → s.ctu.resync = none →
    let u := s.took p rest
    let now := s.ctu.clock.day * 1440 + s.ctu.clock.minute
    let new := d * 1440 + m
    let cornered (c : Ctu) : List Byte := eClock c.clock ++ e1 c.cstate.toNat ++ e1 c.slew
    (60000 < d ∨ 1439 < m → exec (.setTime p) s = .next (s.answered p h rest .badParam (cornered s.ctu))) ∧
    (d ≤ 60000 → m ≤ 1439 →
      (s.ctu.cstate = .unset →
        let v := handTimeAll (.timeSet ⟨d, m⟩)
          (u.setCtu { u.ctu with clock := ⟨d, m⟩, cstate := .running, slew := 0, refcount := 0 })
        exec (.setTime p) s = .next (v.setCtu
          { v.ctu with
            waits := v.ctu.waits ++ [{ port := p, reqno := h.reqno, showClock := true, left := mapV List.length v.wires.time }] })) ∧
      (s.ctu.cstate ≠ .unset → new + 10 < now ∨ now + 10 < new →
        exec (.setTime p) s = .next (s.answered p h rest .stepTooLarge (cornered s.ctu))) ∧
      (s.ctu.cstate ≠ .unset → new = now →
        let c := { s.ctu with slew := 0, cstate := .running }
        exec (.setTime p) s = .next (answer p h.reqno .ok (cornered c) (u.setCtu c))) ∧
      (s.ctu.cstate ≠ .unset → new < now → now ≤ new + 10 →
        let c := { s.ctu with slew := now - new, cstate := .slewing }
        exec (.setTime p) s = .next (answer p h.reqno .ok (cornered c) (u.setCtu c))) ∧
      (s.ctu.cstate ≠ .unset → ClockLegal s → now < new → new ≤ now + 10 →
        ∃ t : State, exec (.setTime p) s = .next t ∧ t.ctu.clock = ⟨d, m⟩ ∧ t.ctu.cstate = .running ∧ t.ctu.slew = 0 ∧
          t.ctu.refcount = s.ctu.refcount ∧ t.ctu.resync = none ∧
          (∀ b : Fin 6, t.wires.time[b] = s.wires.time[b] ++ ticks s.ctu.clock (new - now)) ∧
          t.ctu.waits = s.ctu.waits ++
            [{ port := p, reqno := h.reqno, showClock := true, left := mapV List.length t.wires.time }] ∧
          t.wires.requests[p] = rest ∧ t.wires.answers = s.wires.answers ∧ (new = now + 1 → t.nrt = s.nrt) ∧
          Only [.ctu, .nrt, .wires] s t) ∧
      (s.ctu.cstate ≠ .unset → new = now + 2 →
        let first := ctuAdvance (u.setCtu { u.ctu with slew := 0, cstate := .running })
        let between := (Config.takenInTrim s.ctu.trimmed).foldl takeNotice
          (first.setCtu { first.ctu with trimmed := s.ctu.trimmed + 1 })
        let last := ctuAdvance between
        first.ctu.clock = s.ctu.clock.next ∧
          exec (.setTime p) s = .next (last.setCtu
            { last.ctu with
              waits := last.ctu.waits ++
                [{ port := p, reqno := h.reqno, showClock := true, left := mapV List.length last.wires.time }] })))

/-- RESYNC and RESYNC_COMPLETE (01 R13): the owners are told to empty, and once all three have reported the clock is set and the time-set
handed to every receiving block. BOOK_EMPTY, PLANNER_EMPTY and USAGE_EMPTY (03 R67, 07 R161, 04 R81): the owner empties its state, keeps
what it is to keep, takes no part until its time-set, and reports to the CTU; each schedule and each order that goes hands its indication
(03 R37, 07 R142). Of the book and the planner, the one that empties second leaves no message of before on its way to the planner (07 R143,
R161; log 38, DEDUCED). PSL empties after the book has reported, so that no pool HOLD or FIND_FREE finds its counters at 0 (04 R81; log 65,
DEDUCED). The answer that waits for the time-set is given once every receiver has taken it, without a payload (`settleTime`, which
SetTimeSetsOrTrims says whole). That the emptying reaches the owners in their time lists, and that it hands the indications, is the model's
choice (log 29), and so are the serial numbers by which answers of before are told (log 59). The indications of an emptying go in ascending
order, of the room for the schedules and of the order's index for the orders: the manual states no order, and this one is the model's choice
(log 54). -/
def Obligations.ResyncEmptiesTheOwnersThenSets : Prop :=
  ((∀ (p : Port) (h : HandedRequest) (rest : List HandedRequest) (s : State) (d m : Nat),
     s.asks p h rest → h.req = .resync d m → s.ctu.resync = none →
     (60000 < d ∨ 1439 < m → exec (.resync p) s = .next (s.answered p h rest .badParam [])) ∧
     (d ≤ 60000 → m ≤ 1439 →
       exec (.resync p) s = .next
         (handTime .psl .empty (handTime .kpl .empty (handTime .rbk .empty ((s.took p rest).setCtu
           { s.ctu with
             resync := some { port := p, reqno := h.reqno, target := ⟨d, m⟩, rbk := false, kpl := false, psl := false } })))))) ∧
   ∀ (s : State) (p : Port) (n : Fin 256) (c : Clock),
     s.ctu.resync = some { port := p, reqno := n, target := c, rbk := true, kpl := true, psl := true } →
     let v := handTimeAll (.timeSet c)
       (s.setCtu { s.ctu with resync := none, clock := c, cstate := .running, slew := 0, refcount := 0 })
     exec .resyncComplete s = .next (v.setCtu
       { v.ctu with
         waits := v.ctu.waits ++ [{ port := p, reqno := n, showClock := false, left := mapV List.length v.wires.time }] })) ∧
  (∀ s : State,
     (s.timeHead .rbk = some .empty →
       ∃ t : State, exec .bookEmpty s = .next t ∧ t.book = { Book.reset with frozen := true, serial := s.book.serial, emptied := s.book.serial } ∧
         t.ctu.resync = s.ctu.resync.map (fun r => { r with rbk := true }) ∧
         t.wires.time = put s.wires.time (blockIx .rbk) s.wires.time[blockIx .rbk].tail ∧
         (∀ x ∈ s.book.exchanges, ∀ p n, x.who = some (p, n) → ⟨n, .unknown, []⟩ ∈ t.wires.answers[p]) ∧
         t.wires.sched = s.wires.sched ++ (List.finRange 128).filter (fun r => !(s.schedule r).isEmpty) ∧
         t.wires.toPlanner = (if s.kpl.frozen then [] else s.wires.toPlanner) ∧
         t.wires.notices = s.wires.notices ∧ Only [.book, .ctu, .wires] s t) ∧
     (s.timeHead .kpl = some .empty →
       ∃ t : State, exec .plannerEmpty s = .next t ∧
         t.kpl = { Kpl.reset with kitchens := s.kpl.kitchens, staged := s.kpl.staged, method := s.kpl.method, frozen := true } ∧
         t.ctu.resync = s.ctu.resync.map (fun r => { r with kpl := true }) ∧
         t.wires.time = put s.wires.time (blockIx .kpl) s.wires.time[blockIx .kpl].tail ∧
         t.wires.orders = s.wires.orders ++ ((List.finRange 512).filter (fun i => (s.orderRec i).live)).map (fun i => (s.orderRec i).room) ∧
         t.wires.toPlanner = [] ∧ t.wires.toBook = [] ∧ t.wires.notices = s.wires.notices ∧ Only [.kpl, .ctu, .wires] s t) ∧
     (s.timeHead .psl = some .empty → (∀ x, s.ctu.resync = some x → x.rbk = false) → exec .usageEmpty s = .next s) ∧
     (∀ x, s.timeHead .psl = some .empty → s.ctu.resync = some x → x.rbk = true →
       ∃ t : State, exec .usageEmpty s = .next t ∧ t.psl = { Psl.reset with levelDay := s.psl.levelDay, frozen := true } ∧
         t.ctu.resync = s.ctu.resync.map (fun r => { r with psl := true }) ∧
         t.wires.time = put s.wires.time (blockIx .psl) s.wires.time[blockIx .psl].tail ∧
         t.wires.notices = s.wires.notices ∧ Only [.psl, .ctu, .wires] s t)) ∧
  (∀ (s : State) (w : TimeWait), w ∈ s.ctu.waits → (∀ b : Fin 6, w.left[b] = 0) → w.showClock = false →
     ⟨w.reqno, .ok, []⟩ ∈ (settleTime s).wires.answers[w.port] ∧ w ∉ (settleTime s).ctu.waits)

/-- TIME_SET and EXPIRY_INDICATION (01 R4): the block's own copy and status change, no other block's; RBK, KPL and PSL act again after an
emptying (03 R67, 07 R161, 04 R81), RBK once PSL has taken its time-set (log 65, DEDUCED). At a time-set OCU makes feedback absent and the
ghost counts 0, and recomposes every room (06 R116, R122, R128). At the expiry OCU's unpresented items leave: each PANEL item sets its
room's feedback NOT_AVAILABLE and its panel event gets the verdict TAKEN, a PRESENCE or GHOST item is dropped, a presented item stands, and
every room is recomposed (06 R112, R116, R128). The order in which the items leave, that of QUEUE, and of the rooms, by ascending index, is
the model's choice (log 54). -/
def Obligations.TimeSetAndExpiryAreTaken : Prop :=
  ∀ (b : TimedBlock) (s : State),
    let everyRoom (v : State) := (List.finRange 128).foldl (fun v r => recompose r v) v
    (∀ c, s.timeHead b = some (.timeSet c) → b = .rbk → s.psl.frozen = true → exec (.timeSet b) s = .next s) ∧
    (∀ c, s.timeHead b = some (.timeSet c) → (b = .rbk → s.psl.frozen = false) →
      let u := (popTime b s).setTime b ⟨c, .set⟩
      (b = .ocu → exec (.timeSet b) s = .next (settleTime (everyRoom (u.setOcu
        { s.ocu with
          feedback := Vector.replicate 128 none, ghostCount := Vector.replicate 128 0, ghostRec := Vector.replicate 128 none })))) ∧
      ∃ t : State, exec (.timeSet b) s = .next t ∧ t.times = put s.times (blockIx b) ⟨c, .set⟩ ∧
        t.wires.time = put s.wires.time (blockIx b) s.wires.time[blockIx b].tail ∧
        (b = .rbk → t.book = { s.book with frozen := false }) ∧ (b = .kpl → t.kpl = { s.kpl with frozen := false }) ∧
        (b = .psl → t.psl = { s.psl with frozen := false }) ∧ (b = .ocu → ∀ r : Room, t.ocu.feedback[r] = none ∧ t.ocu.ghostCount[r] = 0 ∧ t.ocu.ghostRec[r] = none) ∧
        Only (touches (.timeSet b)) s t) ∧
    (s.timeHead b = some .expiry →
      let u := (popTime b s).setTime b ⟨s.now b, .expired⟩
      let late (v : State) (r : Room) :=
        recompose r (v.setOcu { v.ocu with feedback := put v.ocu.feedback r (some (.notAvailable, v.ocuSlot + 2)) })
      let flush (v : State) (it : Item) := match it.origin, it.source with
        | .panel, some x => handLine x.line x.addr (.verdict x.seq true) (late v it.room)
        | .panel, none => late v it.room
        | _, _ => v
      let mine (r : Room) (it : Item) : Prop := it.origin = .panel ∧ it.room = r
      (b = .ocu → exec (.expiryIndication b) s = .next (settleTime (everyRoom
        (s.ocu.queue.foldl flush (u.setOcu { u.ocu with queue := [] }))))) ∧
      ∃ t : State, exec (.expiryIndication b) s = .next t ∧ t.times = put s.times (blockIx b) ⟨s.now b, .expired⟩ ∧
        t.wires.time = put s.wires.time (blockIx b) s.wires.time[blockIx b].tail ∧
        (b = .ocu → t.ocu.queue = [] ∧ t.ocu.presented = s.ocu.presented ∧ t.ocu.presence = s.ocu.presence ∧
          t.ocu.ghostCount = s.ocu.ghostCount ∧ t.ocu.ghostRec = s.ocu.ghostRec ∧
          (∀ it ∈ s.ocu.queue, it.origin = .panel → ∀ x, it.source = some x →
            (x.addr, .verdict x.seq true) ∈ t.wires.toLine[x.line]) ∧
          ∀ r : Room, ((∃ it ∈ s.ocu.queue, mine r it) → t.ocu.feedback[r] = some (.notAvailable, s.ocuSlot + 2)) ∧
            ((∀ it ∈ s.ocu.queue, ¬mine r it) → t.ocu.feedback[r] = s.ocu.feedback[r])) ∧
        Only (touches (.expiryIndication b)) s t)

/-! ## Tables, settings and queries -/

/-- STAGE_ROOMS (02 R25, R28, R29), STAGE_ZONES (02 R26, R27) and STAGE_KITCHEN (07 R133, R134), each by its checks in order: CLOCK_UNSET
for a ROLLOVER while the clock is not set; BAD_PARAM for a first index, a count, a method or a field outside its range (of STAGE_ZONES also
for IMMEDIATE or a pointer above 128); STAGE_INVALID for a panel that two rooms would name, with the lowest such room of the request, or for
pointers out of order; else the records replace the staged ones and the pending method is set. IMMEDIATE makes the rooms or the kitchens
active at once; for the rooms the answer waits for the receivers of the signal, and is given with its payload once each has taken it (02
R34; `settleConfig`, which StagedTablesBecomeActive says whole). A carried room record is refused for a field outside its range; of a zone
attribute record E, G, H and W, and of a kitchen record LEAD and LATE_MARGIN, are clamped and counted. The model's choices: what the answer
of an IMMEDIATE update counts, and that its signal is handed even when no room changed (log 20); the other room that STAGE_INVALID names,
the lowest (log 55); that an undefined octet of a zone attribute or kitchen record is BAD_PARAM (log 18); and that the octet 1 is *on* (log
57). -/
def Obligations.StagingWritesTheStagedCopies : Prop :=
  (methodOf 0 = some .immediate ∧ methodOf 1 = some .rollover ∧ methodOf 2 = some .apply ∧ (∀ n, 2 < n → methodOf n = none) ∧
     Method.pend .immediate = .none ∧ Method.pend .rollover = .rollover ∧ Method.pend .apply = .apply) ∧
  (∀ (p : Port) (h : HandedRequest) (rest : List HandedRequest) (s : State) (first method : Nat) (recs : List RoomParam),
     s.asks p h rest → h.req = .stageRooms first recs method →
     (method = 1 → s.clockSet .rzt = false → exec (.stageRooms p) s = .next (s.answered p h rest .clockUnset [])) ∧
     ((method = 1 → s.clockSet .rzt = true) →
       (127 < first ∨ recs = [] ∨ 16 < recs.length ∨ 128 < first + recs.length ∨ 2 < method ∨ (∃ q ∈ recs, RoomParam.judge q = none) →
         exec (.stageRooms p) s = .next (s.answered p h rest .badParam [])) ∧
       (∀ (rs : List RoomRec) (m : Method), first ≤ 127 → 1 ≤ recs.length → recs.length ≤ 16 → first + recs.length ≤ 128 →
         methodOf method = some m → recs.map RoomParam.judge = rs.map some →
         let staged := writeFrom s.rzt.stagedRooms first rs
         let named := (List.finRange 128).filter (fun r => first ≤ r.val ∧ r.val < first + recs.length)
         let shares (a b : Room) : Prop := a ≠ b ∧ ∃ x, (staged[a]).panel = some x ∧ (staged[b]).panel = some x
         let u := (s.took p rest).setRzt { s.rzt with stagedRooms := staged, roomMethod := m.pend }
         let diff := e1 (roomsDiffering staged s.rzt.rooms)
         (∀ r : Room, staged[r] = ((if first ≤ r.val then rs[r.val - first]? else none).getD s.rzt.stagedRooms[r])) ∧
         (∀ a b, panelConflict staged named = some (a, b) ↔
           a ∈ named ∧ shares a b ∧ (∀ b', shares a b' → b ≤ b') ∧ ∀ a' ∈ named, a' < a → ∀ b', ¬shares a' b') ∧
         (panelConflict staged named = none ↔ ∀ a ∈ named, ∀ b, ¬shares a b) ∧
         (∀ a b, panelConflict staged named = some (a, b) →
           exec (.stageRooms p) s = .next (s.answered p h rest .stageInvalid (eRoom a ++ eRoom b))) ∧
         (panelConflict staged named = none → m ≠ .immediate → exec (.stageRooms p) s = .next (answer p h.reqno .ok diff u)) ∧
         (panelConflict staged named = none → m = .immediate →
           let sig := applySignal true false u
           let v := handConfig sig (makeActive true false u)
           exec (.stageRooms p) s = .next (v.setRzt
             { v.rzt with
               waits := v.rzt.waits ++
                 [{ port := p, reqno := h.reqno, payload := diff ++ e1 sig.changed.length,
                    left := mapV List.length v.wires.config }] }))))) ∧
  (∀ q : RoomParam,
     (RoomParam.judge q = none ↔ 15 < q.bldg ∨ 4095 < q.travel ∨ (∃ n, q.panel = some n ∧ 127 < n) ∨
       ∃ n, (q.k1 = some n ∨ q.k2 = some n) ∧ 3 < n) ∧
     (∀ x, RoomParam.judge q = some x → x.cap = q.cap ∧ x.bldg = q.bldg ∧ x.label = q.label ∧
       x.panel.map (fun a => a.line.val * 32 + a.addr.val) = q.panel ∧ x.k1.map Fin.val = q.k1 ∧ x.k2.map Fin.val = q.k2 ∧
       ∀ b : Fin 4, x.travel[b] = q.travel / 8 ^ b.val % 8)) ∧
  (∀ (p : Port) (h : HandedRequest) (rest : List HandedRequest) (s : State) (b1 b2 b3 b4 method : Nat) (prms : List ZoneParam),
     s.asks p h rest → h.req = .stageZones b1 b2 b3 b4 prms method →
     (method = 1 → s.clockSet .rzt = false → exec (.stageZones p) s = .next (s.answered p h rest .clockUnset [])) ∧
     ((method = 1 → s.clockSet .rzt = true) →
       (method = 0 ∨ 2 < method ∨ 128 < b1 ∨ 128 < b2 ∨ 128 < b3 ∨ 128 < b4 ∨ (∃ q ∈ prms, ZoneParam.judge q = none) →
         exec (.stageZones p) s = .next (s.answered p h rest .badParam [])) ∧
       (∀ (as : List (ZoneAttr × Nat)) (attrs : Vector ZoneAttr 5), method = 1 ∨ method = 2 → b1 ≤ 128 → b2 ≤ 128 → b3 ≤ 128 → b4 ≤ 128 →
         prms.map ZoneParam.judge = as.map some → attrs.toList = as.map Prod.fst →
         (¬(b1 ≤ b2 ∧ b2 ≤ b3 ∧ b3 ≤ b4) → exec (.stageZones p) s = .next (s.answered p h rest .stageInvalid [])) ∧
         (b1 ≤ b2 → b2 ≤ b3 → b3 ≤ b4 →
           exec (.stageZones p) s = .next (answer p h.reqno .ok (e1 (as.map Prod.snd).sum) ((s.took p rest).setRzt
             { s.rzt with
               stagedZones := { b1 := b1, b2 := b2, b3 := b3, b4 := b4, attrs := attrs }
               zoneMethod := if method = 1 then .rollover else .apply })))))) ∧
  (∀ q : ZoneParam,
     let moved (a b : Nat) : Nat := if a = b then 0 else 1
     (ZoneParam.judge q = none ↔ 1 < q.kind ∨ 7 < q.bookers ∨ 1 < q.autorelease ∨ 1 < q.presenceCheckin ∨ 1 < q.badgeOnly) ∧
     (∀ x n, ZoneParam.judge q = some (x, n) →
       x = { kind := if q.kind = 0 then .pooled else .named
             bookers := ⟨q.bookers.testBit 0, q.bookers.testBit 1, q.bookers.testBit 2⟩
             e := min q.e 6, g := max 1 (min q.g 6), h := if q.h = 1 then 2 else min q.h 12, autorelease := q.autorelease = 1,
             presenceCheckin := q.presenceCheckin = 1, badgeOnly := q.badgeOnly = 1, w := min q.w 15 } ∧
       n = moved x.e q.e + moved x.g q.g + moved x.h q.h + moved x.w q.w)) ∧
  (∀ (p : Port) (h : HandedRequest) (rest : List HandedRequest) (s : State) (first method : Nat) (recs : List KitchenParam),
     s.asks p h rest → h.req = .stageKitchen first recs method →
     (method = 1 → s.clockSet .kpl = false → exec (.stageKitchen p) s = .next (s.answered p h rest .clockUnset [])) ∧
     ((method = 1 → s.clockSet .kpl = true) →
       (3 < first ∨ recs = [] ∨ 4 < recs.length ∨ 4 < first + recs.length ∨ 2 < method ∨ (∃ q ∈ recs, KitchenParam.judge q = none) →
         exec (.stageKitchen p) s = .next (s.answered p h rest .badParam [])) ∧
       (∀ (rs : List (KitchenRec × Nat)) (m : Method), first ≤ 3 → 1 ≤ recs.length → recs.length ≤ 4 → first + recs.length ≤ 4 →
         methodOf method = some m → recs.map KitchenParam.judge = rs.map some →
         let staged := writeFrom s.kpl.staged first (rs.map Prod.fst)
         let clamped := e1 (rs.map Prod.snd).sum
         let u := (s.took p rest).setKpl { s.kpl with staged := staged, method := m.pend }
         (∀ k : Kitchen, staged[k] = ((if first ≤ k.val then (rs.map Prod.fst)[k.val - first]? else none).getD s.kpl.staged[k])) ∧
         (m ≠ .immediate → exec (.stageKitchen p) s = .next (answer p h.reqno .ok clamped u)) ∧
         (m = .immediate → exec (.stageKitchen p) s = .next
           (answer p h.reqno .ok (clamped ++ e1 (changedKitchens u).length) (kitchenApply s.kplDay s.kplBucket u)))))) ∧
  (∀ (s : State) (w : ConfigWait), w ∈ s.rzt.waits → (∀ i : Fin 6, w.left[i] = 0) →
     ⟨w.reqno, .ok, w.payload⟩ ∈ (settleConfig s).wires.answers[w.port] ∧ w ∉ (settleConfig s).rzt.waits) ∧
  (∀ q : KitchenParam,
     let moved (a b : Nat) : Nat := if a = b then 0 else 1
     (KitchenParam.judge q = none ↔ 1 < q.enabled) ∧
     (∀ x n, KitchenParam.judge q = some (x, n) →
       x = { capb := q.capb, lead := max 1 (min q.lead 16), lateMargin := max 1 (min q.lateMargin 6), enabled := q.enabled = 1 } ∧
       n = moved x.lead q.lead + moved x.lateMargin q.lateMargin))

/-- 02 R32: STAGE_DISCARD, for FACILITIES alone, makes the named staged copies equal to the active ones with nothing pending; no table
becomes active and no signal is handed. -/
def Obligations.StageDiscardDoesR32 : Prop :=
  ∀ (p : Port) (h : HandedRequest) (rest : List HandedRequest) (s : State) (table : Nat),
    s.asks p h rest → h.req = .stageDiscard table →
    (∀ role, (Request.stageDiscard table).permitted role = true ↔ role = .facilities) ∧
    (2 < table → exec (.stageDiscard p) s = .next (s.answered p h rest .badParam [])) ∧
    (table ≤ 2 → exec (.stageDiscard p) s = .next (answer p h.reqno .ok [] ((s.took p rest).setRzt
      { s.rzt with
        stagedRooms := if table = 0 ∨ table = 2 then s.rzt.rooms else s.rzt.stagedRooms
        roomMethod := if table = 0 ∨ table = 2 then .none else s.rzt.roomMethod
        stagedZones := if table = 1 ∨ table = 2 then s.rzt.zones else s.rzt.stagedZones
        zoneMethod := if table = 1 ∨ table = 2 then .none else s.rzt.zoneMethod })))

/-- The changed rooms of an apply are those whose record, zone, zone's attributes or zone's effective kind the apply alters (02 R33). APPLY
(02 R31, R34, 07 R134): ROOMS, ZONES or BOTH become active together with the signal for changed rooms, the answer waiting for its receivers:
each signal that a receiver takes is counted off, and with nothing left to count the port is answered OK with the payload kept for it;
KITCHENS becomes active at the planner; any other code is BAD_PARAM. Making tables active (02 R24): the active copy becomes the staged one,
with nothing pending. The kitchen table so made active hands KITCHEN_OVERLOAD for each changed kitchen of which a bucket not passed holds
more than its new CAPB, with the first such bucket (07 R134, R135). TABLE_ROLLOVER_APPLY (02 R30, 01 R4): RZT takes its tick; at the
rollover the tables pending under ROLLOVER become active together, with the signal; any other tick only moves RZT's copy of the time. That
TABLE_ROLLOVER_APPLY takes any tick (log 8), and the order of the KITCHEN_OVERLOAD notices, by ascending kitchen (log 54), are the model's
choices. -/
def Obligations.StagedTablesBecomeActive : Prop :=
  (∀ (doRooms doZones : Bool) (s : State) (r : Room),
     let rooms' := if doRooms then s.rzt.stagedRooms else s.rzt.rooms
     let zones' := if doZones then s.rzt.stagedZones else s.rzt.zones
     let k := s.rzt.zones.zoneOf r
     let k' := zones'.zoneOf r
     (r ∈ (applySignal doRooms doZones s).changed ↔
       s.rzt.rooms[r] ≠ rooms'[r] ∨ k ≠ k' ∨ s.rzt.zones.attrs[k] ≠ zones'.attrs[k'] ∨
         effKind s.rzt.rooms s.rzt.zones k ≠ effKind rooms' zones' k') ∧
     (r ∈ (applySignal doRooms doZones s).panelChanged ↔
       r ∈ (applySignal doRooms doZones s).changed ∧ (s.rzt.rooms[r]).panel ≠ (rooms'[r]).panel) ∧
     makeActive doRooms doZones s = s.setRzt
       { s.rzt with
         rooms := rooms'
         zones := zones'
         roomMethod := if doRooms then .none else s.rzt.roomMethod
         zoneMethod := if doZones then .none else s.rzt.zoneMethod }) ∧
  (∀ (base c : Nat) (s : State),
     let overload (k : Kitchen) (i : Fin 192) : HandedNotice :=
       { note := { kind := .kitchenOverload, date := s.now .kpl, booking := none, order := none, room := none, panel := none,
                   detail := detail2 k.val i.val },
         dated := true, owner := none, cause := none }
     let changed := (List.finRange 4).filter (fun k => decide (s.kpl.kitchens[k] ≠ s.kpl.staged[k]))
     let ns := changed.filterMap (fun k =>
       ((List.finRange 192).find? (fun i => decide ((s.kpl.staged[k]).capb < (s.kpl.maps[k])[i] ∧ c ≤ base * 96 + i.val))).map (overload k))
     changedKitchens s = changed ∧
       kitchenApply base c s = (s.setKpl { s.kpl with kitchens := s.kpl.staged, method := .none }).setWires
         { s.wires with notices := modAt s.wires.notices (producerIx .kpl) (· ++ ns) }) ∧
  (∀ (p : Port) (h : HandedRequest) (rest : List HandedRequest) (s : State) (table : Nat),
     s.asks p h rest → h.req = .apply table →
     let u := s.took p rest
     let sig := applySignal (table != 1) (table != 0) s
     let v := handConfig sig (makeActive (table != 1) (table != 0) u)
     (3 < table → exec (.apply p) s = .next (s.answered p h rest .badParam [])) ∧
     (table = 3 → exec (.apply p) s = .next
       (answer p h.reqno .ok (e1 (changedKitchens s).length) (kitchenApply s.kplDay s.kplBucket u))) ∧
     (table ≤ 2 → sig.changed = [] →
       exec (.apply p) s = .next (answer p h.reqno .ok (e1 0) (makeActive (table != 1) (table != 0) u))) ∧
     (table ≤ 2 → sig.changed ≠ [] → exec (.apply p) s = .next (v.setRzt
       { v.rzt with
         waits := v.rzt.waits ++
           [{ port := p, reqno := h.reqno, payload := e1 sig.changed.length, left := mapV List.length v.wires.config }] }))) ∧
  (∀ (i : Fin 6) (s : State), popConfig i s =
     (s.setWires { s.wires with config := modAt s.wires.config i List.tail }).setRzt
       { s.rzt with waits := s.rzt.waits.map (fun w => { w with left := modAt w.left i (· - 1) }) }) ∧
  (∀ s : State,
     let due (w : ConfigWait) : Bool := decide (∀ i : Fin 6, w.left[i] = 0)
     let t := settleConfig s
     t.rzt = { s.rzt with waits := s.rzt.waits.filter (fun w => !due w) } ∧
       (∀ p : Port, t.wires.answers[p] = s.wires.answers[p] ++
         (s.rzt.waits.filter (fun w => due w && decide (w.port = p))).map (fun w => ⟨w.reqno, .ok, w.payload⟩)) ∧
       t.wires = { s.wires with answers := t.wires.answers } ∧ Only [.rzt, .wires] s t) ∧
  (∀ (s : State) (c : Clock), s.timeHead .rzt = some (.tick c) →
     let u := s.ticked .rzt c
     let rooms : Bool := s.rzt.roomMethod = .rollover
     let zones : Bool := s.rzt.zoneMethod = .rollover
     (c.minute ≠ 0 ∨ (rooms = false ∧ zones = false) → exec .tableRolloverApply s = .next (settleTime u)) ∧
     (c.minute = 0 → rooms = true ∨ zones = true →
       exec .tableRolloverApply s = .next (settleTime (handConfig (applySignal rooms zones s) (makeActive rooms zones u)))))

/-- QUERY_TIME, QUERY_ROOMS, QUERY_ZONES, QUERY_USAGE, QUERY_LINE, QUERY_KITCHEN, QUERY_ORDER, QUERY_NOTICES and QUERY_POWER answer OK with
what stands and change nothing (01 R12, 02 R35, 04 R80, 05 R103, 07 R140, R162, 08 R173, 10 R194); the answer's octets are those of log 16
where the manual gives no encoding. What the same queries refuse: BAD_PARAM for a copy, a place or a count outside its range, and UNKNOWN
for a stale Order ID; nothing changes (02 R35, 04 R80, 05 R103, 07 R140, R141). The octets of the answers are the model's choice where the
manual gives no encoding (log 16), and 1 is the octet of a set flag (log 57). A list in an answer has the count of 11 R196 before it and a
fixed set has none (log 17): the model's choice. -/
def Obligations.QueriesAnswerAndChangeNothing : Prop :=
  (∀ (p : Port) (h : HandedRequest) (rest : List HandedRequest) (s : State), s.asks p h rest →
     (h.req = .queryTime → s.ctu.resync = none → exec (.queryTime p) s = .next (s.answered p h rest .ok
       (eClock s.ctu.clock ++ e1 s.ctu.cstate.toNat ++ e1 s.ctu.slew ++ e1 (s.ctu.clock.day % 7)))) ∧
     (∀ copy first n, h.req = .queryRooms copy first n → copy ≤ 1 → first ≤ 127 → 1 ≤ n → n ≤ 16 → first + n ≤ 128 →
       exec (.queryRooms p) s = .next (s.answered p h rest .ok
         (eList eRoomRec (((if copy = 0 then s.rzt.rooms else s.rzt.stagedRooms).toList.drop first).take n) ++
           e1 s.rzt.roomMethod.toNat))) ∧
     (∀ copy, h.req = .queryZones copy → copy ≤ 1 →
       let z := if copy = 0 then s.rzt.zones else s.rzt.stagedZones
       let rooms := if copy = 0 then s.rzt.rooms else s.rzt.stagedRooms
       exec (.queryZones p) s = .next (s.answered p h rest .ok
         (e1 z.b1 ++ e1 z.b2 ++ e1 z.b3 ++ e1 z.b4 ++ z.attrs.toList.flatMap eZoneAttr ++
           (List.finRange 5).flatMap (fun k =>
             e1 (z.roomsOf k).length ++ e1 (usableRooms rooms z k).length ++ e1 (effKind rooms z k).toNat) ++
           e1 s.rzt.zoneMethod.toNat))) ∧
     (∀ first n, h.req = .queryUsage first n → first ≤ 127 → 1 ≤ n → n ≤ 32 → first + n ≤ 128 →
       exec (.queryUsage p) s = .next (s.answered p h rest .ok
         (eList (fun x => e2 x.1 ++ e1 x.2.toNat) (((s.psl.usage.toList.zip s.psl.basis.toList).drop first).take n) ++
           e1 s.psl.levelDay ++ eOpt e2 s.psl.lastHalved))) ∧
     (∀ l : Line, h.req = .queryLine l.val →
       exec (.queryLine p) s = .next (s.answered p h rest .ok
         ((s.line l).ctx.toList.flatMap ctxItems ++ e2 (s.line l).crcCount ++ e2 (s.line l).timeoutCount ++
           eOpt (fun t : Addr × TrapKind => e1 t.1.val ++ e1 t.2.toNat) (s.line l).trap))) ∧
     (∀ (k : Kitchen) (first n : Nat), h.req = .queryKitchen k.val first n → first ≤ 191 → 1 ≤ n → n ≤ 32 → first + n ≤ 192 →
       exec (.queryKitchen p) s = .next (s.answered p h rest .ok
         (eKitchen s.kpl.kitchens[k] ++ eKitchen s.kpl.staged[k] ++ e1 s.kpl.method.toNat ++ e4 (s.kplDay * 96) ++
           eList (fun l => e2 l ++ e2 ((s.kpl.kitchens[k]).capb - l)) (((s.kpl.maps[k]).toList.drop first).take n)))) ∧
     (∀ (id : OrderId) (o : OrderRec), h.req = .queryOrder id → NamedOrder s id o →
       exec (.queryOrder p) s = .next (s.answered p h rest .ok (orderItems id o s))) ∧
     (h.req = .queryNotices → exec (.queryNotices p) s = .next (s.answered p h rest .ok
       (s.nrt.routes.toList.flatMap eRoute ++
         (List.finRange 4).flatMap (fun x => e1 (s.nrt.queues[x]).length ++ eFlag s.nrt.lost[x])))) ∧
     (h.req = .queryPower → exec (.queryPower p) s = .next (s.answered p h rest .ok
       (e1 s.pwc.sstate.toNat ++ e2 s.pwc.qStart ++ e2 s.pwc.qEnd ++ eFlag s.pwc.auto ++
         eOpt (fun c => e1 c.toNat) s.pwc.lastCause ++ eOpt eClock s.pwc.lastChange)))) ∧
  (∀ (p : Port) (h : HandedRequest) (rest : List HandedRequest) (s : State), s.asks p h rest →
     (∀ copy first n, h.req = .queryRooms copy first n → 1 < copy ∨ 127 < first ∨ n = 0 ∨ 16 < n ∨ 128 < first + n →
       exec (.queryRooms p) s = .next (s.answered p h rest .badParam [])) ∧
     (∀ copy, h.req = .queryZones copy → 1 < copy → exec (.queryZones p) s = .next (s.answered p h rest .badParam [])) ∧
     (∀ first n, h.req = .queryUsage first n → 127 < first ∨ n = 0 ∨ 32 < n ∨ 128 < first + n →
       exec (.queryUsage p) s = .next (s.answered p h rest .badParam [])) ∧
     (∀ l, h.req = .queryLine l → 3 < l → exec (.queryLine p) s = .next (s.answered p h rest .badParam [])) ∧
     (∀ k first n, h.req = .queryKitchen k first n → 3 < k ∨ 191 < first ∨ n = 0 ∨ 32 < n ∨ 192 < first + n →
       exec (.queryKitchen p) s = .next (s.answered p h rest .badParam [])) ∧
     (∀ id, h.req = .queryOrder id → resolveOrder id s = none →
       exec (.queryOrder p) s = .next (s.answered p h rest .unknown [])))

/-- SET_QUIET (10 R190): minutes of the day that differ replace the schedule with AUTO; anything else is BAD_PARAM and leaves it; SSTATE
does not change. SET_LEVELLING_DAY (04 R79): a weekday of 0..6 becomes LEVEL_DAY; no counter changes. ROUTE_SET (08 R172): the carried
values replace the entry whole and the answer carries it; an index above 15, an unknown kind, a zone above 4 or a port above AP3 is
BAD_PARAM and changes nothing. That an AUTO, ENABLED or other flag above 1 is BAD_PARAM (log 18), and that 1 is *on* (log 57), are the
model's choices. -/
def Obligations.SettingsReplaceTheirValues : Prop :=
  (∀ (p : Port) (h : HandedRequest) (rest : List HandedRequest) (s : State) (qStart qEnd auto : Nat),
     s.asks p h rest → h.req = .setQuiet qStart qEnd auto →
     (∀ role, (Request.setQuiet qStart qEnd auto).permitted role = true ↔ role = .facilities) ∧
     (1439 < qStart ∨ 1439 < qEnd ∨ 1 < auto ∨ qStart = qEnd →
       exec (.setQuiet p) s = .next (s.answered p h rest .badParam [])) ∧
     (qStart ≤ 1439 → qEnd ≤ 1439 → auto ≤ 1 → qStart ≠ qEnd → exec (.setQuiet p) s = .next
       (answer p h.reqno .ok (e2 qStart ++ e2 qEnd ++ e1 auto)
         ((s.took p rest).setPwc { s.pwc with qStart := qStart, qEnd := qEnd, auto := auto = 1 })))) ∧
  (∀ (p : Port) (h : HandedRequest) (rest : List HandedRequest) (s : State) (w : Nat),
     s.asks p h rest → h.req = .setLevellingDay w →
     (6 < w → exec (.setLevellingDay p) s = .next (s.answered p h rest .badParam [])) ∧
     (w ≤ 6 → exec (.setLevellingDay p) s = .next
       (answer p h.reqno .ok (e1 w ++ eOpt e2 s.psl.lastHalved) ((s.took p rest).setPsl { s.psl with levelDay := w })))) ∧
  (∀ (p : Port) (h : HandedRequest) (rest : List HandedRequest) (s : State) (index kind zones ports enabled : Nat),
     s.asks p h rest → h.req = .routeSet index kind zones ports enabled →
     (15 < index ∨ (kind ≠ 255 ∧ 28 ≤ kind) ∨ 31 < zones ∨ 15 < ports ∨ 1 < enabled →
       exec (.routeSet p) s = .next (s.answered p h rest .badParam [])) ∧
     (∀ i : Fin 16, index = i.val → kind = 255 ∨ kind < 28 → zones ≤ 31 → ports ≤ 15 → enabled ≤ 1 →
       let r : Route :=
         { kind := if kind = 255 then none else NoticeKind.all[kind]?
           zones := (List.finRange 5).filter (fun k => zones.testBit k.val)
           ports := (List.finRange 4).filter (fun k => ports.testBit k.val)
           enabled := enabled = 1 }
       exec (.routeSet p) s =
         .next (answer p h.reqno .ok (eRoute r) ((s.took p rest).setNrt { s.nrt with routes := put s.nrt.routes i r }))))

/-! ## The pool selector -/

/-- A candidate (04 R71): in the zone, large enough, with no entry overlapping the span, and not the excluded room. 04 R72: the score, the
choice of the lowest score and of the lowest index among equal ones, *none* with no candidate, and the bound of a score. -/
def Obligations.ChoiceFollowsR71AndR72 : Prop :=
  (∀ (s : State) (c : Choice) (r : Room),
     candidate s c r = true ↔
       s.rzt.zones.zoneOf r = c.zone ∧ c.attendees ≤ (s.roomRec r).cap ∧
         (∀ e ∈ s.schedule r, e.stop ≤ c.span.start ∨ c.span.start + c.span.len ≤ e.start) ∧ c.excluded ≠ some r) ∧
  (∀ (s : State) (c : Choice),
     (∀ r, candidate s c r = true →
       c.attendees ≤ (s.roomRec r).cap ∧
       score s c r = s.psl.usage[r] + (s.zoneAttr c.zone).w * ((s.roomRec r).cap - c.attendees) ∧
       (s.psl.usage[r] ≤ 65535 → (s.zoneAttr c.zone).w ≤ 15 → (s.roomRec r).cap ≤ 255 → 1 ≤ c.attendees → score s c r ≤ 69345)) ∧
     (∀ r n, choose s c = some (r, n) ↔
       candidate s c r = true ∧ n = score s c r ∧
         ∀ r', candidate s c r' = true → score s c r < score s c r' ∨ (score s c r = score s c r' ∧ r.val ≤ r'.val)) ∧
     (choose s c = none ↔ ∀ r, candidate s c r = false))

/-- USAGE_COUNT and LEVELLING_HALVING (04 R74 to R78, 01 R4): PSL takes its tick; the halving of the levelling weekday's rollover comes
first, then the count of a slot boundary by each room's basis. The body that a basis looks at is read with its check (03 R62); over sound
bodies the reads change nothing. The basis of a room's count, by the first matching row (04 R74). That either row may take the tick that
both name (log 8), and that the reads of all rooms come before the count (log 35), by ascending room (log 54), are the model's choices. -/
def Obligations.UsageIsHalvedThenCounted : Prop :=
  (∀ (s : State) (c : Clock), s.timeHead .psl = some (.tick c) →
     let due := c.minute = 0 ∧ c.day % 7 = s.psl.levelDay
     let v := (List.finRange 128).foldl readForUsage (s.ticked .psl c)
     ∃ t : State, exec .usageCount s = .next t ∧ (due → exec .levellingHalving s = .next t) ∧ t.timeOf .psl = ⟨c, (s.timeOf .psl).status⟩ ∧
       t.wires.time = put s.wires.time (blockIx .psl) s.wires.time[blockIx .psl].tail ∧
       t.psl.levelDay = s.psl.levelDay ∧ t.psl.lastHalved = (if due then some c.day else s.psl.lastHalved) ∧
       t.book = (if c.minute % 5 = 0 then v.book else s.book) ∧
       (∀ r : Room,
         let kept := if due then s.psl.usage[r] / 2 else s.psl.usage[r]
         (c.minute % 5 = 0 → t.psl.basis[r] = basisOf v r ∧
           t.psl.usage[r] = if basisOf v r = .none then kept else min (kept + 1) 65535) ∧
         (c.minute % 5 ≠ 0 → t.psl.basis[r] = s.psl.basis[r] ∧ t.psl.usage[r] = kept)) ∧
       ((∀ r : Room, ∀ e ∈ s.schedule r, e.summary = .active → (s.bookRec e.index).body.faults = 0) →
         v.book = s.book ∧ ∀ r, basisOf v r = basisOf s r) ∧
       Only [.times, .psl, .ctu, .book, .wires] s t) ∧
  (∀ (s : State) (r : Room),
     let panel := (s.roomRec r).panel = none ∨ s.panelOnline r = false ∨ s.pwc.sstate = .retain
     (s.ocu.presence[r] = .occupied → basisOf s r = .occupied ∧ readForUsage s r = s) ∧
     (s.ocu.presence[r] ≠ .occupied →
       (¬panel → basisOf s r = .none ∧ readForUsage s r = s) ∧
       (panel → (∀ e ∈ s.schedule r, e.summary ≠ .active) → basisOf s r = .none ∧ readForUsage s r = s) ∧
       (panel → ∀ e, (s.schedule r).find? (fun x => x.summary = .active) = some e →
         readForUsage s r = (if (s.bookRec e.index).life = .live then (readBody e.index s).2 else s) ∧
         basisOf s r = if (s.bookRec e.index).body.unverified then .unverified else .booked)))

/-! ## The book: requests -/

/-- Reading a body (03 R62): no fault, it is used as read; one faulty bit, it is corrected and the count rises; two, LIFE becomes DAMAGED,
the summary of the record's entry in its room's schedule becomes DAMAGED with it, the trap takes the index if empty, and RECORD_DAMAGED is
handed with the handle, the room, the owner and ORDER where present, without a causing port. Allocating a record (03 R37, R39): the record
is written whole and live with no ORDER and PENDING NONE, its generation kept, and its entry stands in the room's schedule in START order
with every entry that stood there; the free record taken is the lowest. An entry changed stands in START order and its room is indicated. A
notice about a record (08 R163) has the book's date, the handle, ORDER where present, the room and the owner port of its schedule entry,
none for PANEL, and the causing port named. Freeing a record (03 R37): its entries go, *booking left* is handed when ORDER is present, the
generation advances, and the notice carries the handle as it was; nothing else changes. CHECK is kept as the count of faulty bits (log 10),
the notice of a freed record names no order (log 12), and a freed record holds a blank body (log 42): the model's choices. -/
def Obligations.RecordsAreReadAllocatedAndFreed : Prop :=
  (∀ (i : BookIx) (s : State),
     let b := (s.bookRec i).body
     (b.faults = 0 → readBody i s = (some b, s)) ∧
     (b.faults = 1 →
       readBody i s =
         (some { b with faults := 0 }, s.setBook
           { s.book with
             records := put s.book.records i { s.bookRec i with body := { b with faults := 0 } }
             corrected := min (s.book.corrected + 1) 65535 })) ∧
     (2 ≤ b.faults →
       ∃ t, readBody i s = (none, t) ∧ (t.bookRec i).life = .damaged ∧ (t.bookRec i).gen = (s.bookRec i).gen ∧
         (t.bookRec i).order = (s.bookRec i).order ∧ (∀ j, j ≠ i → t.bookRec j = s.bookRec j) ∧
         t.book.trap = s.book.trap.or (some i) ∧ t.book.corrected = s.book.corrected ∧
         (t.schedule (s.roomOf i)).Perm ((s.schedule (s.roomOf i)).map
           (fun e => if e.index = i ∧ e.summary ≠ .claim then { e with summary := .damaged } else e)) ∧
         (∀ r, r ≠ s.roomOf i → t.schedule r = s.schedule r) ∧ t.wires.sched = s.wires.sched ++ [s.roomOf i] ∧
         t.wires.notices = modAt s.wires.notices (producerIx .rbk) (· ++
           [{ note := { kind := .recordDamaged, date := s.now .rbk, booking := some (s.handle i), order := (s.bookRec i).order,
                        room := some (s.roomOf i), panel := none, detail := if s.book.trap = none then 1 else 0 },
              dated := true, owner := (t.ownerOf i).port?, cause := none }]) ∧
         Only [.book, .wires] s t)) ∧
  (∀ (i : BookIx) (s : State),
     (∀ r e, s.entryOf i = some (r, e) →
       e ∈ s.schedule r ∧ e.index = i ∧ e.summary ≠ .claim ∧ s.roomOf i = r ∧ s.ownerOf i = e.owner) ∧
     (∀ r, ∀ e ∈ s.schedule r, e.index = i → e.summary ≠ .claim → s.entryOf i ≠ none)) ∧
  (∀ s : State, (s.freeIndex = none ↔ ∀ i, (s.bookRec i).life ≠ .free) ∧
     ∀ i, s.freeIndex = some i ↔ (s.bookRec i).life = .free ∧ ∀ j, j < i → (s.bookRec j).life ≠ .free) ∧
  (∀ (r : Room) (i : BookIx) (f : Entry → Entry) (x : Summary) (s : State),
     let t := changeEntry r i f s
     (t.schedule r).Perm ((s.schedule r).map (fun e => if e.index = i ∧ e.summary ≠ .claim then f e else e)) ∧
     ((s.schedule r).Pairwise (fun x y => x.start ≤ y.start) → (t.schedule r).Pairwise (fun x y => x.start ≤ y.start)) ∧
     (∀ r', r' ≠ r → t.schedule r' = s.schedule r') ∧ t.book = { s.book with schedules := t.book.schedules } ∧
     t.wires = { s.wires with sched := s.wires.sched ++ [r] } ∧ Only [.book, .wires] s t ∧
     setSummary i x s = changeEntry (s.roomOf i) i (fun e => { e with summary := x }) s) ∧
  (Owner.port? .panel = none ∧ ∀ p, Owner.port? (.port p) = some p) ∧
  (∀ (kind : NoticeKind) (i : BookIx) (detail : Nat) (cause : Option Port) (s : State),
     let note : HandedNotice :=
       { note := { kind := kind, date := s.now .rbk, booking := some ⟨i, (s.bookRec i).gen⟩, order := (s.bookRec i).order,
                   room := some (s.roomOf i), panel := none, detail := detail },
         dated := true, owner := (s.ownerOf i).port?, cause := cause }
     recordNotice kind i detail cause s =
       s.setWires { s.wires with notices := modAt s.wires.notices (producerIx .rbk) (· ++ [note]) }) ∧
  (∀ (i : BookIx) (b : Body) (s : State),
     let t := allocate i b s
     let e : Entry := { start := b.span.start, stop := b.span.start + b.span.len, index := i, owner := b.owner, summary := b.state.summary }
     t.book.records = put s.book.records i { body := b, life := .live, gen := (s.bookRec i).gen, order := none, pending := .none } ∧
     (∀ r, r ≠ b.room → t.schedule r = s.schedule r) ∧ (t.schedule b.room).Perm (e :: s.schedule b.room) ∧
     ((s.schedule b.room).Pairwise (fun x y => x.start ≤ y.start) → (t.schedule b.room).Pairwise (fun x y => x.start ≤ y.start)) ∧
     t.wires.sched = s.wires.sched ++ [b.room] ∧ Only [.book, .wires] s t) ∧
  (∀ (i : BookIx) (kind : NoticeKind) (detail : Nat) (cause : Option Port) (s : State),
     let t := freeRecord i kind detail cause s
     let room := s.roomOf i
     let note : HandedNotice :=
       { note := { kind := kind, date := s.now .rbk, booking := some (s.handle i), order := none, room := some room, panel := none,
                   detail := detail },
         dated := true, owner := (s.ownerOf i).port?, cause := cause }
     t.book =
       { s.book with
         records := put s.book.records i (BookRec.blank ((s.bookRec i).gen + 1))
         schedules := put s.book.schedules room ((s.schedule room).filter (fun e => e.index != i)) } ∧
     t.wires =
       { s.wires with
         sched := s.wires.sched ++ [room]
         toPlanner := s.wires.toPlanner ++ ((s.bookRec i).order.toList.map (fun o => .bookingLeft (s.handle i) o))
         notices := modAt s.wires.notices (producerIx .rbk) (· ++ [note]) } ∧
     Only [.book, .wires] s t)

/-- The book grants the first waiting requester after the one it granted last, in the order AP0, AP1, AP2, AP3, OCU (03 R41); while it waits
for the time-set of a RESYNC it grants none (R67). -/
def Obligations.GrantGoesRound : Prop :=
  ∀ s : State,
    let order : List Requester := [.port 0, .port 1, .port 2, .port 3, .ocu]
    (s.book.frozen = true → granted s = none) ∧
    (s.book.frozen = false → ∀ k : Fin 5, s.book.lastGrant = order[k] →
      (granted s = none ↔ ∀ n : Fin 5, bookWaiting s order[n] = false) ∧
      (∀ r, granted s = some r ↔
        ∃ d : Fin 5, r = order[k + 1 + d] ∧ bookWaiting s r = true ∧ ∀ d' : Fin 5, d' < d → bookWaiting s order[k + 1 + d'] = false))

/-- Requests about a record that no current handle names, that stands DAMAGED, or that a move holds are answered UNKNOWN, DAMAGED and
BUSY_RECORD and change nothing: MODIFY, CHECK_IN and ORDER with the clock set, CONFIRM and UNBLOCK in every clock status (03 R36). -/
def Obligations.StaleDamagedAndBusyRecords : Prop :=
  ∀ (p : Port) (h : HandedRequest) (rest : List HandedRequest) (s : State) (id : BookingId) (c : Instr),
    s.bookAsks p h rest →
    ((c = .confirm p ∧ h.req = .confirm id) ∨
      (c = .modify p ∧ (∃ a b d, h.req = .modify id a b d) ∧ s.clockSet .rbk = true) ∨
      (c = .checkIn p ∧ h.req = .checkIn id ∧ s.clockSet .rbk = true) ∨
      (c = .order p ∧ (∃ prm, h.req = .order id prm) ∧ s.clockSet .rbk = true) ∨
      (c = .unblock p ∧ h.req = .unblock id)) →
    let r := s.bookRec id.index
    (r.life = .free ∨ r.gen ≠ id.gen → exec c s = .next (s.bookAnswered p h rest .unknown [])) ∧
    (r.life = .damaged → r.gen = id.gen → exec c s = .next (s.bookAnswered p h rest .damaged [])) ∧
    (r.life = .live → r.gen = id.gen → r.pending = .move → exec c s = .next (s.bookAnswered p h rest .busyRecord []))

/-- HOLD and BOOK (03 R42, R43). The checks in order: CLOCK_UNSET; BAD_PARAM for a target, a start, a length, an attendee count or a hold
time outside its range; TOO_LATE for a span that has ended; HORIZON for one that starts, once clamped, beyond today + 14; then by the
target: NO_ROOM for a room or a zone not in service, DENIED for a requester its zone does not admit, CONFLICT with START and END of the
earliest entry that overlaps, NO_ROOM where PSL finds no candidate; BOOK_FULL with no free record. Else the named room or PSL's choice is
booked in the lowest free record, with the entry, the BOOKED notice and the answer. Who a zone admits (02 R19): FACILITIES always, CATERING
never. That a start above the greatest absolute slot is BAD_PARAM, beside R42's own cases (log 18), and the payload's octets (log 16), are
the model's choices. -/
def Obligations.HoldAndBookMakeRecords : Prop :=
  ((∀ (n : Nat) (hn : n < 128), TargetParam.judge ⟨0, n⟩ = some (.room ⟨n, hn⟩)) ∧
     (∀ (n : Nat) (hn : n < 5), TargetParam.judge ⟨1, n⟩ = some (.pool ⟨n, hn⟩)) ∧
     (∀ k n, 1 < k ∨ (k = 0 ∧ 127 < n) ∨ (k = 1 ∧ 4 < n) → TargetParam.judge ⟨k, n⟩ = none) ∧
     ∀ b : Bookers, b.admits .gateway = b.gateway ∧ b.admits .console = b.console ∧ b.admits .catering = false ∧
       b.admits .facilities = true) ∧
  ∀ (p : Port) (h : HandedRequest) (rest : List HandedRequest) (s : State) (target : TargetParam) (span : Span)
    (att disp : Nat) (org : BitVec 32) (hold : Option (Option Nat)) (c : Instr),
    s.bookAsks p h rest →
    (c = .book p ∧ h.req = .book target span att org disp ∧ hold = none ∨
      ∃ time, c = .hold p ∧ h.req = .hold target span att org disp time ∧ hold = some time) →
    let refused (code : Code) (items : List Byte) : Prop := exec c s = .next (s.bookAnswered p h rest code items)
    let bad : Prop := target.judge = none ∨ 18874367 < span.start ∨ span.len = 0 ∨ 96 < span.len ∨ att = 0 ∨ 255 < att ∨ hold = some (some 0)
    (s.clockSet .rbk = false → refused .clockUnset []) ∧ (s.clockSet .rbk = true → bad → refused .badParam []) ∧
    ∀ t, s.clockSet .rbk = true → ¬bad → target.judge = some t →
      (span.start + span.len ≤ s.bookSlot → refused .tooLate []) ∧
      ∀ sp : Span, s.bookSlot < span.start + span.len → sp.start = max span.start s.bookSlot → sp.start + sp.len = span.start + span.len →
        let overlap (r : Room) := (s.schedule r).find? (fun e => decide (e.start < sp.start + sp.len ∧ sp.start < e.stop))
        ((s.now .rbk).day + 14 < sp.start / 288 → refused .horizon []) ∧
        (sp.start / 288 ≤ (s.now .rbk).day + 14 →
          (∀ r, t = .room r →
            ((s.roomRec r).cap = 0 → refused .noRoom []) ∧
            ((s.roomRec r).cap ≠ 0 → (s.attrOf r).bookers.admits h.role = false → refused .denied []) ∧
            (∀ e, (s.roomRec r).cap ≠ 0 → (s.attrOf r).bookers.admits h.role = true → overlap r = some e →
              refused .conflict (e4 e.start ++ e4 e.stop))) ∧
          (∀ k, t = .pool k →
            (s.kindOf k = .named → refused .noRoom []) ∧
            (s.kindOf k = .pooled → (s.zoneAttr k).bookers.admits h.role = false → refused .denied []) ∧
            (s.kindOf k = .pooled → (s.zoneAttr k).bookers.admits h.role = true → choose s ⟨k, sp, att, none⟩ = none →
              refused .noRoom [])) ∧
          ∀ r, (t = .room r ∧ (s.roomRec r).cap ≠ 0 ∧ (s.attrOf r).bookers.admits h.role = true ∧ overlap r = none ∨
              ∃ k n, t = .pool k ∧ s.kindOf k = .pooled ∧ (s.zoneAttr k).bookers.admits h.role = true ∧
                choose s ⟨k, sp, att, none⟩ = some (r, n)) →
            (s.freeIndex = none → refused .bookFull []) ∧
            ∀ i, s.freeIndex = some i →
              let b : Body :=
                { Body.blank with
                  state := if hold.isSome then .held else .confirmed
                  room := r
                  span := sp
                  owner := .port p
                  organiser := some org
                  display := some disp
                  attendees := some att
                  holdExpiry := hold.map (fun time => s.bookMinute + min (time.getD 5) 30)
                  overCapacity := (s.roomRec r).cap < att
                  fromPool := t.isPool }
              let u := recordNotice .booked i (detail2 b.state.toNat t.isPool.toNat) (some p) (allocate i b (s.bookTook p rest))
              exec c s = .next (answer p h.reqno .ok
                (eBookingId (s.handle i) ++ eRoom r ++ eSpan sp ++ eFlags b ++ b.holdExpiry.elim [] e4) u))

/-- FIND_FREE (03 R45): the checks of the span as for a HOLD, then PSL's choice and its score for the prepared span; no record, entry or
notice. CLEAR_BOOK_STATS, QUERY_ROOM, QUERY_BOOKING and QUERY_BOOK_STATS (03 R64, R66): the corrected count and the trap are cleared; the
queries answer with what stands and change nothing but what the read of a body corrects or finds damaged (03 R62). A room above 127 is
BAD_PARAM; a stale booking is UNKNOWN, one that a move holds BUSY_RECORD, and a DAMAGED one DAMAGED with START, END and OWNER of its entry,
the room and the ORDER (03 R36, R66). The octets of CHECK, which the manual does not give, are a free value, whatever it is (log 10). The
payloads' octets (log 16), the counts before their lists (log 17), the counting by summary (log 40) and a continuation slot of any four
octets (log 56) are the model's choices. -/
def Obligations.FindFreeAndBookQueriesReport : Prop :=
  (∀ (p : Port) (h : HandedRequest) (rest : List HandedRequest) (s : State) (zone : Nat) (span : Span) (att : Nat),
     s.bookAsks p h rest → h.req = .findFree zone span att →
     let refused (code : Code) : Prop := exec (.findFree p) s = .next (s.bookAnswered p h rest code [])
     let bad : Prop := 4 < zone ∨ 18874367 < span.start ∨ span.len = 0 ∨ 96 < span.len ∨ att = 0 ∨ 255 < att
     (s.clockSet .rbk = false → refused .clockUnset) ∧ (s.clockSet .rbk = true → bad → refused .badParam) ∧
     (s.clockSet .rbk = true → ¬bad → span.start + span.len ≤ s.bookSlot → refused .tooLate) ∧
     (s.clockSet .rbk = true → ¬bad → s.bookSlot < span.start + span.len →
       (s.now .rbk).day + 14 < max span.start s.bookSlot / 288 → refused .horizon)) ∧
  (∀ (p : Port) (h : HandedRequest) (rest : List HandedRequest) (s : State) (k : Zone) (span sp : Span) (att : Nat),
     s.bookAsks p h rest → s.clockSet .rbk = true → h.req = .findFree k.val span att →
     span.start ≤ 18874367 → 1 ≤ span.len → span.len ≤ 96 → 1 ≤ att → att ≤ 255 →
     s.bookSlot < span.start + span.len → sp.start = max span.start s.bookSlot → sp.start + sp.len = span.start + span.len →
     sp.start / 288 ≤ (s.now .rbk).day + 14 →
     (s.kindOf k = .named → exec (.findFree p) s = .next (s.bookAnswered p h rest .noRoom [])) ∧
     (s.kindOf k = .pooled → (s.zoneAttr k).bookers.admits h.role = false →
       exec (.findFree p) s = .next (s.bookAnswered p h rest .denied [])) ∧
     (s.kindOf k = .pooled → (s.zoneAttr k).bookers.admits h.role = true →
       (choose s ⟨k, sp, att, none⟩ = none → exec (.findFree p) s = .next (s.bookAnswered p h rest .noRoom [])) ∧
       ∀ r n, choose s ⟨k, sp, att, none⟩ = some (r, n) →
         exec (.findFree p) s = .next (s.bookAnswered p h rest .ok (eRoom r ++ e4 n ++ eSpan sp)))) ∧
  (∀ (p : Port) (h : HandedRequest) (rest : List HandedRequest) (s : State), s.bookAsks p h rest →
     (h.req = .clearBookStats →
       let u := s.bookTook p rest
       exec (.clearBookStats p) s =
         .next (answer p h.reqno .ok [] (u.setBook { u.book with corrected := 0, trap := none }))) ∧
     (∀ (r : Room) (day : Nat) (from_ : Option Nat), h.req = .queryRoom r.val day from_ →
       let es := (s.schedule r).filter (fun e =>
         decide (e.start < day * 288 + 288 ∧ day * 288 < e.stop) && from_.all (fun c => decide (c ≤ e.start)))
       exec (.queryRoom p) s = .next (s.bookAnswered p h rest .ok
         (eOpt e4 s.book.releaseMarks[r] ++
           eList (fun e => e4 e.start ++ e4 e.stop ++ eBookingId (s.handle e.index) ++ e1 e.owner.toNat ++ e1 e.summary.toNat)
             (es.take 96) ++
           eOpt (fun e => e4 e.start) (es.drop 96).head?))) ∧
     (∀ room day from_, h.req = .queryRoom room day from_ → 127 < room →
       exec (.queryRoom p) s = .next (s.bookAnswered p h rest .badParam [])) ∧
     (∀ id, h.req = .queryBooking id →
       let i := id.index
       let r := s.bookRec i
       let u := s.bookTook p rest
       let v := (readBody i u).2
       let standing (x : State) : List Byte := (x.entryOf i).elim []
         (fun y => e4 y.2.start ++ e4 y.2.stop ++ e1 y.2.owner.toNat ++ eRoom y.1 ++ eOpt eOrderId r.order)
       let current := r.life = .live ∧ r.gen = id.gen ∧ r.pending ≠ .move
       (r.life = .free ∨ r.gen ≠ id.gen → exec (.queryBooking p) s = .next (s.bookAnswered p h rest .unknown [])) ∧
       (r.life = .damaged → r.gen = id.gen →
         exec (.queryBooking p) s = .next (s.bookAnswered p h rest .damaged (standing s))) ∧
       (r.life = .live → r.gen = id.gen → r.pending = .move →
         exec (.queryBooking p) s = .next (s.bookAnswered p h rest .busyRecord [])) ∧
       (current → 2 ≤ r.body.faults → exec (.queryBooking p) s = .next (answer p h.reqno .damaged (standing v) v)) ∧
       (current → r.body.faults = 1 →
         exec (.queryBooking p) s = .next (answer p h.reqno .ok (bookingItems i { r.body with faults := 0 } v) v))) ∧
     (∀ (i : BookIx) (b : Body),
       let body := e1 b.state.toNat ++ eRoom b.room ++ eSpan b.span ++ e1 b.owner.toNat ++ eOpt (fun o => e4 o.toNat) b.organiser ++
         eOpt e2 b.display ++ eOpt e1 b.attendees ++ eOpt e4 b.holdExpiry ++ eOpt e4 b.checkinMinute ++ eOpt e1 b.cause ++ eFlags b
       bookingItems i b s = body ++ Config.checkOctets body ++ eOpt eOrderId (s.bookRec i).order ++ e1 (s.bookRec i).pending.toNat ++ e1 b.state.toNat) ∧
     (∀ id b, h.req = .queryBooking id → NamedRecord s id b →
       exec (.queryBooking p) s = .next (s.bookAnswered p h rest .ok (bookingItems id.index b s))) ∧
     (h.req = .queryBookStats →
       exec (.queryBookStats p) s = .next (s.bookAnswered p h rest .ok
         (e2 (ixsWhere (fun r => r.life = .free) s.book.records).length ++ e2 (countState s .held) ++ e2 (countState s .confirmed) ++
           e2 (countState s .active) ++ e2 (countState s .block) ++ e2 (countState s .damaged) ++ e2 s.book.corrected ++
           eOpt (fun i => e2 i.val) s.book.trap ++ e2 s.book.scrub.val))))

/-- CONFIRM (03 R44): a HELD record of the requester's, or of any owner for CONSOLE and FACILITIES, becomes CONFIRMED with no hold expiry,
with CHANGED; another state is BAD_STATE, another requester DENIED. CANCEL (03 R46): a HELD, CONFIRMED or ACTIVE record is freed with
CANCELLED for its OWNER, CONSOLE or FACILITIES; a BLOCK is BAD_STATE, another requester DENIED; a DAMAGED record is freed for CONSOLE or
FACILITIES; while a move holds it the answer is BUSY_RECORD. UNBLOCK (03 R61): a BLOCK record is freed with CANCELLED, caused by the
requester, in every clock status; a record of another state is BAD_STATE. The octets of a record's flags in an answer are the model's choice
(log 16). -/
def Obligations.ConfirmCancelAndUnblock : Prop :=
  (∀ (p : Port) (h : HandedRequest) (rest : List HandedRequest) (s : State) (id : BookingId) (b : Body),
     s.bookAsks p h rest → h.req = .confirm id → NamedRecord s id b →
     let may := b.owner = .port p ∨ h.role = .console ∨ h.role = .facilities
     let u := setSummary id.index .confirmed
       (setBody id.index { b with holdExpiry := none, state := .confirmed } (s.bookTook p rest))
     (¬may → exec (.confirm p) s = .next (s.bookAnswered p h rest .denied [])) ∧
     (may → b.state ≠ .held → exec (.confirm p) s = .next (s.bookAnswered p h rest .badState [])) ∧
     (may → b.state = .held → exec (.confirm p) s = .next
       (answer p h.reqno .ok (eSpan b.span ++ eFlags b) (recordNotice .changed id.index 0 (some p) u)))) ∧
  (∀ (p : Port) (h : HandedRequest) (rest : List HandedRequest) (s : State) (id : BookingId),
     s.bookAsks p h rest → h.req = .cancel id →
     let r := s.bookRec id.index
     let privileged := h.role = .console ∨ h.role = .facilities
     let freed (state : Nat) := answer p h.reqno .ok [] (freeRecord id.index .cancelled state (some p) (s.bookTook p rest))
     (r.life = .free ∨ r.gen ≠ id.gen → exec (.cancel p) s = .next (s.bookAnswered p h rest .unknown [])) ∧
     (r.life ≠ .free → r.gen = id.gen → r.pending = .move → exec (.cancel p) s = .next (s.bookAnswered p h rest .busyRecord [])) ∧
     (∀ b, NamedRecord s id b →
       (b.owner ≠ .port p → ¬privileged → exec (.cancel p) s = .next (s.bookAnswered p h rest .denied [])) ∧
       (b.owner = .port p ∨ privileged → b.state = .block → exec (.cancel p) s = .next (s.bookAnswered p h rest .badState [])) ∧
       (b.owner = .port p ∨ privileged → b.state ≠ .block → exec (.cancel p) s = .next (freed b.state.toNat))) ∧
     (r.life = .damaged → r.gen = id.gen → r.pending ≠ .move →
       (privileged → exec (.cancel p) s = .next (freed Summary.damaged.toNat)) ∧
       (¬privileged → s.ownerOf id.index = .port p → exec (.cancel p) s = .next (s.bookAnswered p h rest .damaged [])) ∧
       (¬privileged → s.ownerOf id.index ≠ .port p → exec (.cancel p) s = .next (s.bookAnswered p h rest .denied [])))) ∧
  (∀ (p : Port) (h : HandedRequest) (rest : List HandedRequest) (s : State) (id : BookingId) (b : Body),
     s.bookAsks p h rest → h.req = .unblock id → NamedRecord s id b →
     (b.state = .block → exec (.unblock p) s = .next
       (answer p h.reqno .ok [] (freeRecord id.index .cancelled BState.block.toNat (some p) (s.bookTook p rest)))) ∧
     (b.state ≠ .block → exec (.unblock p) s = .next (s.bookAnswered p h rest .badState [])))

/-- What MODIFY refuses, in the order of its checks: CLOCK_UNSET before all others (01 R14), DENIED, BAD_STATE, BAD_PARAM, TOO_LATE, the
opened check-in window, HORIZON, BUSY_RECORD for an attach in flight, CONFLICT with the overlapping entry (03 R47). MODIFY (03 R47, R48):
with its checks passed, the span and attendees change at once, with CHANGED; a start change on a record with an order inserts the claim
entry, makes PENDING MOVE and hands the planner the move, with no answer yet. The model's choices: a carried start equal to the standing one
is judged as in these clauses (log 13), of several overlapping entries CONFLICT names the one of the earliest START (log 14), a start
outside the slots of a campus time is BAD_PARAM (log 18), the octets of the flags (log 16), and the serial number of the move (log 59). -/
def Obligations.ModifyChangesOrMoves : Prop :=
  (∀ (a : ModifyArg) (b : Body) (s : State),
     let now := s.bookSlot
     let sp : Span := ⟨a.start.getD b.span.start, a.len.getD b.span.len⟩
     let people := a.attendees.or b.attendees
     let bad := a.start.any (fun x => decide (18874367 < x)) = true ∨ a.len.any (fun n => decide (n = 0 ∨ 96 < n)) = true ∨
       a.attendees.any (fun n => decide (n = 0 ∨ 255 < n)) = true
     let moves := sp.start ≠ b.span.start
     let inTime := b.state ≠ .block ∧ ¬bad ∧
       (b.state = .active → ¬moves ∧ people = b.attendees ∧ now < sp.start + sp.len) ∧
       (b.state ≠ .active → ∀ x, a.start = some x → now ≤ x) ∧
       (b.state = .confirmed → moves → now + (s.attrOf b.room).e < b.span.start)
     let near := ∀ x, a.start = some x → x / 288 ≤ (s.now .rbk).day + 14
     let busy := moves ∧ (s.bookRec a.id.index).pending = .attach
     (b.state = .block → modifyRefused a b s = some (.badState, [])) ∧
     (b.state ≠ .block → bad → modifyRefused a b s = some (.badParam, [])) ∧
     (b.state = .active → ¬bad → moves ∨ people ≠ b.attendees → modifyRefused a b s = some (.badState, [])) ∧
     (b.state = .active → ¬bad → ¬moves → people = b.attendees → sp.start + sp.len ≤ now →
       modifyRefused a b s = some (.tooLate, [])) ∧
     (b.state = .held ∨ b.state = .confirmed → ¬bad → ∀ x, a.start = some x → x < now → modifyRefused a b s = some (.tooLate, [])) ∧
     (b.state = .confirmed → ¬bad → moves → now ≤ sp.start → b.span.start ≤ now + (s.attrOf b.room).e →
       modifyRefused a b s = some (.badState, [])) ∧
     (inTime → ¬near → modifyRefused a b s = some (.horizon, [])) ∧
     (inTime → near → busy → modifyRefused a b s = some (.busyRecord, [])) ∧
     (inTime → near → ¬busy → ∀ e, (s.schedule b.room).find? (fun x => x.index != a.id.index && x.overlaps sp) = some e →
       modifyRefused a b s = some (.conflict, e4 e.start ++ e4 e.stop)) ∧
     (inTime → near → ¬busy → (∀ x ∈ s.schedule b.room, x.index ≠ a.id.index →
         x.stop ≤ sp.start ∨ sp.start + sp.len ≤ x.start) →
       modifyRefused a b s = none)) ∧
  (∀ (p : Port) (h : HandedRequest) (rest : List HandedRequest) (s : State) (id : BookingId) (start len att : Option Nat),
     s.bookAsks p h rest → h.req = .modify id start len att → s.clockSet .rbk = false →
     exec (.modify p) s = .next (s.bookAnswered p h rest .clockUnset [])) ∧
  (∀ (p : Port) (h : HandedRequest) (rest : List HandedRequest) (s : State) (id : BookingId) (start len att : Option Nat) (b : Body),
     s.bookAsks p h rest → h.req = .modify id start len att → s.clockSet .rbk = true → NamedRecord s id b →
     let may := b.owner = .port p ∨ h.role = .console ∨ h.role = .facilities
     let sp : Span := ⟨start.getD b.span.start, len.getD b.span.len⟩
     let people := att.or b.attendees
     let i := id.index
     let b' := { b with
       span := sp
       attendees := people
       overCapacity := people.any (fun n => decide ((s.roomRec b.room).cap < n)) }
     (¬may → exec (.modify p) s = .next (s.bookAnswered p h rest .denied [])) ∧
     (may → ∀ c items, modifyRefused ⟨id, start, len, att⟩ b s = some (c, items) →
       exec (.modify p) s = .next (s.bookAnswered p h rest c items)) ∧
     (may → modifyRefused ⟨id, start, len, att⟩ b s = none →
       ((s.bookRec i).order = none ∨ sp.start = b.span.start →
         exec (.modify p) s = .next (answer p h.reqno .ok (eSpan sp ++ eFlags b')
           (recordNotice .changed i 1 (some p)
             (changeEntry b.room i (fun e => { e with start := sp.start, stop := sp.start + sp.len })
               (setBody i b' (s.bookTook p rest)))))) ∧
       (∀ o, (s.bookRec i).order = some o → sp.start ≠ b.span.start →
         let claim : Entry := { start := sp.start, stop := sp.start + sp.len, index := i, owner := b.owner, summary := .claim }
         let u := setPending i .move
           (setSchedule b.room (insertEntry claim (s.schedule b.room)) (s.bookTook p rest))
         exec (.modify p) s = .next (handPlanner (.move s.book.serial id o b.room sp.start (sp.start + sp.len) people)
           (u.setBook
             { u.book with
               exchanges := u.book.exchanges ++ [⟨s.book.serial, id, some (p, h.reqno), some (sp, people)⟩]
               serial := s.book.serial + 1 })))))

/-- CHECK_IN (03 R53, R52): CLOCK_UNSET while the book's clock is not set (01 R14); in the window of a CONFIRMED record, early it sets
EARLY_IN, from the start it makes the record ACTIVE, and the answer carries the record's new state; an UNVERIFIED meeting is verified; each
hands CHECKED_IN with the path of a request and tells OCU. One that is ACTIVE, or has EARLY_IN already, is answered OK, which carries
nothing (11 R196; log 15). That a record with EARLY_IN is answered OK also while its window is not open is the model's choice (log 63). -/
def Obligations.CheckInByRequest : Prop :=
  (∀ (p : Port) (h : HandedRequest) (rest : List HandedRequest) (s : State) (id : BookingId),
     s.bookAsks p h rest → h.req = .checkIn id → s.clockSet .rbk = false →
     exec (.checkIn p) s = .next (s.bookAnswered p h rest .clockUnset [])) ∧
  (∀ (p : Port) (h : HandedRequest) (rest : List HandedRequest) (s : State) (id : BookingId) (b : Body),
     s.bookAsks p h rest → h.req = .checkIn id → s.clockSet .rbk = true → NamedRecord s id b →
     let now := s.bookSlot
     let early := (s.attrOf b.room).e
     let grace := (s.attrOf b.room).g
     let i := id.index
     let u := s.bookTook p rest
     let b' := { b with checkinMinute := some s.bookMinute }
     let inWindow := b.span.start ≤ now + early ∧ now < b.span.start + grace
     (b.state = .held ∨ b.state = .block → exec (.checkIn p) s = .next (s.bookAnswered p h rest .badState [])) ∧
     (b.state = .confirmed → b.earlyIn = false →
       (now + early < b.span.start → exec (.checkIn p) s = .next (s.bookAnswered p h rest .badState [])) ∧
       (b.span.start + grace ≤ now → exec (.checkIn p) s = .next (s.bookAnswered p h rest .tooLate [])) ∧
       (inWindow → now < b.span.start → exec (.checkIn p) s = .next (answer p h.reqno .ok (e1 BState.confirmed.toNat)
         (recordNotice .checkedIn i (detail2 0 2) (some p) (handSched b.room (setBody i { b' with earlyIn := true } u))))) ∧
       (inWindow → b.span.start ≤ now → exec (.checkIn p) s = .next (answer p h.reqno .ok (e1 BState.active.toNat)
         (recordNotice .checkedIn i (detail2 1 2) (some p)
           (setSummary i .active (setBody i { b' with state := .active } u)))))) ∧
     (b.state = .confirmed → b.earlyIn = true → exec (.checkIn p) s = .next (s.bookAnswered p h rest .ok [])) ∧
     (b.state = .active → b.unverified = true → exec (.checkIn p) s = .next (answer p h.reqno .ok []
       (recordNotice .checkedIn i (detail2 2 2) (some p) (handSched b.room (setBody i { b' with unverified := false } u))))) ∧
     (b.state = .active → b.unverified = false → exec (.checkIn p) s = .next (s.bookAnswered p h rest .ok [])))

/-- ORDER (03 R56): CLOCK_UNSET while the book's clock is not set (01 R14); for a CONFIRMED or ACTIVE record without an order or attach the
book sends the attach, makes PENDING ATTACH and leaves the port waiting. ATTACH_ANSWER (03 R57): for a live record waiting on the attach the
order is written, or nothing; for one that is stale, DAMAGED or ABANDONED an order that came is dropped; the answer to an attach no longer
in flight is discarded (03 R67), told by the serial number of the attach, which is the model's own (log 59). ORDER_ENDED, RESEAT_DONE and
NOT_FOUND (03 R58): the record that names the order loses it, and a delivered one is marked and told to OCU; the other two messages are
taken and change nothing else. -/
def Obligations.OrdersAreAttachedAndEnded : Prop :=
  (∀ (p : Port) (h : HandedRequest) (rest : List HandedRequest) (s : State) (id : BookingId) (prm : OrderParam),
     s.bookAsks p h rest → h.req = .order id prm → s.clockSet .rbk = false →
     exec (.order p) s = .next (s.bookAnswered p h rest .clockUnset [])) ∧
  (∀ (p : Port) (h : HandedRequest) (rest : List HandedRequest) (s : State) (id : BookingId) (prm : OrderParam) (b : Body),
     s.bookAsks p h rest → h.req = .order id prm → s.clockSet .rbk = true → NamedRecord s id b →
     let r := s.bookRec id.index
     let u := setPending id.index .attach (s.bookTook p rest)
     (b.state = .held ∨ b.state = .block → exec (.order p) s = .next (s.bookAnswered p h rest .badState [])) ∧
     (b.state = .confirmed ∨ b.state = .active →
       (r.order.isSome = true ∨ r.pending = .attach → exec (.order p) s = .next (s.bookAnswered p h rest .badState [])) ∧
       (r.order = none → r.pending = .abandoned → exec (.order p) s = .next (s.bookAnswered p h rest .busyRecord [])) ∧
       (r.order = none → r.pending = .none → exec (.order p) s = .next
         (handPlanner (.attach s.book.serial id b.room b.span.start (b.span.start + b.span.len) prm p)
           (u.setBook
             { u.book with
               exchanges := u.book.exchanges ++ [⟨s.book.serial, id, some (p, h.reqno), none⟩]
               serial := s.book.serial + 1 }))))) ∧
  (∀ (s : State) (k : Nat) (id : BookingId) (result : Except Code OrderId),
     s.wires.toBook.head? =
       some (match result with
         | .ok o => .attachOk k id o
         | .error c => .attachFailed k id c) →
     let taken := s.setWires { s.wires with toBook := s.wires.toBook.tail }
     ((∀ y ∈ s.book.exchanges, y.serial = k → y.move.isSome = true) → exec .attachAnswer s = .next taken) ∧
     ∀ (x : Exchange) (rest : List Exchange),
     takeExchange (fun y => y.serial = k && y.move.isNone) s.book.exchanges = some (x, rest) →
     let r := s.bookRec id.index
     let u := taken.setBook { s.book with exchanges := rest }
     let dropped (t : State) : State := match result with
       | .ok o => handPlanner (.dropOrder id o) t
       | .error _ => t
     (∀ p n, x.who = some (p, n) →
       (r.life = .free ∨ r.gen ≠ id.gen → exec .attachAnswer s = .next (answer p n .unknown [] (dropped u))) ∧
       (r.gen = id.gen → r.life = .live → r.pending = .attach →
         (∀ o, result = .ok o → exec .attachAnswer s =
           .next (answer p n .ok (eOrderId o) (setRec id.index { r with order := some o, pending := .none } u))) ∧
         (∀ c, result = .error c → exec .attachAnswer s =
           .next (answer p n c [] (setRec id.index { r with pending := .none } u)))) ∧
       (r.gen = id.gen → r.life = .damaged → r.pending = .attach →
         exec .attachAnswer s = .next (answer p n .damaged [] (dropped (setRec id.index { r with pending := .none } u))))) ∧
     (r.gen = id.gen → r.life ≠ .free → r.pending = .abandoned →
       exec .attachAnswer s = .next (dropped (setRec id.index { r with pending := .none } u)))) ∧
  (∀ (s : State) (id : BookingId) (o : OrderId),
     let r := s.bookRec id.index
     let u := s.setWires { s.wires with toBook := s.wires.toBook.tail }
     (∀ d, s.wires.toBook.head? = some (.orderEnded id o d) →
       (r.life = .free ∨ r.gen ≠ id.gen ∨ r.order ≠ some o → exec .orderEnded s = .next u) ∧
       (r.life ≠ .free → r.gen = id.gen → r.order = some o → d = false ∨ r.life = .damaged →
         exec .orderEnded s = .next (setRec id.index { r with order := none } u)) ∧
       (r.life = .live → r.gen = id.gen → r.order = some o → d = true → r.body.faults = 0 →
         exec .orderEnded s = .next (handSched r.body.room
           (setRec id.index { r with order := none, body := { r.body with cateringDelivered := true } } u)))) ∧
     (s.wires.toBook.head? = some (.reseatDone id o) → exec .reseatDone s = .next u) ∧
     (s.wires.toBook.head? = some (.notFound id o) → exec .notFound s = .next u))

/-- BLOCK_ROOM (03 R59, R60). Its checks in order: CLOCK_UNSET; BAD_PARAM for a room, a start, a length, a cause or a force flag outside its
range; TOO_LATE for a span that has ended; HORIZON for one that starts, once clamped, beyond today + 14; NO_ROOM for a room of CAP 0. Then
an overlapping claim entry or record in an exchange is BUSY_RECORD, a DAMAGED entry DAMAGED, a BLOCK entry CONFLICT with its START and END,
an ACTIVE one without force BAD_STATE, an empty free list BOOK_FULL. With its checks passed, the overlapping records are taken in ascending
START, each displaced or reseated, and then the block takes the lowest free record, with BOOKED and an answer that counts the displaced and
the reseated. One record of the displacement cascade (03 R60): in a pooled zone a CONFIRMED record goes to PSL's choice without the blocked
room: its entries leave the blocked room's schedule and stand in the new room's, its body names the new room, RESEATED carries the former
room, and the planner hears of it when ORDER is present; with no choice, or in any other state or zone, it is freed with DISPLACED. The
model's choices: that a start above the greatest absolute slot is BAD_PARAM (log 18), when the overlapping bodies are read (log 36), that
the octet 1 of the force flag is *set* (log 57), and that of several BLOCK entries CONFLICT names the one of the earliest START (log 14). -/
def Obligations.BlockRoomDisplacesOrReseats : Prop :=
  (∀ (p : Port) (h : HandedRequest) (rest : List HandedRequest) (s : State) (room : Nat) (span : Span) (cause disp force : Nat),
     s.bookAsks p h rest → h.req = .blockRoom room span cause disp force →
     let refused (code : Code) : Prop := exec (.blockRoom p) s = .next (s.bookAnswered p h rest code [])
     let bad : Prop := 127 < room ∨ 18874367 < span.start ∨ span.len = 0 ∨ 96 < span.len ∨ 15 < cause ∨ 1 < force
     (s.clockSet .rbk = false → refused .clockUnset) ∧ (s.clockSet .rbk = true → bad → refused .badParam) ∧
     (s.clockSet .rbk = true → ¬bad → span.start + span.len ≤ s.bookSlot → refused .tooLate) ∧
     (s.clockSet .rbk = true → ¬bad → s.bookSlot < span.start + span.len →
       ((s.now .rbk).day + 14 < max span.start s.bookSlot / 288 → refused .horizon) ∧
       (max span.start s.bookSlot / 288 ≤ (s.now .rbk).day + 14 →
         ∀ r : Room, room = r.val → (s.roomRec r).cap = 0 → refused .noRoom))) ∧
  (∀ (p : Port) (h : HandedRequest) (rest : List HandedRequest) (s : State) (r : Room) (span sp : Span) (cause disp force : Nat),
     s.bookAsks p h rest → h.req = .blockRoom r.val span cause disp force → s.clockSet .rbk = true →
     span.start ≤ 18874367 → 1 ≤ span.len → span.len ≤ 96 → cause ≤ 15 → force ≤ 1 →
     s.bookSlot < span.start + span.len → sp.start = max span.start s.bookSlot → sp.start + sp.len = span.start + span.len →
     sp.start / 288 ≤ (s.now .rbk).day + 14 → (s.roomRec r).cap ≠ 0 →
     let q : Asker := ⟨p, h.reqno, h.role⟩
     let u := s.bookTook p rest
     let es := (s.schedule r).filter (fun e => e.overlaps sp)
     let held := es.any (fun e => e.summary = .claim || (s.bookRec e.index).pending = .attach || (s.bookRec e.index).pending = .move)
     let v := readAll (es.map Entry.index) u
     let es' := (v.schedule r).filter (fun e => e.overlaps sp)
     let sound := held = false ∧ ∀ e ∈ es', e.summary ≠ .damaged
     let c := (es'.map Entry.index).foldl (cascadeOne q) ⟨0, 0, v⟩
     let b : Body :=
       { Body.blank with
         state := .block, room := r, span := sp, owner := .port p, display := some disp, cause := some cause }
     (held = true → exec (.blockRoom p) s = .next (s.bookAnswered p h rest .busyRecord [])) ∧
     (held = false → (∃ e ∈ es', e.summary = .damaged) → exec (.blockRoom p) s = .next (answer p h.reqno .damaged [] v)) ∧
     (sound → ∀ e, es'.find? (fun x => x.summary = .block) = some e →
       exec (.blockRoom p) s = .next (answer p h.reqno .conflict (e4 e.start ++ e4 e.stop) v)) ∧
     (sound → (∀ e ∈ es', e.summary ≠ .block) →
       ((∃ e ∈ es', e.summary = .active) → force = 0 → exec (.blockRoom p) s = .next (answer p h.reqno .badState [] v)) ∧
       ((∀ e ∈ es', e.summary ≠ .active) ∨ force = 1 →
         (v.freeIndex = none → exec (.blockRoom p) s = .next (answer p h.reqno .bookFull [] v)) ∧
         (v.freeIndex ≠ none →
           ∃ i, c.state.freeIndex = some i ∧
             exec (.blockRoom p) s = .next (answer p h.reqno .ok
               (eBookingId (c.state.handle i) ++ e1 c.displaced ++ e1 c.reseated)
               (recordNotice .booked i (detail2 BState.block.toNat cause) (some p) (allocate i b c.state)))))) ∧
     ((∀ e ∈ es, (s.bookRec e.index).body.faults = 0) → v = u)) ∧
  (∀ (q : Asker) (c : Cascade) (i : BookIx),
     let s := c.state
     let b := (s.bookRec i).body
     let k := s.zoneOf b.room
     let seeks := b.state = .confirmed ∧ s.kindOf k = .pooled
     let choice := choose s ⟨k, b.span, b.attendees.getD 1, some b.room⟩
     let t := (cascadeOne q c i).state
     (¬seeks → cascadeOne q c i =
       ⟨c.displaced + 1, c.reseated, freeRecord i .displaced (detail2 b.state.toNat 0) (some q.port) s⟩) ∧
     (seeks → choice = none → cascadeOne q c i =
       ⟨c.displaced + 1, c.reseated, freeRecord i .displaced (detail2 b.state.toNat 1) (some q.port) s⟩) ∧
     (∀ r n, seeks → choice = some (r, n) →
       r ≠ b.room ∧ (cascadeOne q c i).displaced = c.displaced ∧ (cascadeOne q c i).reseated = c.reseated + 1 ∧
       t.bookRec i = { s.bookRec i with body := { b with room := r, earlyIn := false, overCapacity := false, fromPool := true } } ∧
       (∀ j, j ≠ i → t.bookRec j = s.bookRec j) ∧
       t.schedule b.room = (s.schedule b.room).filter (fun e => e.index != i) ∧
       (t.schedule r).Perm ((s.schedule b.room).filter (fun e => e.index = i) ++ s.schedule r) ∧
       ((s.schedule r).Pairwise (fun x y => x.start ≤ y.start) → (t.schedule r).Pairwise (fun x y => x.start ≤ y.start)) ∧
       (∀ r', r' ≠ r → r' ≠ b.room → t.schedule r' = s.schedule r') ∧
       (∃ n : HandedNotice,
         t.wires =
           { s.wires with
             sched := s.wires.sched ++ [b.room, r]
             toPlanner := s.wires.toPlanner ++ ((s.bookRec i).order.toList.map (fun o => .reseat (s.handle i) o r))
             notices := modAt s.wires.notices (producerIx .rbk) (· ++ [n]) } ∧
         n.note.kind = .reseated ∧ n.note.booking = some (s.handle i) ∧ n.note.detail = b.room.val ∧ n.cause = some q.port ∧
         n.note.date = s.now .rbk ∧ n.note.order = (s.bookRec i).order ∧
         ((∀ r', r' ≠ b.room → ∀ e ∈ s.schedule r', e.index ≠ i) → n.note.room = some r)) ∧
       Only [.book, .wires] s t))

/-! ## The book: events -/

/-- The rest of the state after the book has taken a tick: each HELD record is tested, 16 indices are scrubbed, and at a slot boundary the
end, no-show and start passes follow, each over all rooms, under the tables active as the boundary is taken (02 R21, R22, 03 R44, R50, R64).
HOLD_EXPIRY, END_BOUNDARY, NO_SHOW_BOUNDARY and START_BOUNDARY on one sound record (03 R44, R50, R51), at the book's copy of the time. A
record that a move holds is left alone by the boundaries. The scrub (03 R64) reads, with the check of R62, the body of every index of the 16
from the pointer, wrapping at 2048, whose LIFE is LIVE, and passes the others over: a body with one faulty bit is corrected, a record with
two becomes DAMAGED, and every other record stands. The model's choices: the deadline rows act on one record at the book's time (log 7),
NO_SHOW_BOUNDARY with the room and zone tables of the boundary the book took last (log 53), and the order of the records in a pass (log 54).
-/
def Obligations.BookTakesATickByPasses : Prop :=
  (∀ (s : State) (c : Clock), s.timeHead .rbk = some (.tick c) →
     let u := s.ticked .rbk c
     let held := (entryIxs (fun e => e.summary = .held) u).foldl (fun t i => holdExpiryOn c.minutes i t) u
     let v := scrub held
     let rooms := v.rzt.rooms
     let z := v.rzt.zones
     let b := v.setBook { v.book with boundaryRooms := rooms, boundaryZones := z }
     let w := (entryIxs (fun e => e.summary != .claim && e.stop ≤ c.slot) b).foldl (fun t i => endOn c.slot i t) b
     let x := (entryIxs (fun e => e.summary = .confirmed) w).foldl (fun t i => noShowOn rooms z c.slot i t) w
     let y := (entryIxs (fun e => e.summary = .confirmed) x).foldl (fun t i => startOn c.slot i t) x
     (c.minute % 5 ≠ 0 → exec .bookMinuteTick s = .next (settleTime v)) ∧
     (c.minute % 5 = 0 → exec .bookMinuteTick s = .next (settleTime y) ∧ y.book.boundaryRooms = s.rzt.rooms ∧
       y.book.boundaryZones = s.rzt.zones) ∧
     v.book.scrub.val = (s.book.scrub.val + 16) % 2048) ∧
  (∀ (p : Entry → Bool) (s : State),
     entryIxs p s = (List.finRange 128).flatMap (fun r => ((s.schedule r).filter p).map Entry.index)) ∧
  (∀ s : State,
     let ixs : List BookIx := (List.range 16).map (fun n => Fin.ofNat 2048 (s.book.scrub.val + n))
     let t := scrub s
     let v := ixs.foldl (fun t i => if (t.bookRec i).life = .live then (readBody i t).2 else t) s
     t = v.setBook { v.book with scrub := Fin.ofNat 2048 (s.book.scrub.val + 16) } ∧
     ∀ i, let r := s.bookRec i
       (i ∉ ixs ∨ r.life ≠ .live ∨ r.body.faults = 0 → t.bookRec i = r) ∧
       (i ∈ ixs → r.life = .live → r.body.faults = 1 → t.bookRec i = { r with body := { r.body with faults := 0 } }) ∧
       (i ∈ ixs → r.life = .live → 2 ≤ r.body.faults → t.bookRec i = { r with life := .damaged })) ∧
  (∀ (i : BookIx) (s : State) (b : Body) (r : Room) (e : Entry), SoundRecord s i b r e → b.room = r →
     let now := s.bookSlot
     let boundary := (s.now .rbk).minute % 5 = 0
     let free := (s.bookRec i).pending ≠ .move
     let a := s.book.boundaryZones.attrOf r
     let online := s.panelOnlineIn s.book.boundaryRooms r
     let released := freeRecord i .released a.g none s
     (∀ m, b.state = .held → e.summary = .held → b.holdExpiry = some m →
       (m ≤ s.bookMinute → exec (.holdExpiry i) s = .next (freeRecord i .holdExpired 0 none s)) ∧
       (s.bookMinute < m → exec (.holdExpiry i) s = .next s)) ∧
     (boundary → free → e.stop ≤ now →
       (b.state = .held → exec (.endBoundary i) s = .next (freeRecord i .holdExpired 1 none s)) ∧
       (b.state ≠ .held → exec (.endBoundary i) s = .next (freeRecord i .ended (detail2 0 b.state.toNat) none s))) ∧
     (boundary → free → b.state = .confirmed → e.summary = .confirmed → b.earlyIn = false → e.start + a.g ≤ now →
       (online = false ∨ s.pwc.sstate = .retain ∨ a.autorelease = false →
         exec (.noShowBoundary i) s =
           .next (setSummary i .active
             (setBody i { b with state := .active, unverified := true, checkinMinute := none } s))) ∧
       (online = true → s.pwc.sstate ≠ .retain → a.autorelease = true →
         exec (.noShowBoundary i) s = .next (released.setBook
           { released.book with
             releaseMarks := put released.book.releaseMarks r (some (b.span.start + b.span.len)) }))) ∧
     (boundary → now < e.start + a.g → exec (.noShowBoundary i) s = .next s) ∧
     (boundary → free → b.state = .confirmed → e.summary = .confirmed → b.earlyIn = true → e.start ≤ now →
       exec (.startBoundary i) s =
         .next (setSummary i .active (setBody i { b with state := .active, earlyIn := false } s))) ∧
     (boundary → ¬free → exec (.endBoundary i) s = .next s ∧ exec (.noShowBoundary i) s = .next s ∧
       exec (.startBoundary i) s = .next s))

/-- PANEL_CHECKIN (03 R52): of the CONFIRMED records in their window the earliest, else the ACTIVE record, is checked in or verified when
the badge counts, is answered NOT_ORGANISER when it does not, and BUSY_RECORD while a move is pending; with none, the release mark decides
between TOO_LATE and NOTHING. `path` is 1 with a badge. The window of a CONFIRMED record runs from E slots before its start to G slots after
it. A record takes part as its body is read (03 R62): one that is damaged, or that the read finds damaged, is passed over for the next, and
a body with one faulty bit is corrected and taken. -/
def Obligations.PanelCheckInChoosesTheMeeting : Prop :=
  (∀ s : State, firstSound [] s = (none, s) ∧ ∀ (i : BookIx) (is : List BookIx),
     ((s.bookRec i).life ≠ .live → firstSound (i :: is) s = firstSound is s) ∧
     ((s.bookRec i).life = .live →
       (∀ b v, readBody i s = (some b, v) → firstSound (i :: is) s = (some (i, b), v)) ∧
       (∀ v, readBody i s = (none, v) → firstSound (i :: is) s = firstSound is v))) ∧
  ∀ (s : State) (it : Item), granted s = some .ocu → s.ocu.presented = some it → it.request = .panelCheckin →
    let u := setGrant .ocu s
    let path := if it.badge.isSome then 1 else 0
    let a := s.attrOf it.room
    let gives (o : BookOutcome) (t : State) : Prop := exec .panelCheckin s = .next (handOutcome o t)
    windowIxs s it.room = ((s.schedule it.room).filter (fun e =>
      decide (e.summary = .confirmed ∧ e.start ≤ s.bookSlot + a.e ∧ s.bookSlot < e.start + a.g))).map Entry.index ∧
    activeIxs s it.room = ((s.schedule it.room).filter (fun e => decide (e.summary = .active))).map Entry.index ∧
    (∀ b : Body, badgeCounts a it.badge b = true ↔
      (a.badgeOnly = true → ∃ n o, it.badge = some n ∧ b.organiser = some o ∧ n = o.toNat % 16777216)) ∧
    (∀ i b v, firstSound (windowIxs s it.room) u = (some (i, b), v) →
      let b' := { b with checkinMinute := some s.bookMinute }
      let counts := badgeCounts a it.badge b = true
      let free := (v.bookRec i).pending ≠ .move
      (¬free → gives .busyRecord v) ∧
      (free → ¬counts → gives .notOrganiser v) ∧
      (free → counts → b.earlyIn = true → gives .already v) ∧
      (free → counts → b.earlyIn = false → s.bookSlot < b.span.start →
        gives .checkedInEarly (recordNotice .checkedIn i (detail2 0 path) none
          (handSched b.room (setBody i { b' with earlyIn := true } v)))) ∧
      (free → counts → b.earlyIn = false → b.span.start ≤ s.bookSlot →
        gives .checkedIn (recordNotice .checkedIn i (detail2 1 path) none
          (setSummary i .active (setBody i { b' with state := .active } v))))) ∧
    (∀ w, firstSound (windowIxs s it.room) u = (none, w) →
      (∀ i b v, firstSound (activeIxs w it.room) w = (some (i, b), v) →
        let counts := badgeCounts a it.badge b = true
        let free := (v.bookRec i).pending ≠ .move
        (¬free → gives .busyRecord v) ∧
        (free → ¬counts → gives .notOrganiser v) ∧
        (free → counts → b.unverified = false → gives .already v) ∧
        (free → counts → b.unverified = true → gives .verified (recordNotice .checkedIn i (detail2 2 path) none
          (handSched b.room (setBody i { b with unverified := false, checkinMinute := some s.bookMinute } v))))) ∧
      (∀ v, firstSound (activeIxs w it.room) w = (none, v) →
        gives (if s.book.releaseMarks[it.room].any (fun m => decide (s.bookSlot < m)) then .tooLate else .nothing) v))

/-- END_NOW, EXTEND and GHOST_RELEASE on the room's sound ACTIVE record, and their outcome NOTHING without one (03 R54, R55). An extension
stops at the next other entry and at 96 slots. WALKUP (03 R55): an ACTIVE record owned by the panel from the current slot for 6 slots, or to
the next entry; and the outcomes when the room is out of the book, does not admit walk-ups or is occupied, and when no record is free. The
ACTIVE record is read with its check, and one that is damaged, or that the read finds damaged, is none (03 R62). -/
def Obligations.OcuRequestsActOnTheRoom : Prop :=
  (∀ (s : State) (it : Item), granted s = some .ocu → s.ocu.presented = some it →
     let u := setGrant .ocu s
     let r := it.room
     (∀ v, firstSound (activeIxs s r) u = (none, v) →
       (it.request = .endNow → exec .endNow s = .next (handOutcome .nothing v)) ∧
       (it.request = .extend → exec .extend s = .next (handOutcome .nothing v)) ∧
       (it.request = .ghostRelease → exec .ghostRelease s = .next (handOutcome .nothing v))) ∧
     (∀ i b v, firstSound (activeIxs s r) u = (some (i, b), v) →
       (it.request = .endNow →
         exec .endNow s = .next (handOutcome (.done none) (freeRecord i .ended (detail2 1 BState.active.toNat) none v))) ∧
       (∀ n, it.request = .extend → it.slots = some n →
         let old := b.span.start + b.span.len
         let new := ((v.schedule r).filter (fun e => e.index != i && decide (old ≤ e.start))).foldl (fun m e => min m e.start)
           (min (old + n) (b.span.start + 96))
         (new ≤ old → exec .extend s = .next (handOutcome .noGain v)) ∧
         (old < new → exec .extend s = .next (handOutcome (.done none) (recordNotice .changed i 3 none
           (changeEntry r i (fun e => { e with stop := new })
             (setBody i { b with span := ⟨b.span.start, new - b.span.start⟩ } v)))))) ∧
       (it.request = .ghostRelease →
         let freed := freeRecord i .ghostReleased (s.attrOf r).h none v
         (b.unverified = true → exec .ghostRelease s = .next (handOutcome .nothing v)) ∧
         (b.unverified = false → exec .ghostRelease s = .next (handOutcome (.done none) (freed.setBook
           { freed.book with releaseMarks := put freed.book.releaseMarks r (some (b.span.start + b.span.len)) })))))) ∧
  (∀ (s : State) (it : Item), granted s = some .ocu → s.ocu.presented = some it → it.request = .walkup →
     let u := setGrant .ocu s
     let r := it.room
     let now := s.bookSlot
     let taken := (s.schedule r).any (fun e => decide (e.start ≤ now ∧ now < e.stop))
     ((s.roomRec r).cap = 0 → exec .walkup s = .next (handOutcome .noRoom u)) ∧
     ((s.roomRec r).cap ≠ 0 → (s.attrOf r).bookers.walkup = false → exec .walkup s = .next (handOutcome .denied u)) ∧
     ((s.roomRec r).cap ≠ 0 → (s.attrOf r).bookers.walkup = true →
       (taken = true → exec .walkup s = .next (handOutcome .noGain u)) ∧
       (taken = false → s.freeIndex = none → exec .walkup s = .next (handOutcome .bookFull u)) ∧
       (∀ i, taken = false → s.freeIndex = some i →
         let stop := ((s.schedule r).filter (fun e => decide (now < e.start))).foldl (fun m e => min m e.start) (now + 6)
         let b : Body :=
           { Body.blank with
             state := .active
             room := r
             span := ⟨now, stop - now⟩
             owner := .panel
             organiser := it.badge.map (BitVec.ofNat 32)
             attendees := some 1
             checkinMinute := some s.bookMinute }
         exec .walkup s = .next (handOutcome (.done (some (s.handle i)))
           (recordNotice .walkup i (stop - now) none (allocate i b u))))))

/-- MOVE_ANSWER (03 R49), by the table. LIFE LIVE: as moved, the claim entry becomes the record's entry and the body takes the new span and
attendees, OVER_CAPACITY with them, with CHANGED and the answer OK; not moved, the claim entry goes and the answer is the code carried. LIFE
DAMAGED, and a body that the read of a *moved* answer finds damaged: the same of the entries, the summary DAMAGED, and the answer DAMAGED. A
*moved* answer goes to the planner's lane of taken answers. PENDING becomes NONE, the port is answered and the deadlines that fell due are
taken. An answer completes the move it answers and no later one; one whose own move is no longer pending is discarded, and a *moved* one has
its order restored, but not when the book has emptied for a RESYNC since the move was sent (R67). Settling a claim (03 R40, R49): as moved,
the room's schedule loses the record's entry and the claim entry takes its place with the record's summary; else it loses the claim entry.
Entries of other records stand. The deadlines held back (03 R49): none is due before the record's start, an ended record is freed, a
CONFIRMED one that has reached its no-show slot is released with the room's release mark or made ACTIVE UNVERIFIED (R51), and one with
EARLY_IN that has reached its start becomes ACTIVE, under the zone attributes active then (R50). R49 names no item of the answer OK, which
therefore carries none (11 R196; log 15). The model's choices: the lane in which the planner hears that a *moved* answer was taken (log 27),
the discarded answers (log 28), and the serial numbers by which an answer finds its move and those of before an emptying are told (log 59).
-/
def Obligations.MoveAnswerCompletesTheMove : Prop :=
  (∀ (s : State) (k : Nat) (id : BookingId) (o : OrderId) (failure : Option Code),
     s.wires.toBook.head? = some (.moveAnswer k id o failure) →
     let taken := s.setWires { s.wires with toBook := s.wires.toBook.tail }
     (∀ (x : Exchange) (rest : List Exchange) (sp : Span) (people : Option Nat),
       takeExchange (fun y => y.serial = k && y.move.isSome) s.book.exchanges = some (x, rest) → x.move = some (sp, people) →
       let i := x.id.index
       let left := taken.setBook { s.book with exchanges := rest }
       let u := if failure = none then left.setWires { left.wires with taken := left.wires.taken ++ [o] } else left
       let told (c : Code) (t : State) := match x.who with
         | some (p, n) => answer p n c [] t
         | none => t
       let goesOn (t : State) : Prop := exec .moveAnswer s = .next (heldDeadlines s.bookSlot i t)
       ((s.bookRec i).life = .damaged →
         goesOn (told .damaged (setPending i .none (settleClaim i failure.isNone .damaged u)))) ∧
       ((s.bookRec i).life ≠ .damaged →
         (∀ c, failure = some c → goesOn (told c (setPending i .none (settleClaim i false .confirmed u)))) ∧
         (∀ v, failure = none → readBody i u = (none, v) →
           goesOn (told .damaged (setPending i .none (settleClaim i true .damaged v)))) ∧
         (∀ b v, failure = none → readBody i u = (some b, v) →
           let b' := { b with
             span := sp
             attendees := people
             overCapacity := people.any (fun k => decide ((s.roomRec b.room).cap < k)) }
           goesOn (told .ok (recordNotice .changed i 2 (x.who.map Prod.fst) (setPending i .none (setBody i b'
             (settleClaim i true b.state.summary v)))))))) ∧
     ((∀ x ∈ s.book.exchanges, x.serial = k → x.move = none) →
       (failure.isSome = true → exec .moveAnswer s = .next taken) ∧
       (failure = none → k < s.book.emptied →
         exec .moveAnswer s = .next (taken.setWires { taken.wires with taken := taken.wires.taken ++ [o] })) ∧
       (failure = none → s.book.emptied ≤ k → exec .moveAnswer s = .next (restoreOrder o taken)))) ∧
  (∀ (s : State) (i : BookIx) (moved : Bool) (x : Summary) (e : Entry), x ≠ .claim →
     let r := s.roomOf i
     let t := settleClaim i moved x s
     (∀ e ∈ s.schedule r, e.index ≠ i → e ∈ t.schedule r) ∧
     (∀ e ∈ t.schedule r, e.index ≠ i → e ∈ s.schedule r) ∧
     (∀ e ∈ t.schedule r, e.index = i → e.summary ≠ .claim) ∧
     (moved = true → e ∈ s.schedule r → e.index = i → e.summary = .claim → { e with summary := x } ∈ t.schedule r) ∧
     (moved = true → e ∈ t.schedule r → e.index = i →
       ∃ c ∈ s.schedule r, c.index = i ∧ c.summary = .claim ∧ e = { c with summary := x }) ∧
     (moved = false → e ∈ s.schedule r → e.index = i → e.summary ≠ .claim → e ∈ t.schedule r) ∧
     (moved = false → e ∈ t.schedule r → e ∈ s.schedule r) ∧
     (∀ r', r' ≠ r → t.schedule r' = s.schedule r') ∧ t.book.records = s.book.records ∧ Only [.book, .wires] s t) ∧
  (∀ (now : Nat) (s : State) (i : BookIx) (b : Body) (r : Room) (e : Entry), SoundRecord s i b r e →
     (now < e.start → now < e.stop → heldDeadlines now i s = s) ∧
     ((s.bookRec i).pending ≠ .move → e.stop ≤ now →
       (b.state = .held → heldDeadlines now i s = freeRecord i .holdExpired 1 none s) ∧
       (b.state ≠ .held → heldDeadlines now i s = freeRecord i .ended (detail2 0 b.state.toNat) none s)) ∧
     ((s.bookRec i).pending = .move → heldDeadlines now i s = s) ∧ (now < e.stop → b.state ≠ .confirmed → heldDeadlines now i s = s) ∧
     ((s.bookRec i).pending ≠ .move → now < e.stop → b.state = .confirmed → e.summary = .confirmed → b.room = r →
       let a := s.attrOf r
       let released := freeRecord i .released a.g none s
       let unverified := { b with state := .active, unverified := true, checkinMinute := none }
       (b.earlyIn = false → now < e.start + a.g → heldDeadlines now i s = s) ∧
       (b.earlyIn = false → e.start + a.g ≤ now →
         (s.panelOnline r = false ∨ s.pwc.sstate = .retain ∨ a.autorelease = false →
           heldDeadlines now i s = setSummary i .active (setBody i unverified s)) ∧
         (s.panelOnline r = true → s.pwc.sstate ≠ .retain → a.autorelease = true →
           heldDeadlines now i s = released.setBook
             { released.book with
               releaseMarks := put released.book.releaseMarks r (some (b.span.start + b.span.len)) })) ∧
       (b.earlyIn = true → e.start ≤ now →
         heldDeadlines now i s = setSummary i .active (setBody i { b with state := .active, earlyIn := false } s))))

/-- BOOK_CONFIG_APPLIED (03 R65): the HELD, CONFIRMED and ACTIVE records of the changed rooms are read again, each taking OVER_CAPACITY as
its room's CAP now gives it, with a notice when it newly exceeds. BOOK_STOP (03 R68): book requests of stopped ports are withdrawn, every
attach in flight is abandoned, and every pending move is completed as not moved, its claim entry gone and PENDING NONE, with no answer
given. The model's choices: which requests a stop withdraws (log 30), the order in which its moves are completed, and the order of the
re-evaluations, by ascending room and then in the order of the schedule (log 54). -/
def Obligations.BookFollowsTablesAndStops : Prop :=
  ((∀ (s : State) (sig : ConfigSignal), s.wires.config[rbkCfg].head? = some sig →
     let u := popConfig rbkCfg s
     let live (e : Entry) : Bool := e.summary = .held || e.summary = .confirmed || e.summary = .active
     exec .bookConfigApplied s = .next (settleConfig
       ((sig.changed.flatMap (fun r => ((s.schedule r).filter live).map Entry.index)).foldl reevaluate u))) ∧
   ∀ (s : State) (i : BookIx) (b : Body), (s.bookRec i).life = .live → (s.bookRec i).body = b → b.faults = 0 →
     let cap := (s.roomRec b.room).cap
     (b.attendees.any (fun n => decide (cap < n)) = b.overCapacity → reevaluate s i = setBody i b s) ∧
     (b.overCapacity = true → b.attendees.any (fun n => decide (cap < n)) = false →
       reevaluate s i = setBody i { b with overCapacity := false } s) ∧
     (∀ n, b.overCapacity = false → b.attendees = some n → cap < n →
       reevaluate s i = recordNotice .overCapacity i (detail2 n cap) none (setBody i { b with overCapacity := true } s))) ∧
  (∀ s : State, s.wires.supply[rbkIx].head? = some .stop →
     let u := popSupply rbkIx s
     let v := bookStop u
     let moves := s.book.exchanges.filter (fun x => x.move.isSome)
     let left := s.book.exchanges.filter (fun x => x.move.isNone)
     let withdrawn (p : Port) (h : HandedRequest) : Bool :=
       h.req.isBook && (h.stopped || decide ((s.ports[p]).link = .stopped) || (s.wires.supply[portIx p]).contains .stop)
     let w := (u.setWires { u.wires with requests := tabulate (fun p => (s.wires.requests[p]).filter (fun h => !withdrawn p h)) }).setBook
       { s.book with
         records := mapV (fun r => if r.pending = .attach then { r with pending := .abandoned } else r) s.book.records
         exchanges := left.map (fun x => { x with who := none }) }
     exec .bookStop s = .next (settleSupply v) ∧
     v = moves.foldl (fun t x => heldDeadlines t.bookSlot x.id.index
       (setPending x.id.index .none (settleClaim x.id.index false .confirmed t))) w ∧
     v.wires.answers = s.wires.answers ∧ v.wires.requests = w.wires.requests ∧
     v.book.exchanges = left.map (fun x => { x with who := none }) ∧
     (∀ x ∈ moves, (v.bookRec x.id.index).pending ≠ .move) ∧
     (∀ i, (∀ x ∈ moves, x.id.index ≠ i) → v.bookRec i =
       if (s.bookRec i).pending = .attach then { s.bookRec i with pending := .abandoned } else s.bookRec i) ∧
     (moves = [] → v.book.schedules = s.book.schedules))

/-! ## Panel lines -/

/-- 05 R91: the reference, the distance, new events and repeats; with no reference every event is new at distance 1. -/
def Obligations.ReferenceAndDistanceFollowR91 : Prop :=
  (∀ c : PanelCtx,
    (∀ es e, c.evbuf = es ++ [e] → c.reference = some e.seq) ∧
    (c.evbuf = [] → ∀ o, c.outstanding = some o → c.reference = some o.1.seq) ∧
    (c.evbuf = [] → c.outstanding = none → c.reference = c.ackSeq)) ∧
  (∀ r q : Seq,
    distance (some r) q = (q.val + 16 - r.val) % 16 ∧ distance (some r) q ≤ 15 ∧
    (isRepeat (some r) q = false ↔ 1 ≤ distance (some r) q ∧ distance (some r) q ≤ 8) ∧
    (isRepeat (some r) q = true ↔ distance (some r) q = 0 ∨ 9 ≤ distance (some r) q)) ∧
  ∀ q : Seq, isRepeat none q = false ∧ distance none q = 1

/-- The walk of a good STATUS (05 R92): what joins EVBUF are events of the frame in their order, no repeat of the reference first, each
after the first at distance 1 from the one before, and no more than the places left. The walk takes all that R92 gives: a repeat is passed
over, the first new event is taken whatever its distance, then every event at distance 1 from the one taken before, until the first that is
neither or until no place is left. Handing an event onward (05 R93): void events at the front of EVBUF are acknowledged and passed; the
first other becomes OUTSTANDING and is handed to OCU. VERDICT and DISPLAY_RECORD (05 R94, R96): the table of verdicts at a configured
address, and the record that becomes UNSENT; both are discarded at an UNCONFIGURED address. -/
def Obligations.EventsAreWalkedHandedAndSettled : Prop :=
  (∀ (ref : Option Seq) (places : Nat) (es : List PEvent),
     let taken := walkEvents ref false places es
     taken.Sublist es ∧ taken.length ≤ places ∧ (∀ e, taken.head? = some e → isRepeat ref e.seq = false) ∧
     taken.IsChain (fun a b => distance (some a.seq) b.seq = 1) ∧
     ((∀ e ∈ es, isRepeat ref e.seq = true) → taken = []) ∧
     (∀ e rest, es = e :: rest → isRepeat ref e.seq = false → 0 < places → taken.head? = some e)) ∧
  (∀ (ref : Option Seq) (started : Bool) (n : Nat) (e : PEvent) (es : List PEvent),
     (isRepeat ref e.seq = true ↔ distance ref e.seq = 0 ∨ 9 ≤ distance ref e.seq) ∧
     walkEvents ref started 0 (e :: es) = [] ∧ walkEvents ref started n [] = [] ∧
     (isRepeat ref e.seq = true → walkEvents ref started n (e :: es) = walkEvents ref started n es) ∧
     (isRepeat ref e.seq = false → started = false ∨ distance ref e.seq = 1 →
       walkEvents ref started (n + 1) (e :: es) = e :: walkEvents (some e.seq) true n es) ∧
     (isRepeat ref e.seq = false → started = true → distance ref e.seq ≠ 1 → walkEvents ref started n (e :: es) = [])) ∧
  (∀ (l : Line) (a : Addr) (s : State),
     let c := s.ctx l a
     let t := handNext l a s
     (c.outstanding ≠ none ∨ c.evbuf = [] → t = s) ∧
     (∀ v, c.outstanding = none → (∀ e ∈ c.evbuf, e.kind = .void) → c.evbuf.getLast? = some v →
       t = s.setLine l { s.line l with ctx := put (s.line l).ctx a { c with ackSeq := some v.seq, evbuf := [] } })) ∧
  (∀ (l : Line) (a : Addr) (s : State) (void rest : List PEvent) (e : PEvent),
     let c := s.ctx l a
     c.outstanding = none → c.evbuf = void ++ e :: rest → (∀ v ∈ void, v.kind = .void) → e.kind ≠ .void →
     let ack := match void.getLast? with
       | some v => some v.seq
       | none => c.ackSeq
     let t := handNext l a s
     t.ctx l a = { c with ackSeq := ack, outstanding := some (e, c.room), evbuf := rest } ∧
       (∀ r, c.room = some r → t.wires = { s.wires with fromLine := modAt s.wires.fromLine l (· ++ [(a, .event r e)]) }) ∧
       (∀ l' a', (l', a') ≠ (l, a) → t.ctx l' a' = s.ctx l' a') ∧ Only [.lines, .wires] s t) ∧
  (∀ (l : Line) (a : Addr) (s : State) (rest : List (Addr × OcuMsg)),
     let c := s.ctx l a
     let u := s.setWires { s.wires with toLine := put s.wires.toLine l rest }
     let put' (x : PanelCtx) := u.setLine l { s.line l with ctx := put (s.line l).ctx a x }
     (∀ q taken, takeAddr a s.wires.toLine[l] = some (.verdict q taken, rest) →
       let mine := ∃ o, c.outstanding = some o ∧ o.1.seq = q
       let ack := match c.ackSeq with
         | none => some q
         | some r => if 1 ≤ distance (some r) q ∧ distance (some r) q ≤ 8 then some q else some r
       (c.pstate = .unconfigured → exec (.verdict l a) s = .next u) ∧
       (c.pstate ≠ .unconfigured →
         (taken = true → ¬mine → exec (.verdict l a) s = .next (put' { c with ackSeq := ack })) ∧
         (taken = true → mine →
           exec (.verdict l a) s = .next (handNext l a (put' { c with ackSeq := ack, outstanding := none }))) ∧
         (taken = false → ¬mine → exec (.verdict l a) s = .next u) ∧
         (taken = false → mine → exec (.verdict l a) s = .next (put' { c with outstanding := none, evbuf := [] })))) ∧
     (∀ d, takeAddr a s.wires.toLine[l] = some (.display d, rest) →
       (c.pstate = .unconfigured → exec (.displayRecord l a) s = .next u) ∧
       (c.pstate ≠ .unconfigured → exec (.displayRecord l a) s = .next (put' { c with dentry := some (.unsent d) }))))

/-- 05 R104: CLEAR_LINE_STATS, for FACILITIES alone, zeroes the counts and the trap of the named lines; the next failed turn is trapped; the
contexts stand. LINE_RESET (05 R105): every configured panel of a named line becomes OFFLINE with its acknowledgement state, readings and
events cleared; for each that was ONLINE, PANEL_OFFLINE with the cause LINE_RESET and panel down are handed, in address order; the line's
statistics are cleared. A line between two turns does so at once, a line in a turn at its end, and each line's part is then done. The
model's choices: the waiting of a LINE_RESET for the end of the line's turn stands in a list (log 24), the addresses are taken in ascending
order (log 54), and the resets are done before the line goes on to its next turn. -/
def Obligations.LineStatisticsAndResets : Prop :=
  (∀ (p : Port) (h : HandedRequest) (rest : List HandedRequest) (s : State) (lines : Nat),
     s.asks p h rest → h.req = .clearLineStats lines →
     (∀ role, (Request.clearLineStats lines).permitted role = true ↔ role = .facilities) ∧
     (lines = 0 ∨ 15 < lines → exec (.clearLineStats p) s = .next (s.answered p h rest .badParam [])) ∧
     (1 ≤ lines → lines ≤ 15 →
       ∃ t : State, exec (.clearLineStats p) s = .next (answer p h.reqno .ok [] t) ∧ Only [.lines] (s.took p rest) t ∧
         ∀ l : Line,
           (lines.testBit l.val = true → t.line l = { s.line l with crcCount := 0, timeoutCount := 0, trap := none } ∧
             ∀ a k, ((failTurn l a k t).line l).trap = some (a, k)) ∧
           (lines.testBit l.val = false → t.line l = s.line l))) ∧
  ((∀ (p : Port) (h : HandedRequest) (rest : List HandedRequest) (s : State) (lines : Nat),
     s.asks p h rest → h.req = .lineReset lines →
     (lines = 0 ∨ 15 < lines → exec (.lineReset p) s = .next (s.answered p h rest .badParam [])) ∧
     (1 ≤ lines → lines ≤ 15 →
       let ls := (List.finRange 4).filter (fun l => lines.testBit l.val)
       exec (.lineReset p) s = .next (ls.foldl (askReset ⟨p, h.reqno, h.role⟩)
         ((s.took p rest).setJobs
           (s.jobs ++ [{ port := p, reqno := h.reqno, announce := false, left := ls, counts := [] }]))))) ∧
   (∀ (q : Asker) (l : Line) (s : State),
     let waiting := (s.line l).resetWait
     let reset (ws : List (Port × Fin 256)) : State :=
       ws.foldl (fun t w => lineDone l w.1 w.2 false 0 (resetLine l t)) (s.setLine l { s.line l with resetWait := [] })
     (∀ a claim, (s.line l).phase = .turn a claim →
       askReset q s l = s.setLine l { s.line l with resetWait := waiting ++ [(q.port, q.reqno)] }) ∧
     ((∀ a claim, (s.line l).phase ≠ .turn a claim) → askReset q s l = reset (waiting ++ [(q.port, q.reqno)])) ∧
     finishTurn l true s = goIdle l (reset waiting) ∧
     finishTurn l false s = nextTurn l ((reset waiting).line l).rest (reset waiting)) ∧
   ∀ (l : Line) (s : State),
     let t := resetLine l s
     let online := (List.finRange 32).filter (fun a => decide ((s.ctx l a).pstate = .online))
     let offline (a : Addr) : HandedNotice :=
       { note := { kind := .panelOffline, date := ⟨0, 0⟩, booking := none, order := none, room := (s.ctx l a).room, panel := some ⟨l, a⟩,
                   detail := 2 },
         dated := false, owner := none, cause := none }
     (t.line l = { s.line l with ctx := (t.line l).ctx, crcCount := 0, timeoutCount := 0, trap := none }) ∧
     (∀ a, t.ctx l a = if (s.ctx l a).pstate = .unconfigured then s.ctx l a else
       { s.ctx l a with
         pstate := .offline, missed := 0, ackSeq := none, rawLast := none, rawPrev := none, evbuf := [], outstanding := none }) ∧
     (∀ l', l' ≠ l → t.line l' = s.line l') ∧
     t.wires =
       { s.wires with
         notices := modAt s.wires.notices (producerIx (.plu l)) (· ++ online.map offline)
         fromLine := modAt s.wires.fromLine l
           (· ++ online.filterMap (fun a => (s.ctx l a).room.map (fun r => (a, LineMsg.down r)))) } ∧
     Only [.lines, .wires] s t)

/-- CYCLE_START (05 R87): with no turn or cycle on the line, its period passed since the last cycle's start and an address configured, the
cycle runs over the configured addresses in ascending order and the first is polled. `elapsed` periods pass first, and nothing else happens
when the supply is in RETAIN, no address is configured, a turn, a window or a stop is in progress, a restarted line finds PHASE not OPEN, or
the period has not passed (05 R87, R90). A poll turn begins (05 R88, R101): what waits in the announcement slot is sent first
(`sendAnnounce`, which AnnounceIsPlacedOnEachLine says whole), and the slot takes the next that waits; then the POLL with ACK_SEQ, and
nothing else changes. CLAIM_WINDOW (05 R99, R100): in the window, a claim by a configured address gives it a claim turn; with no claim, or
by an address that is not configured, the line goes idle. Bit 5 reads 0 when a panel claims. The model's choices: `elapsed` periods pass
with the command, if they end within the reference minute (log 5), how the window's bits are read (log 47), a winner named during the
current cycle gets its claim turn (log 61), a line restarted by a warm start begins its first cycle once PHASE is OPEN (log 26), how several
announcements wait for the slot (log 25), and the frames of a step stand in a field of the line (log 41). -/
def Obligations.CyclesPollAndClaimsGetTurns : Prop :=
  (∀ (l : Line) (elapsed : Nat) (s : State) (a : Addr) (as : List Addr),
     let u := s.line l
     let now := s.ctu.periods + elapsed
     s.ctu.refcount + elapsed < 1966080 → u.phase = .idle ∨ (u.phase = .restarted ∧ s.pwc.phase = .open) →
     s.pwc.sstate ≠ .retain → configuredAddrs u = a :: as →
     (∀ t, u.cycleStart = some t → t + (if s.pwc.sstate = .run then 16384 else 131072) ≤ now) →
     exec (.cycleStart l elapsed) s = .next (beginTurn l a false
       ((s.setCtu { s.ctu with periods := now, refcount := s.ctu.refcount + elapsed }).setLine l
         { u with cycleStart := some now, cycleList := a :: as, rest := as, sent := [] }))) ∧
  (∀ (l : Line) (elapsed : Nat) (s : State),
     let u := s.line l
     let now := s.ctu.periods + elapsed
     (1966080 ≤ s.ctu.refcount + elapsed → exec (.cycleStart l elapsed) s = .next s) ∧
     (s.ctu.refcount + elapsed < 1966080 →
       s.pwc.sstate = .retain ∨ configuredAddrs u = [] ∨ (∃ a claim, u.phase = .turn a claim) ∨ u.phase = .window ∨ u.phase = .stopped ∨
         (u.phase = .restarted ∧ s.pwc.phase ≠ .open) ∨
         (∃ t, u.cycleStart = some t ∧ now < t + (if s.pwc.sstate = .run then 16384 else 131072)) →
       exec (.cycleStart l elapsed) s =
         .next (s.setCtu { s.ctu with periods := now, refcount := s.ctu.refcount + elapsed }))) ∧
  (∀ (l : Line) (a : Addr) (claim : Bool) (s : State),
     let u := s.line l
     let poll := pollFrame a (s.ctx l a).ackSeq
     (let v := sendAnnounce l s
      beginTurn l a claim s = v.setLine l { v.line l with sent := (v.line l).sent ++ [poll], phase := .turn a claim }) ∧
     (u.annSlot = none → beginTurn l a claim s = s.setLine l { u with sent := u.sent ++ [poll], phase := .turn a claim }) ∧
     (∀ an, u.annSlot = some an →
       ∃ t, beginTurn l a claim s = t ∧
         t.line l = { u with
           annSlot := u.annWait.head?, annWait := u.annWait.tail, sent := u.sent ++ [announceFrame an] ++ [poll],
           phase := .turn a claim } ∧
         (∀ l', l' ≠ l → t.line l' = s.line l') ∧ Only [.lines, .jobs, .wires] s t)) ∧
  (∀ (l : Line) (bits : BitVec 6) (s : State), (s.line l).phase = .window →
     let w : Addr := Fin.ofNat 32 bits.toNat
     let u := s.setLine l { s.line l with sent := [] }
     (bits.toNat < 32 → (s.ctx l w).pstate ≠ .unconfigured → exec (.claimWindow l bits) s = .next (beginTurn l w true u)) ∧
     (32 ≤ bits.toNat ∨ (s.ctx l w).pstate = .unconfigured → exec (.claimWindow l bits) s = .next (goIdle l u)))

/-- GOOD_STATUS, FRAME_ERROR and ANSWER_TIMEOUT end a turn (05 R88, R89): a good frame is acted on, a bad one or none is a failed turn, and
then the line goes on. At an address no longer configured the turn only ends. A poll turn over (05 R87, R99, R105): the waiting LINE_RESETs
are done, then the next address of the cycle that is still configured is polled; after the last the claim window opens, but on a line left with
no configured address the line is idle. After a claim turn the line is idle. The model's choices: a turn at an address unconfigured meanwhile
only ends (log 23), a row whose frame is judged the other way leaves the state (log 3), the waiting LINE_RESETs stand in a list (log 24), the
frames of a step stand in a field of the line (log 41), and an idle line with nothing to poll sends what waits (log 25). -/
def Obligations.TurnsEndInOneOfThreeWays : Prop :=
  (∀ (l : Line) (a : Addr) (claim : Bool) (s : State), (s.line l).phase = .turn a claim →
     let u := s.setLine l { s.line l with sent := [] }
     let on := (s.ctx l a).pstate ≠ .unconfigured
     (∀ octets st, judgeStatus a octets = some st →
       (on → exec (.goodStatus l octets) s = .next (finishTurn l claim (goodSteps l a st u))) ∧
       (¬on → exec (.goodStatus l octets) s = .next (finishTurn l claim u)) ∧ exec (.frameError l octets) s = .next s) ∧
     (∀ octets, judgeStatus a octets = none →
       (on → exec (.frameError l octets) s = .next (finishTurn l claim (failTurn l a .crc u))) ∧
       (¬on → exec (.frameError l octets) s = .next (finishTurn l claim u)) ∧ exec (.goodStatus l octets) s = .next s) ∧
     (on → exec (.answerTimeout l) s = .next (finishTurn l claim (failTurn l a .timeout u))) ∧
     (¬on → exec (.answerTimeout l) s = .next (finishTurn l claim u))) ∧
  (∀ (l : Line) (s : State),
     let t := doResets l s
     let u := t.line l
     let onward := u.rest.dropWhile (fun a => decide ((t.ctx l a).pstate = .unconfigured))
     let idle (v : State) := v.setLine l { v.line l with phase := .idle }
     ((s.line l).resetWait = [] → t = s) ∧
     (finishTurn l true s = goIdle l t) ∧
     (∀ a rest, onward = a :: rest → finishTurn l false s = beginTurn l a false (t.setLine l { u with rest := rest })) ∧
     (onward = [] → (∃ a, (t.ctx l a).pstate ≠ .unconfigured) →
       finishTurn l false s = t.setLine l { u with rest := [], phase := .window }) ∧
     (onward = [] → (∀ a, (t.ctx l a).pstate = .unconfigured) →
       finishTurn l false s = goIdle l (t.setLine l { u with rest := [] })) ∧
     ((∃ a, (t.ctx l a).pstate ≠ .unconfigured) → goIdle l t = idle t) ∧
     ((∀ a, (t.ctx l a).pstate = .unconfigured) → goIdle l t = sendAnnounces l (u.annWait.length + 1) (idle t)))

/-- The steps of a good STATUS (05 R89): MISSED 0 and ONLINE, PANEL_ONLINE and panel up for a panel that was OFFLINE; the applied version;
the readings shifted and handed to OCU; the walk of the events; the push of a display. Other contexts stand. The applied version (05 R98): the
version sent last becomes DV_ACK, and the record pushed under it leaves DENTRY; with DENTRY absent and another version applied than DV_ACK, the
display is asked for again. The walk (05 R92, R93) appends the new events to EVBUF and hands the next onward. The push (05 R97): an UNSENT
record is sent under the next version, a SENT one again under its own. A failed turn (05 R88): the statistics count it and trap the first;
MISSED rises to at most 3, and at 3 a panel that was ONLINE goes OFFLINE, loses its readings and buffered events, and PANEL_OFFLINE and panel
down are handed. That the frames sent stand in a field of the line is the model's choice (log 41). -/
def Obligations.TurnsUpdateTheirContexts : Prop :=
  (∀ (l : Line) (a : Addr) (st : Status) (s : State),
     let c := s.ctx l a
     let t := goodSteps l a st s
     let inCtx (x : PanelCtx) (v : State) := v.setLine l { v.line l with ctx := put (v.line l).ctx a x }
     let tell (m : Room → LineMsg) (v : State) := match c.room with
       | some r => handOcu l a (m r) v
       | none => v
     let online : HandedNotice :=
       { note := { kind := .panelOnline, date := ⟨0, 0⟩, booking := none, order := none, room := c.room, panel := some ⟨l, a⟩,
                   detail := st.applied.val },
         dated := false, owner := none, cause := none }
     let v1 := inCtx { c with missed := 0, pstate := .online } s
     let v2 := if c.pstate = .offline then tell .up (handNotice (.plu l) online v1) else v1
     let v3 := takeApplied l a st.applied v2
     let v4 := tell (fun r => .presence (s.line l).era r st.raw c.rawLast)
       (inCtx { v3.ctx l a with rawLast := some st.raw, rawPrev := c.rawLast } v3)
     t = pushDisplay l a st.applied (eventWalk l a st.events v4) ∧
     (t.ctx l a).missed = 0 ∧ (t.ctx l a).pstate = .online ∧ (t.ctx l a).room = c.room ∧ (t.ctx l a).rawLast = some st.raw ∧
       (t.ctx l a).rawPrev = c.rawLast ∧
       (∀ l' a', (l', a') ≠ (l, a) → t.ctx l' a' = s.ctx l' a') ∧
       (c.pstate ≠ .offline → t.wires.notices = s.wires.notices) ∧
       (c.pstate = .offline → t.wires.notices = modAt s.wires.notices (producerIx (.plu l)) (· ++ [online])) ∧
       (∀ r, c.room = some r → (a, .presence (s.line l).era r st.raw c.rawLast) ∈ t.wires.fromLine[l] ∧
         (c.pstate = .offline → (a, .up r) ∈ t.wires.fromLine[l])) ∧ Only [.lines, .wires] s t) ∧
  (∀ (l : Line) (a : Addr) (s : State),
     let c := s.ctx l a
     let u := s.line l
     let inCtx (x : PanelCtx) := s.setLine l { u with ctx := put u.ctx a x }
     (∀ q : Seq,
       let d := if c.dvSent = some q then
           { c with
             dvAck := some q
             dentry := match c.dentry with
               | some (.sent x v) => if v = q then none else some (.sent x v)
               | y => y }
         else c
       (d.dentry = none → d.dvAck ≠ some q →
         (∀ r, c.room = some r → takeApplied l a q s = handOcu l a (.loss r) (inCtx { d with dentry := some .awaiting })) ∧
         (c.room = none → takeApplied l a q s = inCtx { d with dentry := some .awaiting })) ∧
       (d.dentry ≠ none ∨ d.dvAck = some q → takeApplied l a q s = inCtx d)) ∧
     (∀ es, eventWalk l a es s = handNext l a (inCtx
       { c with
         evbuf := c.evbuf ++ walkEvents c.reference false (4 - (c.evbuf.length + (if c.outstanding.isSome then 1 else 0))) es })) ∧
     (c.outstanding ≠ none ∨ c.evbuf = [] → handNext l a s = s) ∧
     (∀ void e, c.outstanding = none → c.evbuf = void ++ [e] → (∀ x ∈ c.evbuf, x.kind = .void) →
       handNext l a s = inCtx { c with ackSeq := some e.seq, evbuf := [] }) ∧
     (∀ q : Seq,
       (∀ x, c.dentry = some (.unsent x) →
         let v := c.dvSent.getD q + 1
         pushDisplay l a q s = s.setLine l
           { u with
             ctx := put u.ctx a { c with dentry := some (.sent x v), dvSent := some v }
             sent := u.sent ++ [displayFrame a v x] }) ∧
       (∀ x v, c.dentry = some (.sent x v) →
         pushDisplay l a q s = s.setLine l { u with sent := u.sent ++ [displayFrame a v x] }) ∧
       (c.dentry = none ∨ c.dentry = some .awaiting → pushDisplay l a q s = s))) ∧
  (∀ (l : Line) (a : Addr) (k : TrapKind) (s : State),
     let c := s.ctx l a
     let t := failTurn l a k s
     let missed := min (c.missed + 1) 3
     (t.line l).crcCount = (if k = .crc then min ((s.line l).crcCount + 1) 65535 else (s.line l).crcCount) ∧
       (t.line l).timeoutCount = (if k = .timeout then min ((s.line l).timeoutCount + 1) 65535 else (s.line l).timeoutCount) ∧
       (t.line l).trap = (s.line l).trap.or (some (a, k)) ∧
       (∀ l' a', (l', a') ≠ (l, a) → t.ctx l' a' = s.ctx l' a') ∧
       (c.pstate ≠ .online ∨ missed ≠ 3 → t.ctx l a = { c with missed := missed } ∧ t.wires = s.wires) ∧
       (c.pstate = .online → missed = 3 →
         t.ctx l a = { c with missed := 3, pstate := .offline, rawLast := none, rawPrev := none, evbuf := [] } ∧
         (∃ n : HandedNotice, t.wires.notices = modAt s.wires.notices (producerIx (.plu l)) (· ++ [n]) ∧ n.note.kind = .panelOffline ∧
           n.note.panel = some ⟨l, a⟩ ∧ n.note.room = c.room ∧ n.note.detail = k.toNat) ∧
         (∀ r, c.room = some r → t.wires.fromLine = modAt s.wires.fromLine l (· ++ [(a, .down r)]))) ∧
       Only [.lines, .wires] s t)

/-- ANNOUNCE (05 R101): each named line takes it into its slot, or behind what waits there; the request is answered once every named line has
sent it, with the count of the configured addresses that each line's announcement matched, in line order. A line with nothing to poll sends it
at once. An ANNOUNCE reaches the addresses that agree with the pattern in every bit the mask leaves (05 R102). The model's choices: how several
announcements wait on one line (log 25), the count before the list of an answer (log 17), and the frames of a step stand in a field of the line
(log 41). -/
def Obligations.AnnounceIsPlacedOnEachLine : Prop :=
  ((∀ (p : Port) (h : HandedRequest) (rest : List HandedRequest) (s : State) (lines pattern mask code duration : Nat),
     s.asks p h rest → h.req = .announce lines pattern mask code duration →
     (lines = 0 ∨ 15 < lines ∨ 31 < pattern ∨ 31 < mask ∨ 255 < code ∨ 255 < duration →
       exec (.announce p) s = .next (s.answered p h rest .badParam [])) ∧
     (1 ≤ lines → lines ≤ 15 → pattern ≤ 31 → mask ≤ 31 → code ≤ 255 → duration ≤ 255 →
       let ls := (List.finRange 4).filter (fun l => lines.testBit l.val)
       exec (.announce p) s = .next (ls.foldl (placeAnnounce ⟨p, h.reqno, pattern, mask, code, duration⟩)
         ((s.took p rest).setJobs
           (s.jobs ++ [{ port := p, reqno := h.reqno, announce := true, left := ls, counts := [] }]))))) ∧
   ∀ (an : Announcement) (l : Line) (s : State),
     let u := s.line l
     let busy := configuredAddrs u ≠ [] ∨ (u.phase ≠ .idle ∧ u.phase ≠ .restarted)
     (busy → u.annSlot = none → placeAnnounce an s l = s.setLine l { u with annSlot := some an, sent := [] }) ∧
     (busy → u.annSlot ≠ none → placeAnnounce an s l = s.setLine l { u with annWait := u.annWait ++ [an], sent := [] }) ∧
     (¬busy → u.annSlot = none → u.annWait = [] →
       placeAnnounce an s l = sendAnnounce l (s.setLine l { u with annSlot := some an, sent := [] }))) ∧
  (∀ (l : Line) (s : State),
     let u := s.line l
     (u.annSlot = none → sendAnnounce l s = s) ∧
     (∀ an, u.annSlot = some an →
       let matched := (List.finRange 32).filter (fun a => decide ((s.ctx l a).pstate ≠ .unconfigured) && an.hits a)
       sendAnnounce l s = lineDone l an.port an.reqno true matched.length
         (s.setLine l { u with annSlot := u.annWait.head?, annWait := u.annWait.tail, sent := u.sent ++ [announceFrame an] }))) ∧
  (∀ (l : Line) (s : State) (before after : List LineJob) (j : LineJob) (count : Nat),
     s.jobs = before ++ j :: after →
     (∀ k ∈ before ++ after, ¬(k.port = j.port ∧ k.reqno = j.reqno ∧ k.announce = j.announce) ∧ k.left ≠ []) →
     let left := j.left.filter (fun x => x != l)
     let counts := j.counts ++ [(l, count)]
     (left ≠ [] → lineDone l j.port j.reqno j.announce count s =
       s.setJobs (before ++ { j with left := left, counts := counts } :: after)) ∧
     (left = [] → lineDone l j.port j.reqno j.announce count s =
       answer j.port j.reqno .ok
         (if j.announce then
           eList (fun x : Line × Nat => e1 x.2) ((List.finRange 4).flatMap (fun m => counts.filter (fun x => x.1 = m)))
          else [])
         (s.setJobs (before ++ after)))) ∧
  (∀ (an : Announcement) (a : Addr),
     (an.hits a = true ↔ ∀ b : Fin 5, an.mask.testBit b.val = true ∨ (a.val.testBit b.val = an.pattern.testBit b.val)) ∧
     (an.mask = 31 → an.hits a = true) ∧ (an.mask = 0 → an.pattern ≤ 31 → (an.hits a = true ↔ a.val = an.pattern)))

/-- LINE_CONFIG_APPLIED (05 R86): each address is compared with the active room table; a newly named one is configured OFFLINE, one no
longer named is made as after reset with panel down handed and leaves the cycle in progress (R87), and one that names another room loses its
readings and asks for its display. LINE_SUPPLY_CHANGE and LINE_WARM_START (05 R90, R106): at RETAIN the line stops, its turn abandoned; at a
warm start its cycle and slot go, its announcements are abandoned without an answer, and every configured panel is OFFLINE with its
readings, events and display versions cleared, its room and ACK_SEQ kept; a record that stood in DENTRY becomes UNSENT, and a panel without
one asks OCU for its display. The model's choices: a line left with nothing to poll sends what waits at once (log 25), the frames of a step
stand in a field of the line (log 41), the addresses are taken in ascending order (log 54), LINE_RESETs that wait are done as the turn is
abandoned (log 24), and the era by which OCU tells reports handed before a stop or a warm start (log 62). -/
def Obligations.LinesFollowTablesAndSupply : Prop :=
  ((∀ (l : Line) (s : State) (sig : ConfigSignal), s.wires.config[lineCfg l].head? = some sig →
     exec (.lineConfigApplied l) s = .next (settleConfig (flushAnnounces l
       ((List.finRange 32).foldl (reconfigure l) (clearSent l (popConfig (lineCfg l) s)))))) ∧
   ∀ (l : Line) (s : State) (a : Addr),
     let c := s.ctx l a
     let inCtx (x : PanelCtx) (t : State) := t.setLine l { t.line l with ctx := put (t.line l).ctx a x }
     (c.pstate = .unconfigured → namingRoom s l a = none → reconfigure l s a = s) ∧
     (∀ r, c.pstate = .unconfigured → namingRoom s l a = some r →
       reconfigure l s a = inCtx { PanelCtx.reset with pstate := .offline, room := some r } s) ∧
     (∀ r, c.pstate ≠ .unconfigured → namingRoom s l a = some r → c.room = some r → reconfigure l s a = s) ∧
     (∀ q, c.pstate ≠ .unconfigured → c.room = some q → namingRoom s l a = none →
       reconfigure l s a = (handOcu l a (.down q) s).setLine l
         { s.line l with ctx := put (s.line l).ctx a PanelCtx.reset, rest := (s.line l).rest.filter (fun x => x != a) }) ∧
     (∀ q r, c.pstate ≠ .unconfigured → c.room = some q → namingRoom s l a = some r → q ≠ r →
       reconfigure l s a = handOcu l a (.loss r)
         (inCtx { c with room := some r, rawLast := none, rawPrev := none, dentry := some .awaiting } (handOcu l a (.down q) s)))) ∧
  (∀ (l : Line) (s : State),
     let reset := (s.line l).resetWait ≠ []
     (∀ x, s.wires.supply[lineIx l].head? = some (.state x) →
       (x ≠ .retain → exec (.lineSupplyChange l) s = .next (settleSupply (popSupply (lineIx l) s))) ∧
       (x = .retain → exec (.lineSupplyChange l) s = .next (settleSupply (doResets l
         ((popSupply (lineIx l) s).setLine l { s.line l with phase := .stopped, rest := [], sent := [], era := (s.line l).era + 1 }))))) ∧
     (s.wires.supply[lineIx l].head? = some .warmStart →
       let configured := (List.finRange 32).filter (fun a => decide ((s.ctx l a).pstate ≠ .unconfigured))
       let told (m : Room → LineMsg) (as : List Addr) := as.filterMap (fun a => (s.ctx l a).room.map (fun r => (a, m r)))
       let downs := told .down (configured.filter (fun a => decide (reset ∧ (s.ctx l a).pstate = .online)))
       let losses := told .loss (configured.filter (fun a => decide ((s.ctx l a).dentry = none ∨ (s.ctx l a).dentry = some .awaiting)))
       ∃ t : State, exec (.lineWarmStart l) s = .next (settleSupply t) ∧ (t.line l).phase = .restarted ∧ (t.line l).cycleStart = none ∧
         (t.line l).cycleList = [] ∧ (t.line l).rest = [] ∧ (t.line l).resetWait = [] ∧ (t.line l).annSlot = none ∧ (t.line l).annWait = [] ∧
         (t.line l).era = (s.line l).era + 1 ∧
         t.wires.fromLine = put s.wires.fromLine l (s.wires.fromLine[l] ++ downs ++ losses) ∧
         (∀ j ∈ t.jobs, ¬(j.announce = true ∧ l ∈ j.left)) ∧
         (∀ j ∈ s.jobs, j.announce = true → l ∉ j.left → j.left ≠ [] → j ∈ t.jobs) ∧
         (¬reset → t.jobs = s.jobs.filter (fun j => !(j.announce && j.left.contains l)) ∧ t.wires.answers = s.wires.answers) ∧
         (t.line l).crcCount = (if reset then 0 else (s.line l).crcCount) ∧
         (t.line l).timeoutCount = (if reset then 0 else (s.line l).timeoutCount) ∧
         (t.line l).trap = (if reset then none else (s.line l).trap) ∧
         (∀ a, (s.ctx l a).pstate = .unconfigured → t.ctx l a = s.ctx l a) ∧
         (∀ a, (s.ctx l a).pstate ≠ .unconfigured →
           t.ctx l a = { s.ctx l a with
             pstate := .offline, missed := 0, rawLast := none, rawPrev := none, evbuf := [], outstanding := none, dvSent := none,
             dvAck := none
             ackSeq := if reset then none else (s.ctx l a).ackSeq
             dentry := match (s.ctx l a).dentry with
               | some (.unsent d) => some (.unsent d)
               | some (.sent d _) => some (.unsent d)
               | _ => some .awaiting }) ∧
         (∀ l', l' ≠ l → t.line l' = s.line l') ∧ Only [.lines, .jobs, .pwc, .wires] s t))

/-! ## The occupancy unit -/

/-- PRESENCE_REPORT, PANEL_DOWN and PANEL_UP (06 R108, R109, R118, R121): two equal readings become the room's PRESENCE, and OCCUPIED newly
reached withdraws an unpresented ghost release and tests for a presence check-in; a panel down makes it UNKNOWN; a panel up changes none. A
report that a line handed before its own stop or restart has no effect once OCU has taken its indication of that stop or restart (06 R110).
The withdrawal (06 R121): the room's GHOST item leaves QUEUE and its count restarts at 0, the counted record standing; a room with no GHOST
item in QUEUE keeps its count, also while its item is PRESENTED. The presence check-in test (06 R118): what it asks of the zone, the clock
and the room's schedule, and the item it queues once. The bodies it looks at are read with their check first (03 R62). Which bodies those
are (log 35), and that *becomes* OCCUPIED is a change of PRESENCE (log 45), are the model's choices; that a report of an earlier era is
taken without effect is read from R110, and the eras that tell such reports are the model's own (log 62). -/
def Obligations.PresenceIsConfirmedByPairs : Prop :=
  (∀ (l : Line) (a : Addr) (s : State) (rest : List (Addr × LineMsg)) (r : Room),
     let u := s.setWires { s.wires with fromLine := put s.wires.fromLine l rest }
     let known (x : Presence) := u.setOcu { s.ocu with presence := put s.ocu.presence r x }
     (∀ era last prev, takeAddr a s.wires.fromLine[l] = some (.presence era r last prev, rest) →
       (era < s.ocu.era ∨ prev ≠ some last → exec (.presenceReport l a) s = .next u) ∧
       (s.ocu.era ≤ era → prev = some last →
         (last = .vacant → exec (.presenceReport l a) s = .next (known .vacant)) ∧
         (last = .fault → exec (.presenceReport l a) s = .next (known .unknown)) ∧
         (last = .occupied → s.ocu.presence[r] = .occupied → exec (.presenceReport l a) s = .next (known .occupied)) ∧
         (last = .occupied → s.ocu.presence[r] ≠ .occupied →
           exec (.presenceReport l a) s = .next (testPresence r (withdrawGhost r (known .occupied)))))) ∧
     (takeAddr a s.wires.fromLine[l] = some (.down r, rest) → exec (.panelDown l a) s = .next (known .unknown)) ∧
     (takeAddr a s.wires.fromLine[l] = some (.up r, rest) → exec (.panelUp l a) s = .next u)) ∧
  (∀ (s : State) (r : Room),
     let theirs (x : Item) : Bool := x.origin = .ghost && x.room = r
     (s.ocu.queue.any theirs = false → withdrawGhost r s = s) ∧
     (s.ocu.queue.any theirs = true → withdrawGhost r s = s.setOcu
       { s.ocu with queue := s.ocu.queue.filter (fun x => !theirs x), ghostCount := put s.ocu.ghostCount r 0 })) ∧
  (∀ (s : State) (r : Room),
     presenceTest s r = true ↔
       s.clockSet .ocu = true ∧ (s.attrOf r).presenceCheckin = true ∧ (s.attrOf r).badgeOnly = false ∧
         ∃ e ∈ s.schedule r, e.summary = .confirmed ∧ (s.bookRec e.index).body.earlyIn = false ∧ e.start ≤ s.ocuSlot ∧
           s.ocuSlot < e.start + (s.attrOf r).g) ∧
  (∀ (s : State) (r : Room),
     let u := readForPresence r s
     let t := testPresence r s
     let queued := ∃ x ∈ allItems s, x.origin = .presence ∧ x.room = r
     (presenceTest u r = false ∨ queued → t = u) ∧
     (presenceTest u r = true → ¬queued → allItems t = allItems s ++ [plainItem .presence r .panelCheckin]) ∧
     ((∀ e ∈ s.schedule r, e.summary = .confirmed → (s.bookRec e.index).body.faults = 0) → u = s) ∧ Only [.book, .wires] s u)

/-- The requests of panel events (06 R113): CHECK_IN and BADGE check in, END_NOW ends, EXTEND asks 3 or 6 slots, BOOK_NOW walks up.
PANEL_EVENT (06 R111, R113, R114): an issue report becomes a notice, with no booking, order or causing port, and is TAKEN; with the clock
not set any other event is TAKEN with NOT_AVAILABLE; else its request joins the queue, in place of an unpresented item of the panel, but not
while the panel's item is PRESENTED. BOOK_OUTCOME (06 R111, R115, R119, R121): the presented item is answered by its origin and the next
item is presented: a PANEL item sets feedback and gives its verdict, a PRESENCE item does neither, a GHOST item clears the room's count. The
feedback and verdict of every outcome are those of the table of 06 R115, and a feedback stands until two slots after the current one (06
R116). -/
def Obligations.PanelEventsAndTheirOutcomes : Prop :=
  (EvKind.request .checkIn = some (.panelCheckin, none, none) ∧ (∀ n, EvKind.request (.badge n) = some (.panelCheckin, some n, none)) ∧
     EvKind.request .endNow = some (.endNow, none, none) ∧ EvKind.request .extend15 = some (.extend, none, some 3) ∧
     EvKind.request .extend30 = some (.extend, none, some 6) ∧ (∀ b, EvKind.request (.bookNow b) = some (.walkup, b, none)) ∧
     (∀ c, EvKind.request (.reportIssue c) = none) ∧ EvKind.request .void = none) ∧
  (∀ (l : Line) (a : Addr) (s : State) (rest : List (Addr × LineMsg)) (r : Room) (ev : PEvent),
     takeAddr a s.wires.fromLine[l] = some (.event r ev, rest) →
     let u := s.setWires { s.wires with fromLine := put s.wires.fromLine l rest }
     (∀ code, ev.kind = .reportIssue code →
       ∃ t : State, exec (.panelEvent l a) s = .next t ∧ t.wires.toLine = modAt s.wires.toLine l (· ++ [(a, .verdict ev.seq true)]) ∧
         t.wires.notices = modAt s.wires.notices (producerIx .ocu) (· ++
           [{ note := { kind := .issueReport, date := s.now .ocu, booking := none, order := none, room := some r,
                        panel := some ⟨l, a⟩, detail := code },
              dated := true, owner := none, cause := none }]) ∧
         t.ocu = s.ocu ∧ Only [.wires] s t) ∧
     (∀ req badge slots, ev.kind.request = some (req, badge, slots) →
       (s.clockSet .ocu = false →
         exec (.panelEvent l a) s = .next (handLine l a (.verdict ev.seq true) (setFeedback r .notAvailable u))) ∧
       (s.clockSet .ocu = true → (∃ x, s.ocu.presented = some x ∧ x.fromPanel l a = true) →
         exec (.panelEvent l a) s = .next (handLine l a (.verdict ev.seq false) u)) ∧
       (s.clockSet .ocu = true → (∀ x, s.ocu.presented = some x → x.fromPanel l a = false) →
         let it : Item :=
           { origin := .panel, room := r, request := req, badge := badge, slots := slots, source := some ⟨l, a, ev.seq, ev.kind⟩ }
         ∃ t : State, exec (.panelEvent l a) s = .next t ∧
           allItems t = (allItems s).filter (fun x => !x.fromPanel l a) ++ [it] ∧ t.ocu.presented.isSome = true ∧
           (∀ x ∈ s.ocu.queue, x.fromPanel l a = true → ∀ y, x.source = some y →
             (y.addr, .verdict y.seq false) ∈ t.wires.toLine[y.line]) ∧ Only [.ocu, .wires] s t))) ∧
  (∀ (s : State) (it : Item) (o : BookOutcome), s.ocu.presented = some it → s.wires.outcome = some o →
     let u := (s.setWires { s.wires with outcome := none }).setOcu { s.ocu with presented := none }
     (it.origin = .presence → exec .bookOutcome s = .next (presentNext u)) ∧
     (it.origin = .ghost → exec .bookOutcome s = .next (presentNext (u.setOcu
       { u.ocu with ghostCount := put s.ocu.ghostCount it.room 0, ghostRec := put s.ocu.ghostRec it.room none }))) ∧
     (∀ x f taken, it.origin = .panel → it.source = some x → feedbackOf it.request o = some (f, taken) →
       exec .bookOutcome s =
         .next (presentNext (handLine x.line x.addr (.verdict x.seq taken) (setFeedback it.room f u)))) ∧
     (∀ q, feedbackOf q .busyRecord = some (.busy, false)) ∧
     (∀ id,
       feedbackOf .panelCheckin .checkedInEarly = some (.ok, true) ∧ feedbackOf .panelCheckin .checkedIn = some (.ok, true) ∧
       feedbackOf .panelCheckin .verified = some (.ok, true) ∧ feedbackOf .panelCheckin .already = some (.ok, true) ∧
       feedbackOf .panelCheckin .tooLate = some (.tooLate, true) ∧ feedbackOf .panelCheckin .nothing = some (.nothingToCheckIn, true) ∧
       feedbackOf .panelCheckin .notOrganiser = some (.notOrganiser, true) ∧
       feedbackOf .endNow (.done id) = some (.ok, true) ∧ feedbackOf .endNow .nothing = some (.notAvailable, true) ∧
       feedbackOf .extend (.done id) = some (.ok, true) ∧ feedbackOf .extend .noGain = some (.cannotExtend, true) ∧
       feedbackOf .extend .nothing = some (.cannotExtend, true) ∧
       feedbackOf .walkup (.done id) = some (.ok, true) ∧ feedbackOf .walkup .noGain = some (.notAvailable, true) ∧
       feedbackOf .walkup .denied = some (.notAvailable, true) ∧ feedbackOf .walkup .noRoom = some (.notAvailable, true) ∧
       feedbackOf .walkup .bookFull = some (.notAvailable, true))) ∧
  (∀ (r : Room) (f : Feedback) (s : State),
     setFeedback r f s = recompose r (s.setOcu { s.ocu with feedback := put s.ocu.feedback r (some (f, s.ocuSlot + 2)) }))

/-- What a record shows (06 R125): NOT_AVAILABLE with the clock not set or CAP 0; the entry now by its state; else the next entry within 12
slots; else free until the next entry of today, or free. `early` is E of the zone. Recomposing a room (06 R127, R130): the record composed
from what stands is handed to the room's panel when it differs from the last one handed, and a display loss has it handed even when it does
not. The record's other fields (06 R126): LABEL of the room, MEETING of the subject, CATERING by the subject's order, DIM in QUIET, FEEDBACK
of the room. That CATERING is NONE for an order the planner no longer holds is the model's choice (log 32). -/
def Obligations.DisplayRecordsAreComposedAndHanded : Prop :=
  (∀ (s : State) (r : Room),
     let slot := s.ocuSlot
     let early := (s.attrOf r).e
     let x := shown s r
     (s.clockSet .ocu = false ∨ (s.roomRec r).cap = 0 → x = ⟨.notAvailable, none, none, none⟩) ∧
     (s.clockSet .ocu = true → (s.roomRec r).cap ≠ 0 →
       (∀ e, entryNow s r slot = some e →
         (e.summary = .damaged → x = ⟨.checkConsole, some e, some e.stop, none⟩) ∧
         (e.summary = .block → x = ⟨.outOfService, some e, some e.stop, none⟩) ∧
         (e.summary = .active → x = ⟨.inUse, some e, some e.stop, none⟩) ∧
         (e.summary = .confirmed → (entryBody s e).earlyIn = true → x = ⟨.inUse, some e, some e.stop, none⟩) ∧
         (e.summary = .confirmed → (entryBody s e).earlyIn = false → x = ⟨.checkinOpen, some e, some e.stop, some e.start⟩) ∧
         (e.summary = .held → x = ⟨.heldNext, some e, some e.stop, some e.start⟩)) ∧
       (entryNow s r slot = none → ∀ e, nextEntry s r slot = some e →
         (e.start < slot + 12 → e.summary = .confirmed → (entryBody s e).earlyIn = true →
           x = ⟨.inUse, some e, some e.stop, some e.start⟩) ∧
         (e.start < slot + 12 → e.summary = .confirmed → (entryBody s e).earlyIn = false → e.start ≤ slot + early →
           x = ⟨.checkinOpen, some e, some e.start, some e.start⟩) ∧
         (e.start < slot + 12 → e.summary = .confirmed → (entryBody s e).earlyIn = false → slot + early < e.start →
           x = ⟨.bookedNext, some e, some e.start, some e.start⟩) ∧
         (e.start < slot + 12 → e.summary = .held → x = ⟨.heldNext, some e, some e.start, some e.start⟩) ∧
         (slot + 12 ≤ e.start ∨ (e.summary ≠ .confirmed ∧ e.summary ≠ .held) → x = if e.start < ((s.now .ocu).day + 1) * 288 then ⟨.freeUntil, none, some e.start, none⟩
           else ⟨.free, none, none, none⟩)) ∧
       (entryNow s r slot = none → nextEntry s r slot = none → x = ⟨.free, none, none, none⟩))) ∧
  (∀ (s : State) (r : Room),
     let d := compose s r
     let x := shown s r
     d.roomState = x.roomState ∧ d.label = (s.roomRec r).label ∧ d.till = x.till.map (· * 5) ∧ d.next = x.next.map (· * 5) ∧
     (d.dim = true ↔ s.pwc.sstate = .quiet) ∧ d.feedback = (s.ocu.feedback[r]).map Prod.fst ∧
     (x.subject = none → d.meeting = none ∧ d.catering = .none) ∧
     (∀ e, x.subject = some e →
       let b := entryBody s e
       let order := (s.bookRec e.index).order
       let served := e.summary ≠ .damaged ∧ b.cateringDelivered = true
       (e.summary = .damaged → d.meeting = none) ∧ (e.summary ≠ .damaged → d.meeting = b.display) ∧
       (served → d.catering = .delivered) ∧
       (¬served → (∀ id, order = some id → resolveOrder id s = none) → d.catering = .none) ∧
       (∀ id o, ¬served → order = some id → NamedOrder s id o →
         (o.late = true → d.catering = .late) ∧
         (o.late = false → o.state = .due → d.catering = .onWay) ∧
         (o.late = false → o.state = .committed → d.catering = .preparing) ∧
         (o.late = false → o.state ≠ .due → o.state ≠ .committed → d.catering = .none)))) ∧
  (∀ (s : State) (r : Room),
     let u := readForDisplay r s
     let handed (p : PanelAddr) := (handLine p.line p.addr (.display (compose u r)) u).setOcu
       { u.ocu with lastDisplay := put u.ocu.lastDisplay r (some (compose u r)) }
     ((s.roomRec r).panel = none → recompose r s = u ∧ displayLoss r s = u) ∧
     (∀ p, (s.roomRec r).panel = some p →
       displayLoss r s = handed p ∧
       (s.ocu.lastDisplay[r] = some (compose u r) → recompose r s = u) ∧
       (s.ocu.lastDisplay[r] ≠ some (compose u r) → recompose r s = handed p)))

/-- The commands that recompose rooms (06 R116, R128 to R130): a schedule or order indication its room, a display loss its room, an expired
feedback its room, an apply the changed rooms. OCU_SUPPLY_CHANGE, OCU_STOP and OCU_WARM_START (06 R110, R112, R116, R122, R128, R131):
RETAIN and the warm start make every PRESENCE UNKNOWN; a stop empties the queue, giving the panel events back with REPEAT, and withdraws a
presented request the book has not taken, and presence, feedback, ghost counts and LAST_DISPLAY stand; the warm start drops feedback, and
keeps the queue, the presented request, the ghost counts and their records, and LAST_DISPLAY. The model's choices: FEEDBACK_EXPIRY acts on
one room at OCU's copy of the time (log 7), one indication stands for a schedule and a record indication (log 50), a warm start recomposes
the rooms whose feedback it drops (log 39), several rooms are recomposed by ascending index (log 54), and the era by which reports handed
before the stop are told (log 62). -/
def Obligations.OcuFollowsIndicationsAndSupply : Prop :=
  (∀ s : State,
     (∀ r rs, s.wires.sched = r :: rs → exec .scheduleIndication s = .next (recompose r (s.setWires { s.wires with sched := rs }))) ∧
     (∀ r rs, s.wires.orders = r :: rs → exec .orderIndication s = .next (recompose r (s.setWires { s.wires with orders := rs }))) ∧
     (∀ (l : Line) (a : Addr) (r : Room) (rest : List (Addr × LineMsg)), takeAddr a s.wires.fromLine[l] = some (.loss r, rest) →
       exec (.displayLoss l a) s = .next (displayLoss r (s.setWires { s.wires with fromLine := put s.wires.fromLine l rest }))) ∧
     (∀ (r : Room) (f : Feedback) (x : Nat), (s.now .ocu).minute % 5 = 0 → s.ocu.feedback[r] = some (f, x) →
       (x ≤ s.ocuSlot → exec (.feedbackExpiry r) s =
         .next (recompose r (s.setOcu { s.ocu with feedback := put s.ocu.feedback r none }))) ∧
       (s.ocuSlot < x → exec (.feedbackExpiry r) s = .next s)) ∧
     (∀ sig, s.wires.config[ocuCfg].head? = some sig →
       exec .ocuConfigApplied s = .next (settleConfig (sig.changed.foldl (fun t r =>
         recompose r (if r ∈ sig.panelChanged then t.setOcu { t.ocu with lastDisplay := put t.ocu.lastDisplay r none } else t))
         (popConfig ocuCfg s))))) ∧
  (∀ s : State,
     (∀ x, s.wires.supply[ocuIx].head? = some (.state x) →
       let u := popSupply ocuIx s
       exec .ocuSupplyChange s = .next (settleSupply (recomposeAll
         (if x = .retain then u.setOcu { u.ocu with presence := Vector.replicate 128 .unknown, era := s.ocu.era + 1 } else u)))) ∧
     (s.wires.supply[ocuIx].head? = some .stop →
       ∃ t : State, exec .ocuStop s = .next t ∧
         t.ocu = { s.ocu with queue := [], presented := if s.wires.outcome = none then none else s.ocu.presented } ∧
         (∀ it ∈ s.ocu.queue, ∀ x, it.source = some x → (x.addr, .verdict x.seq false) ∈ t.wires.toLine[x.line]) ∧
         (∀ it x, s.ocu.presented = some it → s.wires.outcome = none → it.source = some x →
           (x.addr, .verdict x.seq false) ∈ t.wires.toLine[x.line]) ∧ Only [.ocu, .pwc, .wires] s t) ∧
     (s.wires.supply[ocuIx].head? = some .warmStart →
       let u := popSupply ocuIx s
       let fresh := u.setOcu
         { s.ocu with presence := Vector.replicate 128 .unknown, feedback := Vector.replicate 128 none, era := s.ocu.era + 1 }
       exec .ocuWarmStart s = .next (settleSupply
         (((List.finRange 128).filter (fun r => (s.ocu.feedback[r]).isSome)).foldl (fun v r => recompose r v) fresh)) ∧
       ∃ t : State, exec .ocuWarmStart s = .next t ∧
         t.ocu = { fresh.ocu with lastDisplay := t.ocu.lastDisplay } ∧
         (∀ r : Room, s.ocu.feedback[r] = none → t.ocu.lastDisplay[r] = s.ocu.lastDisplay[r]) ∧ Only [.ocu, .book, .pwc, .wires] s t))

/-- OCU_SLOT_BOUNDARY (06 R116, R120, R128): at a slot boundary OCU drops expired feedback, counts ghosts unless in RETAIN, tests the
occupied rooms and recomposes every room; any other tick only moves its copy of the time. Ghost counting of one room (06 R120): the counted
record is that of the room's ACTIVE entry that contains the slot, without UNVERIFIED; with no counted record the count and its record are
cleared; a VACANT boundary raises the count, an OCCUPIED one clears it, an UNKNOWN one keeps it; at H the release is queued once. The bodies
that decide the counted record are read with their check first (03 R62). The model's choices: the row takes any tick (log 8), a room is
recomposed once at a slot boundary (log 33), which bodies are read (log 35), and the order of the rooms (log 54). -/
def Obligations.OcuTakesASlotBoundary : Prop :=
  (∀ (s : State) (c : Clock), s.timeHead .ocu = some (.tick c) →
     let u := s.ticked .ocu c
     let v := u.setOcu { u.ocu with feedback := mapV (fun f => if f.any (fun x => decide (x.2 ≤ c.slot)) then none else f) u.ocu.feedback }
     let w := if s.pwc.sstate = .retain then v else (List.finRange 128).foldl (ghostCountOne c.slot) v
     let x := (ixsWhere (fun p => p = .occupied) w.ocu.presence).foldl (fun t r => testPresence r t) w
     (c.minute % 5 ≠ 0 → exec .ocuSlotBoundary s = .next (settleTime u)) ∧
     (c.minute % 5 = 0 → exec .ocuSlotBoundary s =
       .next (settleTime ((List.finRange 128).foldl (fun t r => recompose r t) x)))) ∧
  (∀ (slot : Nat) (s : State) (r : Room),
     let u := readForGhost slot r s
     let t := ghostCountOne slot s r
     (∀ r', r' ≠ r → t.ocu.ghostCount[r'] = s.ocu.ghostCount[r'] ∧ t.ocu.ghostRec[r'] = s.ocu.ghostRec[r']) ∧
     Only [.ocu, .book, .wires] s t ∧ t.book = u.book ∧ t.wires = u.wires ∧
     ((s.attrOf r).h = 0 ∨ (∀ e ∈ s.schedule r, e.summary = .active → (s.bookRec e.index).body.faults = 0) → u = s) ∧
     (countedRecord s slot r = none ↔ (s.attrOf r).h = 0 ∨ ∀ e ∈ s.schedule r, e.summary = .active → e.start ≤ slot → slot < e.stop →
       (s.bookRec e.index).body.unverified = true) ∧
     (let counts (e : Entry) : Prop := e ∈ s.schedule r ∧ e.summary = .active ∧ e.start ≤ slot ∧ slot < e.stop ∧
        (s.bookRec e.index).body.unverified = false
      (∀ id, countedRecord s slot r = some id → (s.attrOf r).h ≠ 0 ∧ ∃ e, counts e ∧ id = s.handle e.index) ∧
      (∀ e, (s.attrOf r).h ≠ 0 → counts e → (∀ e', counts e' → e' = e) →
        ∀ id, countedRecord s slot r = some id ↔ id = s.handle e.index)) ∧
     (countedRecord u slot r = none → t.ocu.ghostCount[r] = 0 ∧ t.ocu.ghostRec[r] = none ∧ allItems t = allItems s) ∧
     (∀ id, countedRecord u slot r = some id →
       let before := if s.ocu.ghostRec[r] = some id then s.ocu.ghostCount[r] else 0
       let n := match s.ocu.presence[r] with
         | .vacant => min (before + 1) 12
         | .occupied => 0
         | .unknown => before
       t.ocu.ghostCount[r] = n ∧ t.ocu.ghostRec[r] = some id ∧
       (n < (s.attrOf r).h → allItems t = allItems s) ∧
       ((s.attrOf r).h ≤ n → (∀ x ∈ allItems s, x.origin ≠ .ghost ∨ x.room ≠ r) →
         allItems t = allItems s ++ [plainItem .ghost r .ghostRelease]) ∧
       ((s.attrOf r).h ≤ n → (∃ x ∈ allItems s, x.origin = .ghost ∧ x.room = r) → allItems t = allItems s)))

/-! ## The kitchen planner -/

/-- A placement trial (07 R145): it places nothing in a kitchen that is off or too late to begin, and what it places are whole units in at
most four buckets of the window before the departure, each within what the bucket has left. It takes from the last bucket of the window
down: each bucket with headroom in its turn, whole but for the last taken, and it succeeds when the first four such buckets have room
enough. A placement (07 R146): the kitchen asked for, or the room's primary one, and where that fails and fallback is allowed the room's
secondary one; the code is that of the last trial made. Adding contributions raises the LOADs of their buckets and withdrawing them lowers
those LOADs (07 R136). A new order takes the lowest free record, and an Order ID names the live order of its generation (07 R141). A notice
of the planner about an order (07 R142, 08 R163) has the planner's date, the Order ID, the Booking ID when BOOKING is present, the ROOM, the
order's OWNER as owner port and the causing port named; a DETAIL that carries KITCHEN is 0 where that is absent, which the manual does not
say (log 34, DEDUCED). Freeing an order (07 R141): its contributions, however many, return to their buckets, it leaves the deferred list,
and the generation advances. That a free order holds a blank record is the model's choice (log 42). -/
def Obligations.PlacementsKeepWithinCapacity : Prop :=
  (∀ (s : State) (room : Room) (units : Nat) (m : Int) (k : Kitchen),
     let kitchen := s.kpl.kitchens[k]
     let departure : Int := m / 15 - (((s.roomRec room).travel)[k] : Nat)
     let now : Int := s.kplBucket
     (kitchen.enabled = false → trial s room units m k = .error .kitchenFull) ∧
     (kitchen.enabled = true → departure - 1 < now + 1 → trial s room units m k = .error .tooSoon) ∧
     (∀ pl, trial s room units m k = .ok pl →
       kitchen.enabled = true ∧ pl.kitchen = k ∧ (pl.departure : Int) = departure ∧ pl.contribs.length ≤ 4 ∧
       (pl.contribs.map Prod.snd).sum = units ∧ pl.contribs.Pairwise (fun x y => x.1 < y.1) ∧
       (∀ x ∈ pl.contribs, 0 < x.2 ∧ s.load k x.1 + x.2 ≤ kitchen.capb ∧ now + 1 ≤ (x.1 : Int) ∧ (x.1 : Int) < departure ∧
         departure - kitchen.lead ≤ (x.1 : Int)) ∧
       (∀ x ∈ pl.contribs, ∀ y ∈ pl.contribs, x.1 < y.1 → s.load k y.1 + y.2 = kitchen.capb) ∧
       (∀ x ∈ pl.contribs, ∀ b, x.1 < b → b < pl.departure → s.load k b < kitchen.capb → b ∈ pl.contribs.map Prod.fst)) ∧
     (kitchen.enabled = true → now + 1 ≤ departure - 1 →
       let last := (departure - 1).toNat
       let open_ := ((List.range (min kitchen.lead (last - s.kplBucket))).map (fun n => last - n)).filter
         (fun b => decide (s.load k b < kitchen.capb))
       let room4 := ((open_.take 4).map (fun b => kitchen.capb - s.load k b)).sum
       (units ≤ room4 → ∃ pl, trial s room units m k = .ok pl) ∧ (room4 < units → trial s room units m k = .error .kitchenFull))) ∧
  (∀ (s : State) (room : Room) (kreq : KReq) (fallback : Bool) (units : Nat) (m : Int),
     let first : Except Code Placing := match kreq, (s.roomRec room).k1 with
       | .kitchen k, _ => trial s room units m k
       | .primary, some k => trial s room units m k
       | .primary, none => .error .kitchenFull
     (∀ pl, first = .ok pl → placement s room kreq fallback units m = .ok pl) ∧
     (∀ c, first = .error c → fallback = false ∨ (s.roomRec room).k2 = none → placement s room kreq fallback units m = .error c) ∧
     (∀ c k, first = .error c → fallback = true → (s.roomRec room).k2 = some k →
       placement s room kreq fallback units m = trial s room units m k)) ∧
  (∀ (k : Kitchen) (cs : List (Nat × Nat)) (s : State),
     let t := addLoads (some k) cs s
     (∀ b, s.kplDay * 96 ≤ b → b < s.kplDay * 96 + 192 →
       t.load k b = s.load k b + ((cs.filter (fun c => c.1 = b)).map Prod.snd).sum) ∧
     (∀ k' b, k' ≠ k → t.load k' b = s.load k' b) ∧ t.kpl = { s.kpl with maps := t.kpl.maps } ∧ Only [.kpl] s t) ∧
  (∀ (k : Kitchen) (cs : List (Nat × Nat)) (s : State),
     let t := withdrawLoads (some k) cs s
     (∀ b, t.load k b = s.load k b - ((cs.filter (fun c => c.1 = b)).map Prod.snd).sum) ∧
     (∀ k' b, k' ≠ k → t.load k' b = s.load k' b) ∧ t.kpl = { s.kpl with maps := t.kpl.maps } ∧ Only [.kpl] s t ∧
     withdrawLoads none cs s = s ∧ addLoads none cs s = s) ∧
  (∀ s : State, (s.freeOrder = none ↔ ∀ i, (s.orderRec i).live = true) ∧
     (∀ i, s.freeOrder = some i ↔ (s.orderRec i).live = false ∧ ∀ j, j < i → (s.orderRec j).live = true) ∧
     (∀ id o, resolveOrder id s = some o ↔ o = s.orderRec id.index ∧ o.live = true ∧ o.gen = id.gen) ∧
     ∀ (day : Nat) (m : Int), dueBefore day m = true ↔ m < ((day * 1440 : Nat) : Int)) ∧
  (∀ (i : OrderIx) (o : OrderRec) (pl : Placing) (s : State),
     writePlaced i o pl s = addLoads (some pl.kitchen) pl.contribs (setOrder i
       { o with state := .placed, kitchen := some pl.kitchen, departure := some pl.departure, contribs := pl.contribs } s) ∧
     leaveDeferred i s = s.setKpl { s.kpl with deferred := s.kpl.deferred.filter (fun j => j != i) }) ∧
  (∀ (kind : NoticeKind) (i : OrderIx) (o : OrderRec) (detail : Nat) (cause : Option Port) (s : State),
     let note : HandedNotice :=
       { note := { kind := kind, date := s.now .kpl, booking := o.booking, order := some ⟨i, o.gen⟩, room := some o.room,
                   panel := none, detail := detail },
         dated := true, owner := some o.owner, cause := cause }
     orderNotice kind i o detail cause s =
       s.setWires { s.wires with notices := modAt s.wires.notices (producerIx .kpl) (· ++ [note]) } ∧
     (o.kitchen = none → kitchenDetail o = 0) ∧ (∀ k, o.kitchen = some k → kitchenDetail o = k.val)) ∧
  (∀ (i : OrderIx) (s : State),
     let o := s.orderRec i
     let t := freeOrderRec i s
     t.orderRec i = OrderRec.blank (o.gen + 1) ∧ (∀ j, j ≠ i → t.orderRec j = s.orderRec j) ∧
       t.kpl.deferred = s.kpl.deferred.filter (fun j => j != i) ∧ t.kpl.kitchens = s.kpl.kitchens ∧
       (o.kitchen = none ∨ o.contribs = [] → t.kpl.maps = s.kpl.maps) ∧
       (∀ k, o.kitchen = some k →
         (∀ b, t.load k b = s.load k b - ((o.contribs.filter (fun c => c.1 = b)).map Prod.snd).sum) ∧
         ∀ k' b, k' ≠ k → t.load k' b = s.load k' b) ∧
       t.wires = { s.wires with orders := s.wires.orders ++ [o.room] } ∧ Only [.kpl, .wires] s t)

/-- ORDER_RETRY, ORDER_CANCEL and MARK_DELIVERED (07 R150 to R152): ORDER_RETRY first answers CLOCK_UNSET while the clock is not set; each
answers UNKNOWN for an Order ID that names no order; an UNPLACED order is placed again; an order not yet committed is freed with
ORDER_CANCELLED and one COMMITTED or DUE is freed as delivered, the book being told where a booking is named; a GATEWAY that is not the
owner is DENIED the first two. -/
def Obligations.OrderRequests : Prop :=
  (∀ (p : Port) (h : HandedRequest) (rest : List HandedRequest) (s : State) (id : OrderId), s.asks p h rest →
     (h.req = .orderRetry id → s.clockSet .kpl = false → exec (.orderRetry p) s = .next (s.answered p h rest .clockUnset [])) ∧
     (resolveOrder id s = none →
       (h.req = .orderRetry id → s.clockSet .kpl = true → exec (.orderRetry p) s = .next (s.answered p h rest .unknown [])) ∧
       (h.req = .orderCancel id → exec (.orderCancel p) s = .next (s.answered p h rest .unknown [])) ∧
       (h.req = .markDelivered id → exec (.markDelivered p) s = .next (s.answered p h rest .unknown [])))) ∧
  ∀ (p : Port) (h : HandedRequest) (rest : List HandedRequest) (s : State) (id : OrderId) (o : OrderRec),
    s.asks p h rest → NamedOrder s id o →
    let u := s.took p rest
    let mine := h.role ≠ .gateway ∨ o.owner = p
    let early := o.state = .deferred ∨ o.state = .placed ∨ o.state = .unplaced
    let told (delivered : Bool) (t : State) : State := match o.booking with
      | some b => handBook (.orderEnded b id delivered) t
      | none => t
    (h.req = .orderRetry id → s.clockSet .kpl = true →
      (¬mine → exec (.orderRetry p) s = .next (s.answered p h rest .denied [])) ∧
      (mine → o.state ≠ .unplaced → exec (.orderRetry p) s = .next (s.answered p h rest .badState [])) ∧
      (∀ c, mine → o.state = .unplaced → placement s o.room o.kreq o.fallback o.units o.delivery = .error c →
        exec (.orderRetry p) s = .next (s.answered p h rest c [])) ∧
      (∀ pl, mine → o.state = .unplaced → placement s o.room o.kreq o.fallback o.units o.delivery = .ok pl →
        let x := { o with
          state := .placed, kitchen := some pl.kitchen, departure := some pl.departure, contribs := pl.contribs }
        exec (.orderRetry p) s = .next (answer p h.reqno .ok (e1 pl.kitchen.val) (handOrderInd o.room
          (orderNotice .orderPlaced id.index x (detail2 OState.placed.toNat pl.kitchen.val) (some p)
            (addLoads (some pl.kitchen) pl.contribs (setOrder id.index x u))))))) ∧
    (h.req = .orderCancel id →
      (¬mine → exec (.orderCancel p) s = .next (s.answered p h rest .denied [])) ∧
      (mine → ¬early → exec (.orderCancel p) s = .next (s.answered p h rest .cateringCommitted [])) ∧
      (mine → early → exec (.orderCancel p) s = .next (answer p h.reqno .ok []
        (told false (orderNotice .orderCancelled id.index o 0 (some p) (freeOrderRec id.index u)))))) ∧
    (h.req = .markDelivered id →
      (early → exec (.markDelivered p) s = .next (s.answered p h rest .badState [])) ∧
      (¬early → exec (.markDelivered p) s = .next (answer p h.reqno .ok [] (told true (freeOrderRec id.index u)))))

/-- PLANNER_TICK and PLANNER_ROLLOVER (07 R137 to R139): the rollover's work, then the bucket boundary's commits, dispatches and dropping of
passed contributions, then the late tests of a slot boundary, under the margins active as it is taken (R135). ORDER_COMMIT, ORDER_DISPATCH and
LATE_MARKING on one live order (07 R137, R138), at the planner's copy of the time. The rollover into a day (07 R139): the staged kitchen table,
when it is pending; the maps shifted by a day, the contributions of earlier days leaving their orders and each bucket of the new today reading
as it did as tomorrow; the deferred orders that fall due, in list order; the stale orphans, freed with ORDER_ABANDONED. A deferred order that
falls due becomes PLACED or UNPLACED, leaves the list, and hands its notice and its indication (07 R149). The model's choices: both rows take the
tick whole (log 8), the deadline rows act on one order at the planner's time (log 7) with the margins of the last slot boundary (log 53), and the
order of the orders in a step (log 54). -/
def Obligations.PlannerTakesATick : Prop :=
  (∀ (s : State) (c : Clock), s.timeHead .kpl = some (.tick c) →
     let u := s.ticked .kpl c
     let v := if c.minute = 0 then plannerRollover c.day u else u
     let committed := (liveOrders v).foldl (fun t i => commitOn c.bucket i t) v
     let dispatched := (liveOrders v).foldl (fun t i => dispatchOn c.bucket i t) committed
     let dropped := (liveOrders v).foldl (fun t i => dropPassed c.bucket i t) dispatched
     let w := if c.minute % 15 = 0 then dropped else v
     let margins := w.setKpl { w.kpl with boundaryMargins := mapV KitchenRec.lateMargin w.kpl.kitchens }
     let x := if c.minute % 5 = 0 then (liveOrders w).foldl (fun t i => lateOn c.minutes i t) margins else w
     exec .plannerTick s = .next (settleTime x) ∧ (c.minute = 0 → exec .plannerRollover s = .next (settleTime x))) ∧
  (∀ s : State, liveOrders s = (List.finRange 512).filter (fun i => (s.orderRec i).live)) ∧
  (∀ (i : OrderIx) (s : State), (s.orderRec i).live = true →
     let o := s.orderRec i
     let minute : Int := ((s.now .kpl).minutes : Nat)
     let written (kind : NoticeKind) (x : OrderRec) : State :=
       handOrderInd o.room (orderNotice kind i x (kitchenDetail o) none (setOrder i x s))
     ((s.now .kpl).minute % 15 = 0 →
       (o.state = .placed → (∃ x ∈ o.contribs, x.1 ≤ s.kplBucket) →
         exec (.orderCommit i) s = .next (written .prepDue { o with state := .committed })) ∧
       (o.state ≠ .placed ∨ (∀ x ∈ o.contribs, s.kplBucket < x.1) → exec (.orderCommit i) s = .next s) ∧
       (∀ d, o.state = .committed → o.departure = some d → d ≤ s.kplBucket →
         exec (.orderDispatch i) s = .next (written .dispatchDue { o with state := .due })) ∧
       (∀ d, o.departure = some d → o.state ≠ .committed ∨ s.kplBucket < d → exec (.orderDispatch i) s = .next s)) ∧
     ((s.now .kpl).minute % 5 = 0 → ∀ k, o.kitchen = some k →
       let late : Int := o.delivery + ((s.kpl.boundaryMargins[k] * 5 : Nat) : Int)
       (o.state = .committed ∨ o.state = .due → o.late = false → late ≤ minute →
         exec (.lateMarking i) s = .next (written .orderLate { o with late := true })) ∧
       (o.late = true ∨ minute < late ∨ (o.state ≠ .committed ∧ o.state ≠ .due) → exec (.lateMarking i) s = .next s)) ∧
     (∀ c, let t := dropPassed c i s
       (t.orderRec i = { o with contribs := o.contribs.filter (fun x => decide (c ≤ x.1)) }) ∧
       ∀ k, o.kitchen = some k → ∀ b, t.load k b = if b < c then
         s.load k b - ((o.contribs.filter (fun x => x.1 = b)).map Prod.snd).sum else s.load k b)) ∧
  (∀ (s : State) (day : Nat),
     let t := shiftMaps day s
     (∀ (k : Kitchen) (i : Fin 96),
       (t.kpl.maps[k])[i.castLE (by omega : 96 ≤ 192)] = (s.kpl.maps[k])[(⟨i.val + 96, by omega⟩ : Fin 192)] ∧
       (t.kpl.maps[k])[(⟨i.val + 96, by omega⟩ : Fin 192)] = 0) ∧
     (∀ i, t.orderRec i = { s.orderRec i with contribs := (s.orderRec i).contribs.filter (fun x => decide (day * 96 ≤ x.1)) }) ∧
     (let a := if s.kpl.method = .rollover then kitchenApply (day - 1) (day * 96) s else s
      let b := shiftMaps day a
      let c := (b.kpl.deferred.filter (fun i => decide ((b.orderRec i).delivery < (((day + 2) * 1440 : Nat) : Int)))).foldl placeDeferred b
      let stale := (List.finRange 512).filter (fun i => decide ((c.orderRec i).live = true ∧ (c.orderRec i).orphaned = true ∧
        (c.orderRec i).delivery < ((day * 1440 : Nat) : Int)))
      plannerRollover day s = stale.foldl (fun t i =>
        orderNotice .orderAbandoned i (t.orderRec i) (kitchenDetail (t.orderRec i)) none (freeOrderRec i t)) c)) ∧
  (∀ (s : State) (i : OrderIx),
     let o := s.orderRec i
     let gone (t : State) := t.setKpl { t.kpl with deferred := s.kpl.deferred.filter (fun j => j != i) }
     (∀ pl, placement s o.room o.kreq o.fallback o.units o.delivery = .ok pl →
       let x := { o with
         state := .placed, kitchen := some pl.kitchen, departure := some pl.departure, contribs := pl.contribs }
       placeDeferred s i = handOrderInd o.room (orderNotice .orderPlaced i x (detail2 OState.placed.toNat pl.kitchen.val) none
         (gone (addLoads (some pl.kitchen) pl.contribs (setOrder i x s))))) ∧
     (∀ code, placement s o.room o.kreq o.fallback o.units o.delivery = .error code →
       let x := { o with state := .unplaced }
       placeDeferred s i = handOrderInd o.room (orderNotice .orderUnplaced i x code.toNat none (gone (setOrder i x s)))))

/-- ATTACH (07 R147): with the clock set and the parameters in range, the lowest free order is DEFERRED for today + 2 or later, or placed;
the book is answered with it, or with the code of what failed. The parameters' ranges: COVERS 1..200, the three classes with their weights,
PRIMARY or a kitchen, OFFSET -6..90. An order joins the deferred list at its place by DELIVERY, ties by index (07 R149). While the planner
waits for the time-set of a RESYNC an attach is taken without effect (07 R161, log 38). The model's choices: a delivery minute before day 0
is negative (log 37), DETAIL has 0 for the KITCHEN of a DEFERRED order (log 34), the code of parameters outside their types is BAD_PARAM
(log 18), the octets of KREQ (log 16) and of FALLBACK (log 57), the free order it is written over is blank (log 42), and the attach and its
answer carry a serial number (log 59). -/
def Obligations.AttachCreatesAnOrder : Prop :=
  (∀ q : OrderParam,
     (q.judge = none ↔ q.covers = 0 ∨ 200 < q.covers ∨ 2 < q.cls ∨ 4 < q.kreq ∨ q.offset < -6 ∨ 90 < q.offset ∨ 1 < q.fallback) ∧
     (∀ k, q.judge = some k → k.covers = q.covers ∧ k.cls.toNat = q.cls ∧ k.kreq.toNat = q.kreq ∧ k.offset = q.offset ∧
       (k.fallback = true ↔ q.fallback = 1))) ∧
  (MealClass.weight .light = 1 ∧ MealClass.weight .hot = 2 ∧ MealClass.weight .full = 3) ∧
  (∀ (i : OrderIx) (s : State),
     let t := joinDeferred i s
     let before (a b : OrderIx) : Prop :=
       (s.orderRec a).delivery < (s.orderRec b).delivery ∨ ((s.orderRec a).delivery = (s.orderRec b).delivery ∧ a < b)
     t = s.setKpl { s.kpl with deferred := t.kpl.deferred } ∧ t.kpl.deferred.Perm (i :: s.kpl.deferred.filter (fun j => j != i)) ∧
     ((s.kpl.deferred.filter (fun j => j != i)).Pairwise before → t.kpl.deferred.Pairwise before)) ∧
  (∀ (s : State) (n : Nat) (id : BookingId) (room : Room) (start stop : Nat) (prm : OrderParam) (owner : Port),
     s.wires.toPlanner.head? = some (.attach n id room start stop prm owner) → s.kpl.frozen = true →
     exec .attach s = .next (s.setWires { s.wires with toPlanner := s.wires.toPlanner.tail })) ∧
  ∀ (s : State) (n : Nat) (id : BookingId) (room : Room) (start stop : Nat) (prm : OrderParam) (owner : Port),
    s.wires.toPlanner.head? = some (.attach n id room start stop prm owner) → s.kpl.frozen = false →
    let u := s.setWires { s.wires with toPlanner := s.wires.toPlanner.tail }
    let failed (c : Code) := handBook (.attachFailed n id c) u
    (s.clockSet .kpl = false → exec .attach s = .next (failed .clockUnset)) ∧
    (s.clockSet .kpl = true → prm.judge = none → exec .attach s = .next (failed .badParam)) ∧
    (∀ k, s.clockSet .kpl = true → prm.judge = some k →
      let m : Int := (start * 5 : Nat) + k.offset * 5
      (((stop * 5 : Nat) : Int) ≤ m → exec .attach s = .next (failed .badParam)) ∧
      (m < ((stop * 5 : Nat) : Int) → s.freeOrder = none → exec .attach s = .next (failed .ordersFull)) ∧
      (∀ i, m < ((stop * 5 : Nat) : Int) → s.freeOrder = some i →
        let o : OrderRec :=
          { OrderRec.blank (s.orderRec i).gen with
            live := true
            state := .deferred
            booking := some id
            room := room
            kreq := k.kreq
            fallback := k.fallback
            covers := k.covers
            cls := k.cls
            units := k.covers * k.cls.weight
            offset := k.offset
            delivery := m
            deliveryBucket := m / 15
            owner := owner }
        let created (x : OrderRec) (t : State) := handBook (.attachOk n id ⟨i, x.gen⟩)
          (handOrderInd room (orderNotice .orderPlaced i x (detail2 x.state.toNat (kitchenDetail x)) (some owner) t))
        (dueBefore (s.kplDay + 2) m = false → exec .attach s = .next (created o (joinDeferred i (setOrder i o u)))) ∧
        (∀ pl, dueBefore (s.kplDay + 2) m = true → placement s room k.kreq k.fallback (k.covers * k.cls.weight) m = .ok pl →
          let x := { o with
            state := .placed, kitchen := some pl.kitchen, departure := some pl.departure, contribs := pl.contribs }
          exec .attach s = .next (created x (addLoads (some pl.kitchen) pl.contribs (setOrder i x u)))) ∧
        (∀ c, dueBefore (s.kplDay + 2) m = true → placement s room k.kreq k.fallback (k.covers * k.cls.weight) m = .error c →
          exec .attach s = .next (failed c))))

/-- MOVE (07 R156): a stale order, or one of another booking, is answered *moved*; a COMMITTED or DUE order is not moved; a new delivery
minute outside the booking is BAD_PARAM; a DEFERRED or UNPLACED order that stays far ahead takes the new minute; a placement that fails is
KITCHEN_FULL and changes nothing. A *moved* order keeps in MOVE_UNDO what it was: its state, kitchen, delivery, departure, contributions and
whether it stood on the deferred list (07 R160). While the planner waits for the time-set of a RESYNC a move is taken without effect (07
R161, log 38). A move is not taken while an earlier *moved* answer for its order is still to be discarded, which is the model's choice (log
28), as is the serial number that a move and its answer carry (log 59). -/
def Obligations.MoveReplacesTheOrder : Prop :=
  (∀ (s : State) (n : Nat) (id : BookingId) (oid : OrderId) (room : Room) (start stop : Nat) (people : Option Nat),
     s.wires.toPlanner.head? = some (.move n id oid room start stop people) → s.kpl.frozen = true →
     ¬(∃ k b, .moveAnswer k b oid none ∈ s.wires.toBook ∧ ∀ x ∈ s.book.exchanges, x.serial = k → x.move = none) →
     exec .move s = .next (s.setWires { s.wires with toPlanner := s.wires.toPlanner.tail })) ∧
  ∀ (s : State) (n : Nat) (id : BookingId) (oid : OrderId) (room : Room) (start stop : Nat) (people : Option Nat),
    s.wires.toPlanner.head? = some (.move n id oid room start stop people) → s.kpl.frozen = false →
    let u := s.setWires { s.wires with toPlanner := s.wires.toPlanner.tail }
    let moved (t : State) := handBook (.moveAnswer n id oid none) t
    let refused (c : Code) := handBook (.moveAnswer n id oid (some c)) u
    let unsettled := ∃ k b, .moveAnswer k b oid none ∈ s.wires.toBook ∧ ∀ x ∈ s.book.exchanges, x.serial = k → x.move = none
    (unsettled → exec .move s = .next s) ∧
    (¬unsettled → resolveOrder oid s = none → exec .move s = .next (moved u)) ∧
    (∀ o, ¬unsettled → NamedOrder s oid o →
      let i := oid.index
      let m : Int := (start * 5 : Nat) + o.offset * 5
      let kept : MoveUndo :=
        { state := o.state, kitchen := o.kitchen, delivery := o.delivery, deliveryBucket := o.deliveryBucket,
          departure := o.departure, contribs := o.contribs, deferred := decide (i ∈ s.kpl.deferred) }
      let x := { o with undo := some kept, delivery := m, deliveryBucket := m / 15 }
      let far := dueBefore (s.kplDay + 2) m = false
      (o.booking ≠ some id → exec .move s = .next (moved u)) ∧
      (o.booking = some id → ((stop * 5 : Nat) : Int) ≤ m → exec .move s = .next (refused .badParam)) ∧
      (o.booking = some id → m < ((stop * 5 : Nat) : Int) →
        (o.state = .committed ∨ o.state = .due → exec .move s = .next (refused .cateringCommitted)) ∧
        (o.state = .unplaced → far → exec .move s = .next (moved (handOrderInd o.room (joinDeferred i
          (setOrder i { x with state := .deferred, kitchen := none, departure := none, contribs := [] } u))))) ∧
        (o.state = .unplaced → ¬far → exec .move s = .next (moved (setOrder i x u))) ∧
        (o.state = .deferred → far → exec .move s = .next (moved (joinDeferred i (setOrder i x u)))) ∧
        (∀ pl, o.state = .deferred → ¬far → placement u o.room o.kreq o.fallback o.units m = .ok pl →
          exec .move s = .next (moved (handOrderInd o.room (leaveDeferred i (writePlaced i x pl u))))) ∧
        (∀ c, o.state = .deferred → ¬far → placement u o.room o.kreq o.fallback o.units m = .error c →
          exec .move s = .next (refused .kitchenFull)) ∧
        (o.state = .placed →
          let v := withdrawLoads o.kitchen o.contribs u
          (far → exec .move s = .next (moved (handOrderInd o.room (joinDeferred i
            (setOrder i { x with state := .deferred, kitchen := none, departure := none, contribs := [] } v))))) ∧
          (∀ pl, ¬far → placement v o.room o.kreq o.fallback o.units m = .ok pl →
            exec .move s = .next (moved (writePlaced i x pl v))) ∧
          (∀ c, ¬far → placement v o.room o.kreq o.fallback o.units m = .error c →
            exec .move s = .next (refused .kitchenFull)))))

/-- BOOKING_LEFT, DROP_ORDER and RESEAT (07 R148, R154, R155): an order not yet committed is freed with ORDER_CANCELLED and one COMMITTED or
DUE is ORPHANED; a dropped order is freed; a reseated one takes the new room and is answered; an order that is not the booking's is
NOT_FOUND. While the planner waits for the time-set of a RESYNC each of the three is taken without effect (07 R161, log 38). PATH_STOP and
MOVE_ANSWER_TAKEN (07 R160): a stop discards the untaken moves, and the answers to moves, that the book has completed or has still to
complete at that stop, every *moved* order being restored; once the book has taken a *moved* answer the order's MOVE_UNDO goes. Restoring an
order (07 R160): it takes back what MOVE_UNDO holds, without the contributions already passed, and MOVE_UNDO goes; the LOADs lose the
contributions it had and gain those it takes back; one that holds none is left alone. An order that the current bucket has reached is then
committed with PREP_DUE, and dispatched with DISPATCH_DUE. The model's choices: how the planner hears that an answer was taken (logs 27 and
28), that a move the book sent after its own stop goes on (logs 28 and 59), the order of several restored orders (log 54), and that
ORDER_ORPHANED names no booking (log 58). -/
def Obligations.BookingMessagesAndThePath : Prop :=
  (∀ (s : State) (id : BookingId) (oid : OrderId) (r : Room), s.kpl.frozen = true →
     let u := s.setWires { s.wires with toPlanner := s.wires.toPlanner.tail }
     (s.wires.toPlanner.head? = some (.bookingLeft id oid) → exec .bookingLeft s = .next u) ∧
     (s.wires.toPlanner.head? = some (.dropOrder id oid) → exec .dropOrder s = .next u) ∧
     (s.wires.toPlanner.head? = some (.reseat id oid r) → exec .reseat s = .next u)) ∧
  (∀ (s : State) (id : BookingId) (oid : OrderId), s.kpl.frozen = false →
     let u := s.setWires { s.wires with toPlanner := s.wires.toPlanner.tail }
     let i := oid.index
     (s.wires.toPlanner.head? = some (.bookingLeft id oid) →
       ((∀ o, resolveOrder oid s = some o → o.booking ≠ some id) → exec .bookingLeft s = .next (handBook (.notFound id oid) u)) ∧
       (∀ o, NamedOrder s oid o → o.booking = some id →
         (o.state = .deferred ∨ o.state = .placed ∨ o.state = .unplaced →
           exec .bookingLeft s = .next (orderNotice .orderCancelled i o 1 none (freeOrderRec i u))) ∧
         (o.state = .committed ∨ o.state = .due →
           let x := { o with booking := none, orphaned := true }
           exec .bookingLeft s = .next
             (handOrderInd o.room (orderNotice .orderOrphaned i x (kitchenDetail o) none (setOrder i x u)))))) ∧
     (s.wires.toPlanner.head? = some (.dropOrder id oid) →
       (resolveOrder oid s = none → exec .dropOrder s = .next u) ∧
       (∀ o, NamedOrder s oid o → exec .dropOrder s = .next (orderNotice .orderCancelled i o 2 none (freeOrderRec i u)))) ∧
     (∀ r, s.wires.toPlanner.head? = some (.reseat id oid r) →
       ((∀ o, resolveOrder oid s = some o → o.booking ≠ some id) → exec .reseat s = .next (handBook (.notFound id oid) u)) ∧
       (∀ o, NamedOrder s oid o → o.booking = some id →
         let x := { o with room := r, redirected := true }
         exec .reseat s = .next (handBook (.reseatDone id oid)
           (handOrderInd r (orderNotice .orderRedirected i x o.room.val none (setOrder i x u))))))) ∧
  (∀ s : State,
     (s.wires.supply[pathIx].head? = some .stop →
       let u := popSupply pathIx s
       let ended (n : Nat) : Bool :=
         decide (.stop ∈ s.wires.supply[rbkIx]) || !s.book.exchanges.any (fun x => x.serial = n && x.move.isSome)
       let v := u.setWires
         { u.wires with
           toPlanner := s.wires.toPlanner.filter (fun m => !m.moveSerial.any ended)
           toBook := s.wires.toBook.filter (fun m => !m.moveSerial.any ended) }
       let orders := (s.wires.toBook.filter (fun m => m.moveSerial.any ended)).filterMap PlanMsg.movedOrder
       exec .pathStop s = .next (settleSupply (orders.foldl (fun t o => restoreOrder o t) v))) ∧
     (∀ (id : OrderId) (o : OrderRec) (os : List OrderId), s.wires.taken = id :: os → NamedOrder s id o →
       let u := s.setWires { s.wires with taken := os }
       ((∀ m ∈ s.wires.toBook, m.movedOrder ≠ some id) →
         exec .moveAnswerTaken s = .next (setOrder id.index { o with undo := none } u)) ∧
       ((∃ m ∈ s.wires.toBook, m.movedOrder = some id) → exec .moveAnswerTaken s = .next u))) ∧
  (∀ (s : State) (id : OrderId) (o : OrderRec), NamedOrder s id o →
     (o.undo = none → restoreOrder id s = s) ∧
     (∀ x, o.undo = some x →
       let t := restoreOrder id s
       let at_ (k : Option Kitchen) (cs : List (Nat × Nat)) (k' : Kitchen) (b : Nat) : Nat :=
         if k = some k' then ((cs.filter (fun c => c.1 = b)).map Prod.snd).sum else 0
       (∀ k b, s.kplDay * 96 ≤ b → b < s.kplDay * 96 + 192 →
         t.load k b = s.load k b - at_ o.kitchen o.contribs k b + (if s.kplBucket ≤ b then at_ x.kitchen x.contribs k b else 0)) ∧
       (x.state = .placed → (∃ c ∈ x.contribs, c.1 ≤ s.kplBucket) →
         (t.orderRec id.index).state = (if x.departure.any (fun d => decide (d ≤ s.kplBucket)) then .due else .committed)) ∧
       (x.state = .deferred ∨ x.state = .unplaced ∨ (x.state = .placed ∧ ∀ c ∈ x.contribs, s.kplBucket < c.1) →
       t.orderRec id.index =
         { o with
           state := x.state, kitchen := x.kitchen, delivery := x.delivery, deliveryBucket := x.deliveryBucket, departure := x.departure,
           contribs := x.contribs.filter (fun c => decide (s.kplBucket ≤ c.1)), undo := none } ∧
       (∀ j, j ≠ id.index → t.orderRec j = s.orderRec j) ∧ (id.index ∈ t.kpl.deferred ↔ x.deferred = true) ∧
       t.wires = { s.wires with orders := s.wires.orders ++ [o.room] } ∧ Only [.kpl, .wires] s t))) ∧
  (∀ (i : OrderIx) (cs : List (Nat × Nat)) (s : State), (s.orderRec i).live = true →
     let o := s.orderRec i
     let x := { o with state := .committed }
     let reached := o.state = .placed ∧ ∃ c ∈ cs, c.1 ≤ s.kplBucket
     (reached → bringUp i cs s = dispatchOn s.kplBucket i
       (handOrderInd o.room (orderNotice .prepDue i x (kitchenDetail o) none (setOrder i x s)))) ∧
     (¬reached → bringUp i cs s = dispatchOn s.kplBucket i s))

/-! ## Notices, ports and the supply -/

/-- NOTICE (08 R163, R166 to R170): the producer's first notice is taken, dated if it has no date, and a copy goes to each port of its
destination set: at the tail of a queue of fewer than 32 with the new length reported, else dropped with LOST set. FETCH_NOTICES (08 R171)
removes up to 8 notices from the front of the port's own queue, in order, and clears LOST; NOTICE_WARM_START (08 R175) empties the four
queues and sets the four markers, keeping the routes, and reports the length 0 to each port whose queue held a notice (08 R170), once the
notices that any block handed before the warm start began have been taken, as a count of each producer's keeps (10 R192, R193; log 60,
DEDUCED) and the four ports are STOPPED, with no *complete* on its way to one (08 R171, 10 R193; log 64, DEDUCED); until then the indication
stands. The count before the list of an answer is the model's choice (log 17). -/
def Obligations.NoticesAreRoutedAndFetched : Prop :=
  (∀ (from_ : Producer) (s : State) (h : HandedNotice) (rest : List HandedNotice), s.wires.notices[producerIx from_] = h :: rest →
     ∃ t : State, exec (.notice from_) s = .next t ∧ t.wires.notices = put s.wires.notices (producerIx from_) rest ∧
       t.wires.noticesBefore = modAt s.wires.noticesBefore (producerIx from_) (· - 1) ∧
       t.nrt.routes = s.nrt.routes ∧ Only [.nrt, .wires] s t ∧
       ∀ p : Port,
         let n := if h.dated then h.note else { h.note with date := s.ctu.clock }
         let goes := (h.owner = some p ∧ h.cause ≠ some p) ∨
           (h.note.kind = .recordDamaged ∧ (s.ports[p]).role = .facilities) ∨
           ∃ i : Fin 16, (s.nrt.routes[i]).enabled = true ∧ p ∈ (s.nrt.routes[i]).ports ∧
             ((s.nrt.routes[i]).kind = none ∨ (s.nrt.routes[i]).kind = some h.note.kind) ∧
             ∀ r, h.note.room = some r → s.rzt.zones.zoneOf r ∈ (s.nrt.routes[i]).zones
         (¬goes → t.nrt.queues[p] = s.nrt.queues[p] ∧ t.nrt.lost[p] = s.nrt.lost[p] ∧ t.wires.qlens[p] = s.wires.qlens[p]) ∧
         (goes → (s.nrt.queues[p]).length < 32 →
           t.nrt.queues[p] = s.nrt.queues[p] ++ [n] ∧ t.nrt.lost[p] = s.nrt.lost[p] ∧
             t.wires.qlens[p] = s.wires.qlens[p] ++ [(s.nrt.queues[p]).length + 1]) ∧
         (goes → 32 ≤ (s.nrt.queues[p]).length →
           t.nrt.queues[p] = s.nrt.queues[p] ∧ t.nrt.lost[p] = true ∧ t.wires.qlens[p] = s.wires.qlens[p])) ∧
  ((∀ (p : Port) (h : HandedRequest) (rest : List HandedRequest) (s : State) (n : Nat), s.asks p h rest → h.req = .fetchNotices n →
     (n = 0 ∨ 8 < n → exec (.fetchNotices p) s = .next (s.answered p h rest .badParam [])) ∧
     (1 ≤ n → n ≤ 8 →
       ∃ t : State, exec (.fetchNotices p) s = .next (answer p h.reqno .ok
           (eList eNotice ((s.nrt.queues[p]).take n) ++ e1 ((s.nrt.queues[p]).length - n) ++ eFlag s.nrt.lost[p]) t) ∧
         t.nrt = { s.nrt with queues := put s.nrt.queues p ((s.nrt.queues[p]).drop n), lost := put s.nrt.lost p false } ∧
         (s.nrt.queues[p] ≠ [] →
           t.wires.qlens = modAt s.wires.qlens p (· ++ [(s.nrt.queues[p]).length - n])) ∧ Only [.nrt, .wires] s t)) ∧
   ∀ s : State, s.wires.supply[nrtIx].head? = some .warmStart →
     let due : Prop := (∀ i : Fin 9, s.wires.noticesBefore[i] = 0) ∧
       ∀ p : Port, (s.ports[p]).link = .stopped ∧ SupplyMsg.complete ∉ s.wires.supply[portIx p]
     (¬due → exec .noticeWarmStart s = .next s) ∧
     (due → ∃ t : State, exec .noticeWarmStart s = .next (settleSupply t) ∧ t.nrt.routes = s.nrt.routes ∧
       (∀ p : Port, t.nrt.queues[p] = [] ∧ t.nrt.lost[p] = true ∧
         t.wires.qlens[p] = s.wires.qlens[p] ++ (if s.nrt.queues[p] = [] then [] else [0])) ∧
       t.wires = { s.wires with supply := put s.wires.supply nrtIx s.wires.supply[nrtIx].tail, qlens := t.wires.qlens } ∧
       Only [.nrt, .wires] s t))

/-- STATUS_TRANSACTION and REQUEST_TRANSACTION (09 R177 to R179, R184): an OPEN port clocks out its status word (its state, DROPPED and
the notices waiting, at most 31, then its role); a frame written in IDLE is judged: a bad one, one not permitted and one that names no line are answered by the port itself, any other is handed to its owner with the
next REQNO; a frame written in PENDING or READY is dropped. A STOPPED port takes no transaction. A frame is good when it is the frame of a
request, laid out as 11 R195 has it (`requestFrame`: LEN, TAG, KIND, the parameters, CHK), of at most 255 octets; a length, a check byte, a
kind or parameters that do not suit make it BAD_FRAME. The kinds a role may send are those of the catalogue (09 R184), by their codes. The
port's own answer has the frame's tag, or 0, and no payload. RESPONSE_TRANSACTION (09 R181, 11 R196): a READY port clocks out the status
word and the response, TAG, RESULT, DROP, PLEN and the payload, filled up with zeros; a complete read returns it to IDLE with DROPPED clear,
a shorter one leaves the response to be read again; a port that is not READY clocks out zeros. Inferred from the manual: a frame the port
answers itself leaves REQNO as it was, and the port answers BAD_PARAM itself for lines badly named (log 19); a frame of no octets in PENDING
or READY sets DROPPED (log 51). The model's choices: the octets clocked out stand in a field of the model (log 41), and the octets of the
fields that the manual gives no encoding (log 16). -/
def Obligations.PortsTakeTransactions : Prop :=
  (∀ (octets : List Byte) (q : Request),
     readFrame octets = some q ↔ q.fits = true ∧ octets.length ≤ 255 ∧ ∃ tag, octets = requestFrame tag q) ∧
  (∀ octets : List Byte,
     (octets.length < 4 ∨ 255 < octets.length → readFrame octets = none) ∧
     (∀ len rest, octets = len :: rest → len.toNat ≠ octets.length → readFrame octets = none) ∧
     ((octets.map BitVec.toNat).sum % 256 ≠ 0 → readFrame octets = none) ∧
     (∀ len tag kind rest, octets = len :: tag :: kind :: rest → kind = 0 ∨ 42 ≤ kind.toNat → readFrame octets = none) ∧
     (octets.length < 2 → frameTag octets = 0) ∧ (∀ len tag rest, octets = len :: tag :: rest → frameTag octets = tag)) ∧
  (∀ (q : Request) (role : Role),
     (q.permitted role = true ↔
       q.kind ∈ [1, 8, 9, 17, 21, 22, 23, 25, 29, 31, 32, 34, 35, 36, 37, 41] ∨
       (role = .gateway ∧ q.kind ∈ [10, 11, 12, 13, 14, 15]) ∨
       (role = .console ∧ q.kind ∈ [10, 11, 12, 13, 14, 15, 16, 26]) ∨
       (role = .catering ∧ q.kind ∈ [30, 33]) ∨
       (role = .facilities ∧
         q.kind ∈ [2, 3, 4, 5, 6, 7, 10, 11, 12, 13, 14, 15, 16, 18, 19, 20, 24, 26, 27, 28, 30, 38, 39, 40])) ∧
     (q.badLines = true ↔
       (∃ ls, (ls = 0 ∨ 15 < ls) ∧ ((∃ pattern mask code duration, q = .announce ls pattern mask code duration) ∨
         q = .clearLineStats ls ∨ q = .lineReset ls)) ∨
       ∃ l, 3 < l ∧ q = .queryLine l)) ∧
  (∀ r : PortRec, statusWord r =
     [BitVec.ofNat 8 (r.state.toNat * 64 + r.dropped.toNat * 32 + min r.qlen 31), BitVec.ofNat 8 r.role.toNat]) ∧
  [PortState.idle, .pending, .ready].map PortState.toNat = [0, 1, 2] ∧
  [Role.gateway, .console, .catering, .facilities].map Role.toNat = [0, 1, 2, 3] ∧
  (∀ (x : Response) (dropped : Bool), eResponse x dropped =
     [x.tag, BitVec.ofNat 8 x.code.toNat, if dropped then 1#8 else 0#8, BitVec.ofNat 8 (x.payload.length / 256),
      BitVec.ofNat 8 x.payload.length] ++ x.payload) ∧
  ([Code.ok, .denied, .conflict, .noRoom, .unknown, .badState, .badParam, .horizon, .tooLate, .tooSoon, .clockUnset, .kitchenFull,
     .cateringCommitted, .bookFull, .ordersFull, .damaged, .busyRecord, .stepTooLarge, .stageInvalid, .badFrame].map Code.toNat =
     List.range 20) ∧
  (∀ (p : Port) (s : State) (octets : List Byte),
     let r := s.ports[p]
     let at_ (x : PortRec) := s.setPort p { x with dataOut := statusWord r }
     (r.link = .stopped → ∀ code, exec (.statusTransaction p code) s = .next s ∧ exec (.requestTransaction p octets) s = .next s) ∧
     (r.link = .open →
       (∀ code, exec (.statusTransaction p code) s = .next (at_ r)) ∧
       (r.state ≠ .idle → exec (.requestTransaction p octets) s = .next (at_ { r with dropped := true })) ∧
       (r.state = .idle → octets = [] → exec (.requestTransaction p octets) s = .next (at_ r)) ∧
       (r.state = .idle → octets ≠ [] →
         let own (c : Code) := at_ { r with state := .ready, response := some ⟨frameTag octets, c, []⟩ }
         (readFrame octets = none → exec (.requestTransaction p octets) s = .next (own .badFrame)) ∧
         (∀ q, readFrame octets = some q →
           (q.permitted r.role = false → exec (.requestTransaction p octets) s = .next (own .denied)) ∧
           (q.permitted r.role = true → q.badLines = true → exec (.requestTransaction p octets) s = .next (own .badParam)) ∧
           (q.permitted r.role = true → q.badLines = false →
             let t := at_ { r with state := .pending, reqno := r.reqno + 1, tag := frameTag octets }
             exec (.requestTransaction p octets) s = .next (t.setWires
               { t.wires with
                 requests := modAt s.wires.requests p (· ++ [⟨q, r.reqno + 1, r.role, false⟩]) })))))) ∧
  (∀ (p : Port) (s : State) (clocked : Nat), (s.ports[p]).link = .stopped → exec (.responseTransaction p clocked) s = .next s) ∧
  (∀ (p : Port) (s : State) (clocked : Nat), (s.ports[p]).link = .open →
     let r := s.ports[p]
     (r.state ≠ .ready → exec (.responseTransaction p clocked) s =
       .next (s.setPort p { r with dataOut := statusWord r ++ List.replicate clocked 0#8 })) ∧
     (∀ x, r.state = .ready → r.response = some x →
       let octets := eResponse x r.dropped
       (octets.length ≤ clocked → exec (.responseTransaction p clocked) s = .next (s.setPort p
         { r with
           dataOut := statusWord r ++ octets ++ List.replicate (clocked - octets.length) 0#8
           state := .idle, response := none, dropped := false })) ∧
       (clocked < octets.length → exec (.responseTransaction p clocked) s =
         .next (s.setPort p { r with dataOut := statusWord r ++ octets.take clocked }))))

/-- OWNER_ANSWER, QUEUE_LENGTH_REPORT, PORT_STOP and PORT_WARM_START_COMPLETE (09 R180, R182, R185, R186): an answer of the REQNO a PENDING
port waits on makes it READY and any other is discarded; a reported length becomes QLEN; a stop loses the response and abandons the request;
the requests that no owner has taken are withdrawn with it, but for book requests that the book's own stop is to withdraw; the warm start
reopens the port IDLE, once it has taken the lengths reported to it before: QLEN is the last of them (09 R186; log 64, DEDUCED). The
attention line follows PORT_STATE, QLEN and LINK. The model's choices: PORT_STATE stands through a stop (log 49), and when untaken requests
are withdrawn (logs 30 and 31). -/
def Obligations.PortsTakeAnswersAndStops : Prop :=
  ∀ (p : Port) (s : State),
    let r := s.ports[p]
    (∀ a rest, s.wires.answers[p] = a :: rest →
      let u := s.setWires { s.wires with answers := put s.wires.answers p rest }
      (r.link = .open → r.state = .pending → a.reqno = r.reqno → exec (.ownerAnswer p) s =
        .next (u.setPort p { r with state := .ready, response := some ⟨r.tag, a.code, a.payload⟩ })) ∧
      (r.link = .stopped ∨ r.state ≠ .pending ∨ a.reqno ≠ r.reqno → exec (.ownerAnswer p) s = .next u)) ∧
    (∀ n rest, s.wires.qlens[p] = n :: rest → exec (.queueLengthReport p) s =
      .next ((s.setWires { s.wires with qlens := put s.wires.qlens p rest }).setPort p { r with qlen := n })) ∧
    (s.wires.supply[portIx p].head? = some .stop →
      let u := popSupply (portIx p) s
      (r.link = .stopped → exec (.portStop p) s = .next (settleSupply u)) ∧
      (r.link = .open →
        let v := u.setPort p { r with link := .stopped, response := none }
        let left : List HandedRequest :=
          if SupplyMsg.stop ∈ s.wires.supply[rbkIx] then
            ((s.wires.requests[p]).filter (fun h => h.req.isBook)).map (fun h => { h with stopped := true })
          else []
        exec (.portStop p) s = .next (settleSupply (v.setWires { v.wires with requests := put v.wires.requests p left })))) ∧
    (s.wires.supply[portIx p].head? = some .complete →
      let u := (popSupply (portIx p) s).setPort p
        { r with
          state := .idle, response := none, dropped := false, link := .open, qlen := (s.wires.qlens[p]).getLast?.getD r.qlen }
      exec (.portWarmStartComplete p) s =
        .next (settleSupply (u.setWires { u.wires with qlens := put s.wires.qlens p [] }))) ∧
    (r.attention = true ↔ r.link = .open ∧ (r.state = .ready ∨ 0 < r.qlen))

/-- A change of SSTATE (10 R188): it is recorded with its cause and PWC's time, handed to the four line units and OCU, and notified.
SET_POWER (10 R189): RUN or QUIET is entered with cause REQUEST, the answer waiting for the line units and OCU: each message that one of
them takes is counted off, and with nothing left to count the port is answered OK; the state already held is answered OK at once; any other
code is BAD_PARAM. It is taken while PHASE is OPEN (log 31). QUIET_START and QUIET_END (10 R191): while PHASE is OPEN with AUTO on, the tick
of Q_START moves RUN to QUIET and that of Q_END moves QUIET to RUN; any other tick only moves PWC's copy of the time. SET_POWER is taken
while PHASE is OPEN, and either row may take a tick of neither minute: the model's choices (logs 31 and 8). -/
def Obligations.SupplyMovesAreHandedOn : Prop :=
  (∀ (x : SState) (c : Cause) (port : Option Port) (s : State),
     let t := changeState x c port s
     t.pwc = { s.pwc with sstate := x, lastCause := some c, lastChange := some (s.now .pwc) } ∧
       (∀ i : Fin 12, t.wires.supply[i] = if i.val ≤ 4 then s.wires.supply[i] ++ [.state x] else s.wires.supply[i]) ∧
       (∃ n : HandedNotice, t.wires.notices = modAt s.wires.notices (producerIx .pwc) (· ++ [n]) ∧ n.note.kind = .supply ∧
         n.note.date = s.now .pwc ∧ n.owner = none ∧ n.cause = port ∧ n.note.detail = detail2 x.toNat c.toNat) ∧
       Only [.pwc, .wires] s t) ∧
  (∀ (p : Port) (h : HandedRequest) (rest : List HandedRequest) (s : State) (code : Nat),
     s.asks p h rest → h.req = .setPower code → s.pwc.phase = .open →
     (2 ≤ code → exec (.setPower p) s = .next (s.answered p h rest .badParam [])) ∧
     (∀ x, (code = 0 ∧ x = .run) ∨ (code = 1 ∧ x = .quiet) →
       (s.pwc.sstate = x → exec (.setPower p) s = .next (s.answered p h rest .ok [])) ∧
       (s.pwc.sstate ≠ x →
         let v := changeState x .request (some p) (s.took p rest)
         exec (.setPower p) s = .next (v.setPwc
           { v.pwc with
             waits := v.pwc.waits ++
               [{ port := p, reqno := h.reqno,
                  left := tabulate (fun i => (v.wires.supply[i.castLE (by omega : 5 ≤ 12)]).length) }] })))) ∧
  (∀ (i : Fin 12) (s : State),
     let t := popSupply i s
     t.pwc = { s.pwc with
       waits := s.pwc.waits.map (fun w => { w with left := if h : i.val < 5 then modAt w.left ⟨i.val, h⟩ (· - 1) else w.left }) } ∧
       t.wires = { s.wires with supply := modAt s.wires.supply i List.tail } ∧ Only [.pwc, .wires] s t) ∧
  (∀ s : State,
     let due (w : SupplyWait) : Bool := decide (∀ i : Fin 5, w.left[i] = 0)
     let t := settleSupply s
     t.pwc = { s.pwc with waits := s.pwc.waits.filter (fun w => !due w) } ∧
       (∀ p : Port, t.wires.answers[p] = s.wires.answers[p] ++
         (s.pwc.waits.filter (fun w => due w && decide (w.port = p))).map (fun w => ⟨w.reqno, .ok, []⟩)) ∧
       t.wires = { s.wires with answers := t.wires.answers } ∧ Only [.pwc, .wires] s t) ∧
  (∀ (s : State) (c : Clock), s.timeHead .pwc = some (.tick c) →
     let u := s.ticked .pwc c
     let active := s.pwc.phase = .open ∧ s.pwc.auto = true
     (active → s.pwc.qStart ≠ s.pwc.qEnd → c.minute = s.pwc.qStart →
       (s.pwc.sstate = .run → exec .quietStart s = .next (settleTime (changeState .quiet .scheduleStart none u))) ∧
       (s.pwc.sstate ≠ .run → exec .quietStart s = .next (settleTime u))) ∧
     (active → s.pwc.qStart ≠ s.pwc.qEnd → c.minute = s.pwc.qEnd →
       (s.pwc.sstate = .quiet → exec .quietEnd s = .next (settleTime (changeState .run .scheduleEnd none u))) ∧
       (s.pwc.sstate ≠ .quiet → exec .quietEnd s = .next (settleTime u))) ∧
     (¬active ∨ (c.minute ≠ s.pwc.qStart ∧ c.minute ≠ s.pwc.qEnd) →
       exec .quietStart s = .next (settleTime u) ∧ exec .quietEnd s = .next (settleTime u)))

/-- POWER_FAIL_ASSERT (10 R192): while PHASE is OPEN or STARTING the part enters RETAIN, if it is not there, stops, and the stop is handed
to the ports, the book, OCU and the path, RETAIN to the lines and OCU before it; while STOPPED nothing happens. POWER_FAIL_RELEASE,
WARM_RESET and WARM_START_COMPLETE (10 R193): the supply's return while STOPPED, or a warm reset while OPEN, begins a warm start, a warm
reset after handing the stop, and counts the notices that NRT has yet to take (08 R175; log 60, DEDUCED); when its six receivers have taken
it the part is in RUN and OPEN, with the cause recorded, the lines and OCU told of a change, the ports told and one SUPPLY notice. That the
level of the power-fail input is a flag is the model's choice (log 48). -/
def Obligations.PowerFailAndWarmStarts : Prop :=
  (∀ s : State,
     (s.pwc.phase = .stopped → exec .powerFailAssert s = .next s) ∧
     (s.pwc.phase ≠ .stopped →
       ∃ t : State, exec .powerFailAssert s = .next t ∧ t.pwc.sstate = .retain ∧ t.pwc.phase = .stopped ∧ t.pwc.startCause = none ∧
         t.pwc.powerFail = true ∧
         (s.pwc.sstate ≠ .retain → t.pwc.lastCause = some .powerFail ∧ t.pwc.lastChange = some (s.now .pwc) ∧
           ∃ n : HandedNotice, t.wires.notices = modAt s.wires.notices (producerIx .pwc) (· ++ [n]) ∧ n.note.kind = .supply ∧
             n.note.detail = detail2 SState.retain.toNat Cause.powerFail.toNat ∧ n.owner = none ∧ n.cause = none) ∧
         (s.pwc.sstate = .retain → t.pwc.lastCause = s.pwc.lastCause ∧ t.pwc.lastChange = s.pwc.lastChange ∧
           t.wires.notices = s.wires.notices) ∧
         (∀ p : Port, SupplyHanded s t (portIx p) [.stop]) ∧
         SupplyHanded s t rbkIx [.stop] ∧ SupplyHanded s t pathIx [.stop] ∧ SupplyHanded s t nrtIx [] ∧
         SupplyHanded s t ocuIx (if s.pwc.sstate = .retain then [.stop] else [.state .retain, .stop]) ∧
         (∀ l : Line, SupplyHanded s t (lineIx l) (if s.pwc.sstate = .retain then [] else [.state .retain])) ∧
         Only [.pwc, .wires] s t)) ∧
  (∀ s : State,
     let told (t : State) : Prop :=
       (∀ l : Line, SupplyHanded s t (lineIx l) [.warmStart]) ∧
         SupplyHanded s t nrtIx [.warmStart] ∧ t.wires.notices = s.wires.notices ∧
         t.wires.noticesBefore = mapV List.length s.wires.notices ∧ Only [.pwc, .wires] s t
     (s.pwc.phase = .stopped → ∃ t : State, exec .powerFailRelease s = .next t ∧ told t ∧
       t.pwc = { s.pwc with phase := .starting, startCause := some .powerReturn, powerFail := false } ∧
       SupplyHanded s t ocuIx [.warmStart] ∧ SupplyHanded s t rbkIx [] ∧ SupplyHanded s t pathIx [] ∧
       ∀ p : Port, SupplyHanded s t (portIx p) []) ∧
     (s.pwc.phase = .open → ∃ t : State, exec .warmReset s = .next t ∧ told t ∧
       t.pwc = { s.pwc with phase := .starting, startCause := some .warmReset } ∧
       SupplyHanded s t ocuIx [.stop, .warmStart] ∧ SupplyHanded s t rbkIx [.stop] ∧ SupplyHanded s t pathIx [.stop] ∧
       ∀ p : Port, SupplyHanded s t (portIx p) [.stop]) ∧
     (s.pwc.phase ≠ .stopped → exec .powerFailRelease s = .next s) ∧ (s.pwc.phase ≠ .open → exec .warmReset s = .next s) ∧
     (∀ c, s.pwc.phase = .starting → s.pwc.startCause = some c →
       ((∃ i : Fin 12, i ∈ warmTakers ∧ SupplyMsg.warmStart ∈ s.wires.supply[i]) → exec .warmStartComplete s = .next s) ∧
       ((∀ i : Fin 12, i ∈ warmTakers → SupplyMsg.warmStart ∉ s.wires.supply[i]) → ∃ t : State, exec .warmStartComplete s = .next t ∧
         t.pwc = { s.pwc with
           sstate := .run, phase := .open, startCause := none, lastCause := some c.cause, lastChange := some (s.now .pwc) } ∧
         (∀ p : Port, SupplyHanded s t (portIx p) [.complete]) ∧
         (∀ l : Line, SupplyHanded s t (lineIx l) (if s.pwc.sstate = .run then [] else [.state .run])) ∧
         SupplyHanded s t ocuIx (if s.pwc.sstate = .run then [] else [.state .run]) ∧
         SupplyHanded s t nrtIx [] ∧ SupplyHanded s t rbkIx [] ∧ SupplyHanded s t pathIx [] ∧
         (∃ n : HandedNotice, t.wires.notices = modAt s.wires.notices (producerIx .pwc) (· ++ [n]) ∧ n.note.kind = .supply ∧
           n.note.date = s.now .pwc ∧ n.owner = none ∧ n.cause = none ∧
           n.note.detail = detail2 SState.run.toNat c.cause.toNat) ∧ Only [.pwc, .wires] s t)))
end

