-- ==== Sys2Proof/Laws/State.lean ====
section
/-! SUPPORT. One lemma per part per update: what each replacement of one part, and each handing-on, leaves of every part. -/

namespace Sys2Proof.Machine

@[simp] theorem State.setTimes_pending (s : State) (x : Vector TimeCopy 6) : (s.setTimes x).pending = s.pending := rfl
@[simp] theorem State.setTimes_times (s : State) (x : Vector TimeCopy 6) : (s.setTimes x).times = x := rfl
@[simp] theorem State.setTimes_ctu (s : State) (x : Vector TimeCopy 6) : (s.setTimes x).ctu = s.ctu := rfl
@[simp] theorem State.setTimes_rzt (s : State) (x : Vector TimeCopy 6) : (s.setTimes x).rzt = s.rzt := rfl
@[simp] theorem State.setTimes_book (s : State) (x : Vector TimeCopy 6) : (s.setTimes x).book = s.book := rfl
@[simp] theorem State.setTimes_psl (s : State) (x : Vector TimeCopy 6) : (s.setTimes x).psl = s.psl := rfl
@[simp] theorem State.setTimes_lines (s : State) (x : Vector TimeCopy 6) : (s.setTimes x).lines = s.lines := rfl
@[simp] theorem State.setTimes_jobs (s : State) (x : Vector TimeCopy 6) : (s.setTimes x).jobs = s.jobs := rfl
@[simp] theorem State.setTimes_ocu (s : State) (x : Vector TimeCopy 6) : (s.setTimes x).ocu = s.ocu := rfl
@[simp] theorem State.setTimes_kpl (s : State) (x : Vector TimeCopy 6) : (s.setTimes x).kpl = s.kpl := rfl
@[simp] theorem State.setTimes_nrt (s : State) (x : Vector TimeCopy 6) : (s.setTimes x).nrt = s.nrt := rfl
@[simp] theorem State.setTimes_ports (s : State) (x : Vector TimeCopy 6) : (s.setTimes x).ports = s.ports := rfl
@[simp] theorem State.setTimes_pwc (s : State) (x : Vector TimeCopy 6) : (s.setTimes x).pwc = s.pwc := rfl
@[simp] theorem State.setTimes_wires (s : State) (x : Vector TimeCopy 6) : (s.setTimes x).wires = s.wires := rfl

@[simp] theorem State.setCtu_pending (s : State) (x : Ctu) : (s.setCtu x).pending = s.pending := rfl
@[simp] theorem State.setCtu_times (s : State) (x : Ctu) : (s.setCtu x).times = s.times := rfl
@[simp] theorem State.setCtu_ctu (s : State) (x : Ctu) : (s.setCtu x).ctu = x := rfl
@[simp] theorem State.setCtu_rzt (s : State) (x : Ctu) : (s.setCtu x).rzt = s.rzt := rfl
@[simp] theorem State.setCtu_book (s : State) (x : Ctu) : (s.setCtu x).book = s.book := rfl
@[simp] theorem State.setCtu_psl (s : State) (x : Ctu) : (s.setCtu x).psl = s.psl := rfl
@[simp] theorem State.setCtu_lines (s : State) (x : Ctu) : (s.setCtu x).lines = s.lines := rfl
@[simp] theorem State.setCtu_jobs (s : State) (x : Ctu) : (s.setCtu x).jobs = s.jobs := rfl
@[simp] theorem State.setCtu_ocu (s : State) (x : Ctu) : (s.setCtu x).ocu = s.ocu := rfl
@[simp] theorem State.setCtu_kpl (s : State) (x : Ctu) : (s.setCtu x).kpl = s.kpl := rfl
@[simp] theorem State.setCtu_nrt (s : State) (x : Ctu) : (s.setCtu x).nrt = s.nrt := rfl
@[simp] theorem State.setCtu_ports (s : State) (x : Ctu) : (s.setCtu x).ports = s.ports := rfl
@[simp] theorem State.setCtu_pwc (s : State) (x : Ctu) : (s.setCtu x).pwc = s.pwc := rfl
@[simp] theorem State.setCtu_wires (s : State) (x : Ctu) : (s.setCtu x).wires = s.wires := rfl

@[simp] theorem State.setRzt_pending (s : State) (x : Rzt) : (s.setRzt x).pending = s.pending := rfl
@[simp] theorem State.setRzt_times (s : State) (x : Rzt) : (s.setRzt x).times = s.times := rfl
@[simp] theorem State.setRzt_ctu (s : State) (x : Rzt) : (s.setRzt x).ctu = s.ctu := rfl
@[simp] theorem State.setRzt_rzt (s : State) (x : Rzt) : (s.setRzt x).rzt = x := rfl
@[simp] theorem State.setRzt_book (s : State) (x : Rzt) : (s.setRzt x).book = s.book := rfl
@[simp] theorem State.setRzt_psl (s : State) (x : Rzt) : (s.setRzt x).psl = s.psl := rfl
@[simp] theorem State.setRzt_lines (s : State) (x : Rzt) : (s.setRzt x).lines = s.lines := rfl
@[simp] theorem State.setRzt_jobs (s : State) (x : Rzt) : (s.setRzt x).jobs = s.jobs := rfl
@[simp] theorem State.setRzt_ocu (s : State) (x : Rzt) : (s.setRzt x).ocu = s.ocu := rfl
@[simp] theorem State.setRzt_kpl (s : State) (x : Rzt) : (s.setRzt x).kpl = s.kpl := rfl
@[simp] theorem State.setRzt_nrt (s : State) (x : Rzt) : (s.setRzt x).nrt = s.nrt := rfl
@[simp] theorem State.setRzt_ports (s : State) (x : Rzt) : (s.setRzt x).ports = s.ports := rfl
@[simp] theorem State.setRzt_pwc (s : State) (x : Rzt) : (s.setRzt x).pwc = s.pwc := rfl
@[simp] theorem State.setRzt_wires (s : State) (x : Rzt) : (s.setRzt x).wires = s.wires := rfl

@[simp] theorem State.setBook_pending (s : State) (x : Book) : (s.setBook x).pending = s.pending := rfl
@[simp] theorem State.setBook_times (s : State) (x : Book) : (s.setBook x).times = s.times := rfl
@[simp] theorem State.setBook_ctu (s : State) (x : Book) : (s.setBook x).ctu = s.ctu := rfl
@[simp] theorem State.setBook_rzt (s : State) (x : Book) : (s.setBook x).rzt = s.rzt := rfl
@[simp] theorem State.setBook_book (s : State) (x : Book) : (s.setBook x).book = x := rfl
@[simp] theorem State.setBook_psl (s : State) (x : Book) : (s.setBook x).psl = s.psl := rfl
@[simp] theorem State.setBook_lines (s : State) (x : Book) : (s.setBook x).lines = s.lines := rfl
@[simp] theorem State.setBook_jobs (s : State) (x : Book) : (s.setBook x).jobs = s.jobs := rfl
@[simp] theorem State.setBook_ocu (s : State) (x : Book) : (s.setBook x).ocu = s.ocu := rfl
@[simp] theorem State.setBook_kpl (s : State) (x : Book) : (s.setBook x).kpl = s.kpl := rfl
@[simp] theorem State.setBook_nrt (s : State) (x : Book) : (s.setBook x).nrt = s.nrt := rfl
@[simp] theorem State.setBook_ports (s : State) (x : Book) : (s.setBook x).ports = s.ports := rfl
@[simp] theorem State.setBook_pwc (s : State) (x : Book) : (s.setBook x).pwc = s.pwc := rfl
@[simp] theorem State.setBook_wires (s : State) (x : Book) : (s.setBook x).wires = s.wires := rfl

@[simp] theorem State.setPsl_pending (s : State) (x : Psl) : (s.setPsl x).pending = s.pending := rfl
@[simp] theorem State.setPsl_times (s : State) (x : Psl) : (s.setPsl x).times = s.times := rfl
@[simp] theorem State.setPsl_ctu (s : State) (x : Psl) : (s.setPsl x).ctu = s.ctu := rfl
@[simp] theorem State.setPsl_rzt (s : State) (x : Psl) : (s.setPsl x).rzt = s.rzt := rfl
@[simp] theorem State.setPsl_book (s : State) (x : Psl) : (s.setPsl x).book = s.book := rfl
@[simp] theorem State.setPsl_psl (s : State) (x : Psl) : (s.setPsl x).psl = x := rfl
@[simp] theorem State.setPsl_lines (s : State) (x : Psl) : (s.setPsl x).lines = s.lines := rfl
@[simp] theorem State.setPsl_jobs (s : State) (x : Psl) : (s.setPsl x).jobs = s.jobs := rfl
@[simp] theorem State.setPsl_ocu (s : State) (x : Psl) : (s.setPsl x).ocu = s.ocu := rfl
@[simp] theorem State.setPsl_kpl (s : State) (x : Psl) : (s.setPsl x).kpl = s.kpl := rfl
@[simp] theorem State.setPsl_nrt (s : State) (x : Psl) : (s.setPsl x).nrt = s.nrt := rfl
@[simp] theorem State.setPsl_ports (s : State) (x : Psl) : (s.setPsl x).ports = s.ports := rfl
@[simp] theorem State.setPsl_pwc (s : State) (x : Psl) : (s.setPsl x).pwc = s.pwc := rfl
@[simp] theorem State.setPsl_wires (s : State) (x : Psl) : (s.setPsl x).wires = s.wires := rfl

@[simp] theorem State.setLines_pending (s : State) (x : Vector LineUnit 4) : (s.setLines x).pending = s.pending := rfl
@[simp] theorem State.setLines_times (s : State) (x : Vector LineUnit 4) : (s.setLines x).times = s.times := rfl
@[simp] theorem State.setLines_ctu (s : State) (x : Vector LineUnit 4) : (s.setLines x).ctu = s.ctu := rfl
@[simp] theorem State.setLines_rzt (s : State) (x : Vector LineUnit 4) : (s.setLines x).rzt = s.rzt := rfl
@[simp] theorem State.setLines_book (s : State) (x : Vector LineUnit 4) : (s.setLines x).book = s.book := rfl
@[simp] theorem State.setLines_psl (s : State) (x : Vector LineUnit 4) : (s.setLines x).psl = s.psl := rfl
@[simp] theorem State.setLines_lines (s : State) (x : Vector LineUnit 4) : (s.setLines x).lines = x := rfl
@[simp] theorem State.setLines_jobs (s : State) (x : Vector LineUnit 4) : (s.setLines x).jobs = s.jobs := rfl
@[simp] theorem State.setLines_ocu (s : State) (x : Vector LineUnit 4) : (s.setLines x).ocu = s.ocu := rfl
@[simp] theorem State.setLines_kpl (s : State) (x : Vector LineUnit 4) : (s.setLines x).kpl = s.kpl := rfl
@[simp] theorem State.setLines_nrt (s : State) (x : Vector LineUnit 4) : (s.setLines x).nrt = s.nrt := rfl
@[simp] theorem State.setLines_ports (s : State) (x : Vector LineUnit 4) : (s.setLines x).ports = s.ports := rfl
@[simp] theorem State.setLines_pwc (s : State) (x : Vector LineUnit 4) : (s.setLines x).pwc = s.pwc := rfl
@[simp] theorem State.setLines_wires (s : State) (x : Vector LineUnit 4) : (s.setLines x).wires = s.wires := rfl

@[simp] theorem State.setJobs_pending (s : State) (x : List LineJob) : (s.setJobs x).pending = s.pending := rfl
@[simp] theorem State.setJobs_times (s : State) (x : List LineJob) : (s.setJobs x).times = s.times := rfl
@[simp] theorem State.setJobs_ctu (s : State) (x : List LineJob) : (s.setJobs x).ctu = s.ctu := rfl
@[simp] theorem State.setJobs_rzt (s : State) (x : List LineJob) : (s.setJobs x).rzt = s.rzt := rfl
@[simp] theorem State.setJobs_book (s : State) (x : List LineJob) : (s.setJobs x).book = s.book := rfl
@[simp] theorem State.setJobs_psl (s : State) (x : List LineJob) : (s.setJobs x).psl = s.psl := rfl
@[simp] theorem State.setJobs_lines (s : State) (x : List LineJob) : (s.setJobs x).lines = s.lines := rfl
@[simp] theorem State.setJobs_jobs (s : State) (x : List LineJob) : (s.setJobs x).jobs = x := rfl
@[simp] theorem State.setJobs_ocu (s : State) (x : List LineJob) : (s.setJobs x).ocu = s.ocu := rfl
@[simp] theorem State.setJobs_kpl (s : State) (x : List LineJob) : (s.setJobs x).kpl = s.kpl := rfl
@[simp] theorem State.setJobs_nrt (s : State) (x : List LineJob) : (s.setJobs x).nrt = s.nrt := rfl
@[simp] theorem State.setJobs_ports (s : State) (x : List LineJob) : (s.setJobs x).ports = s.ports := rfl
@[simp] theorem State.setJobs_pwc (s : State) (x : List LineJob) : (s.setJobs x).pwc = s.pwc := rfl
@[simp] theorem State.setJobs_wires (s : State) (x : List LineJob) : (s.setJobs x).wires = s.wires := rfl

@[simp] theorem State.setOcu_pending (s : State) (x : Ocu) : (s.setOcu x).pending = s.pending := rfl
@[simp] theorem State.setOcu_times (s : State) (x : Ocu) : (s.setOcu x).times = s.times := rfl
@[simp] theorem State.setOcu_ctu (s : State) (x : Ocu) : (s.setOcu x).ctu = s.ctu := rfl
@[simp] theorem State.setOcu_rzt (s : State) (x : Ocu) : (s.setOcu x).rzt = s.rzt := rfl
@[simp] theorem State.setOcu_book (s : State) (x : Ocu) : (s.setOcu x).book = s.book := rfl
@[simp] theorem State.setOcu_psl (s : State) (x : Ocu) : (s.setOcu x).psl = s.psl := rfl
@[simp] theorem State.setOcu_lines (s : State) (x : Ocu) : (s.setOcu x).lines = s.lines := rfl
@[simp] theorem State.setOcu_jobs (s : State) (x : Ocu) : (s.setOcu x).jobs = s.jobs := rfl
@[simp] theorem State.setOcu_ocu (s : State) (x : Ocu) : (s.setOcu x).ocu = x := rfl
@[simp] theorem State.setOcu_kpl (s : State) (x : Ocu) : (s.setOcu x).kpl = s.kpl := rfl
@[simp] theorem State.setOcu_nrt (s : State) (x : Ocu) : (s.setOcu x).nrt = s.nrt := rfl
@[simp] theorem State.setOcu_ports (s : State) (x : Ocu) : (s.setOcu x).ports = s.ports := rfl
@[simp] theorem State.setOcu_pwc (s : State) (x : Ocu) : (s.setOcu x).pwc = s.pwc := rfl
@[simp] theorem State.setOcu_wires (s : State) (x : Ocu) : (s.setOcu x).wires = s.wires := rfl

@[simp] theorem State.setKpl_pending (s : State) (x : Kpl) : (s.setKpl x).pending = s.pending := rfl
@[simp] theorem State.setKpl_times (s : State) (x : Kpl) : (s.setKpl x).times = s.times := rfl
@[simp] theorem State.setKpl_ctu (s : State) (x : Kpl) : (s.setKpl x).ctu = s.ctu := rfl
@[simp] theorem State.setKpl_rzt (s : State) (x : Kpl) : (s.setKpl x).rzt = s.rzt := rfl
@[simp] theorem State.setKpl_book (s : State) (x : Kpl) : (s.setKpl x).book = s.book := rfl
@[simp] theorem State.setKpl_psl (s : State) (x : Kpl) : (s.setKpl x).psl = s.psl := rfl
@[simp] theorem State.setKpl_lines (s : State) (x : Kpl) : (s.setKpl x).lines = s.lines := rfl
@[simp] theorem State.setKpl_jobs (s : State) (x : Kpl) : (s.setKpl x).jobs = s.jobs := rfl
@[simp] theorem State.setKpl_ocu (s : State) (x : Kpl) : (s.setKpl x).ocu = s.ocu := rfl
@[simp] theorem State.setKpl_kpl (s : State) (x : Kpl) : (s.setKpl x).kpl = x := rfl
@[simp] theorem State.setKpl_nrt (s : State) (x : Kpl) : (s.setKpl x).nrt = s.nrt := rfl
@[simp] theorem State.setKpl_ports (s : State) (x : Kpl) : (s.setKpl x).ports = s.ports := rfl
@[simp] theorem State.setKpl_pwc (s : State) (x : Kpl) : (s.setKpl x).pwc = s.pwc := rfl
@[simp] theorem State.setKpl_wires (s : State) (x : Kpl) : (s.setKpl x).wires = s.wires := rfl

@[simp] theorem State.setNrt_pending (s : State) (x : Nrt) : (s.setNrt x).pending = s.pending := rfl
@[simp] theorem State.setNrt_times (s : State) (x : Nrt) : (s.setNrt x).times = s.times := rfl
@[simp] theorem State.setNrt_ctu (s : State) (x : Nrt) : (s.setNrt x).ctu = s.ctu := rfl
@[simp] theorem State.setNrt_rzt (s : State) (x : Nrt) : (s.setNrt x).rzt = s.rzt := rfl
@[simp] theorem State.setNrt_book (s : State) (x : Nrt) : (s.setNrt x).book = s.book := rfl
@[simp] theorem State.setNrt_psl (s : State) (x : Nrt) : (s.setNrt x).psl = s.psl := rfl
@[simp] theorem State.setNrt_lines (s : State) (x : Nrt) : (s.setNrt x).lines = s.lines := rfl
@[simp] theorem State.setNrt_jobs (s : State) (x : Nrt) : (s.setNrt x).jobs = s.jobs := rfl
@[simp] theorem State.setNrt_ocu (s : State) (x : Nrt) : (s.setNrt x).ocu = s.ocu := rfl
@[simp] theorem State.setNrt_kpl (s : State) (x : Nrt) : (s.setNrt x).kpl = s.kpl := rfl
@[simp] theorem State.setNrt_nrt (s : State) (x : Nrt) : (s.setNrt x).nrt = x := rfl
@[simp] theorem State.setNrt_ports (s : State) (x : Nrt) : (s.setNrt x).ports = s.ports := rfl
@[simp] theorem State.setNrt_pwc (s : State) (x : Nrt) : (s.setNrt x).pwc = s.pwc := rfl
@[simp] theorem State.setNrt_wires (s : State) (x : Nrt) : (s.setNrt x).wires = s.wires := rfl

@[simp] theorem State.setPorts_pending (s : State) (x : Vector PortRec 4) : (s.setPorts x).pending = s.pending := rfl
@[simp] theorem State.setPorts_times (s : State) (x : Vector PortRec 4) : (s.setPorts x).times = s.times := rfl
@[simp] theorem State.setPorts_ctu (s : State) (x : Vector PortRec 4) : (s.setPorts x).ctu = s.ctu := rfl
@[simp] theorem State.setPorts_rzt (s : State) (x : Vector PortRec 4) : (s.setPorts x).rzt = s.rzt := rfl
@[simp] theorem State.setPorts_book (s : State) (x : Vector PortRec 4) : (s.setPorts x).book = s.book := rfl
@[simp] theorem State.setPorts_psl (s : State) (x : Vector PortRec 4) : (s.setPorts x).psl = s.psl := rfl
@[simp] theorem State.setPorts_lines (s : State) (x : Vector PortRec 4) : (s.setPorts x).lines = s.lines := rfl
@[simp] theorem State.setPorts_jobs (s : State) (x : Vector PortRec 4) : (s.setPorts x).jobs = s.jobs := rfl
@[simp] theorem State.setPorts_ocu (s : State) (x : Vector PortRec 4) : (s.setPorts x).ocu = s.ocu := rfl
@[simp] theorem State.setPorts_kpl (s : State) (x : Vector PortRec 4) : (s.setPorts x).kpl = s.kpl := rfl
@[simp] theorem State.setPorts_nrt (s : State) (x : Vector PortRec 4) : (s.setPorts x).nrt = s.nrt := rfl
@[simp] theorem State.setPorts_ports (s : State) (x : Vector PortRec 4) : (s.setPorts x).ports = x := rfl
@[simp] theorem State.setPorts_pwc (s : State) (x : Vector PortRec 4) : (s.setPorts x).pwc = s.pwc := rfl
@[simp] theorem State.setPorts_wires (s : State) (x : Vector PortRec 4) : (s.setPorts x).wires = s.wires := rfl

@[simp] theorem State.setPwc_pending (s : State) (x : Pwc) : (s.setPwc x).pending = s.pending := rfl
@[simp] theorem State.setPwc_times (s : State) (x : Pwc) : (s.setPwc x).times = s.times := rfl
@[simp] theorem State.setPwc_ctu (s : State) (x : Pwc) : (s.setPwc x).ctu = s.ctu := rfl
@[simp] theorem State.setPwc_rzt (s : State) (x : Pwc) : (s.setPwc x).rzt = s.rzt := rfl
@[simp] theorem State.setPwc_book (s : State) (x : Pwc) : (s.setPwc x).book = s.book := rfl
@[simp] theorem State.setPwc_psl (s : State) (x : Pwc) : (s.setPwc x).psl = s.psl := rfl
@[simp] theorem State.setPwc_lines (s : State) (x : Pwc) : (s.setPwc x).lines = s.lines := rfl
@[simp] theorem State.setPwc_jobs (s : State) (x : Pwc) : (s.setPwc x).jobs = s.jobs := rfl
@[simp] theorem State.setPwc_ocu (s : State) (x : Pwc) : (s.setPwc x).ocu = s.ocu := rfl
@[simp] theorem State.setPwc_kpl (s : State) (x : Pwc) : (s.setPwc x).kpl = s.kpl := rfl
@[simp] theorem State.setPwc_nrt (s : State) (x : Pwc) : (s.setPwc x).nrt = s.nrt := rfl
@[simp] theorem State.setPwc_ports (s : State) (x : Pwc) : (s.setPwc x).ports = s.ports := rfl
@[simp] theorem State.setPwc_pwc (s : State) (x : Pwc) : (s.setPwc x).pwc = x := rfl
@[simp] theorem State.setPwc_wires (s : State) (x : Pwc) : (s.setPwc x).wires = s.wires := rfl

@[simp] theorem State.setWires_pending (s : State) (x : Wires) : (s.setWires x).pending = s.pending := rfl
@[simp] theorem State.setWires_times (s : State) (x : Wires) : (s.setWires x).times = s.times := rfl
@[simp] theorem State.setWires_ctu (s : State) (x : Wires) : (s.setWires x).ctu = s.ctu := rfl
@[simp] theorem State.setWires_rzt (s : State) (x : Wires) : (s.setWires x).rzt = s.rzt := rfl
@[simp] theorem State.setWires_book (s : State) (x : Wires) : (s.setWires x).book = s.book := rfl
@[simp] theorem State.setWires_psl (s : State) (x : Wires) : (s.setWires x).psl = s.psl := rfl
@[simp] theorem State.setWires_lines (s : State) (x : Wires) : (s.setWires x).lines = s.lines := rfl
@[simp] theorem State.setWires_jobs (s : State) (x : Wires) : (s.setWires x).jobs = s.jobs := rfl
@[simp] theorem State.setWires_ocu (s : State) (x : Wires) : (s.setWires x).ocu = s.ocu := rfl
@[simp] theorem State.setWires_kpl (s : State) (x : Wires) : (s.setWires x).kpl = s.kpl := rfl
@[simp] theorem State.setWires_nrt (s : State) (x : Wires) : (s.setWires x).nrt = s.nrt := rfl
@[simp] theorem State.setWires_ports (s : State) (x : Wires) : (s.setWires x).ports = s.ports := rfl
@[simp] theorem State.setWires_pwc (s : State) (x : Wires) : (s.setWires x).pwc = s.pwc := rfl
@[simp] theorem State.setWires_wires (s : State) (x : Wires) : (s.setWires x).wires = x := rfl

@[simp] theorem State.setLine_pending (s : State) (l : Line) (x : LineUnit) : (s.setLine l x).pending = s.pending := rfl
@[simp] theorem State.setLine_times (s : State) (l : Line) (x : LineUnit) : (s.setLine l x).times = s.times := rfl
@[simp] theorem State.setLine_ctu (s : State) (l : Line) (x : LineUnit) : (s.setLine l x).ctu = s.ctu := rfl
@[simp] theorem State.setLine_rzt (s : State) (l : Line) (x : LineUnit) : (s.setLine l x).rzt = s.rzt := rfl
@[simp] theorem State.setLine_book (s : State) (l : Line) (x : LineUnit) : (s.setLine l x).book = s.book := rfl
@[simp] theorem State.setLine_psl (s : State) (l : Line) (x : LineUnit) : (s.setLine l x).psl = s.psl := rfl
@[simp] theorem State.setLine_lines (s : State) (l : Line) (x : LineUnit) : (s.setLine l x).lines = put s.lines l x := rfl
@[simp] theorem State.setLine_jobs (s : State) (l : Line) (x : LineUnit) : (s.setLine l x).jobs = s.jobs := rfl
@[simp] theorem State.setLine_ocu (s : State) (l : Line) (x : LineUnit) : (s.setLine l x).ocu = s.ocu := rfl
@[simp] theorem State.setLine_kpl (s : State) (l : Line) (x : LineUnit) : (s.setLine l x).kpl = s.kpl := rfl
@[simp] theorem State.setLine_nrt (s : State) (l : Line) (x : LineUnit) : (s.setLine l x).nrt = s.nrt := rfl
@[simp] theorem State.setLine_ports (s : State) (l : Line) (x : LineUnit) : (s.setLine l x).ports = s.ports := rfl
@[simp] theorem State.setLine_pwc (s : State) (l : Line) (x : LineUnit) : (s.setLine l x).pwc = s.pwc := rfl
@[simp] theorem State.setLine_wires (s : State) (l : Line) (x : LineUnit) : (s.setLine l x).wires = s.wires := rfl

@[simp] theorem State.setPort_pending (s : State) (p : Port) (x : PortRec) : (s.setPort p x).pending = s.pending := rfl
@[simp] theorem State.setPort_times (s : State) (p : Port) (x : PortRec) : (s.setPort p x).times = s.times := rfl
@[simp] theorem State.setPort_ctu (s : State) (p : Port) (x : PortRec) : (s.setPort p x).ctu = s.ctu := rfl
@[simp] theorem State.setPort_rzt (s : State) (p : Port) (x : PortRec) : (s.setPort p x).rzt = s.rzt := rfl
@[simp] theorem State.setPort_book (s : State) (p : Port) (x : PortRec) : (s.setPort p x).book = s.book := rfl
@[simp] theorem State.setPort_psl (s : State) (p : Port) (x : PortRec) : (s.setPort p x).psl = s.psl := rfl
@[simp] theorem State.setPort_lines (s : State) (p : Port) (x : PortRec) : (s.setPort p x).lines = s.lines := rfl
@[simp] theorem State.setPort_jobs (s : State) (p : Port) (x : PortRec) : (s.setPort p x).jobs = s.jobs := rfl
@[simp] theorem State.setPort_ocu (s : State) (p : Port) (x : PortRec) : (s.setPort p x).ocu = s.ocu := rfl
@[simp] theorem State.setPort_kpl (s : State) (p : Port) (x : PortRec) : (s.setPort p x).kpl = s.kpl := rfl
@[simp] theorem State.setPort_nrt (s : State) (p : Port) (x : PortRec) : (s.setPort p x).nrt = s.nrt := rfl
@[simp] theorem State.setPort_ports (s : State) (p : Port) (x : PortRec) : (s.setPort p x).ports = put s.ports p x := rfl
@[simp] theorem State.setPort_pwc (s : State) (p : Port) (x : PortRec) : (s.setPort p x).pwc = s.pwc := rfl
@[simp] theorem State.setPort_wires (s : State) (p : Port) (x : PortRec) : (s.setPort p x).wires = s.wires := rfl

@[simp] theorem State.setTime_pending (s : State) (b : TimedBlock) (x : TimeCopy) : (s.setTime b x).pending = s.pending := rfl
@[simp] theorem State.setTime_times (s : State) (b : TimedBlock) (x : TimeCopy) : (s.setTime b x).times = put s.times (blockIx b) x := rfl
@[simp] theorem State.setTime_ctu (s : State) (b : TimedBlock) (x : TimeCopy) : (s.setTime b x).ctu = s.ctu := rfl
@[simp] theorem State.setTime_rzt (s : State) (b : TimedBlock) (x : TimeCopy) : (s.setTime b x).rzt = s.rzt := rfl
@[simp] theorem State.setTime_book (s : State) (b : TimedBlock) (x : TimeCopy) : (s.setTime b x).book = s.book := rfl
@[simp] theorem State.setTime_psl (s : State) (b : TimedBlock) (x : TimeCopy) : (s.setTime b x).psl = s.psl := rfl
@[simp] theorem State.setTime_lines (s : State) (b : TimedBlock) (x : TimeCopy) : (s.setTime b x).lines = s.lines := rfl
@[simp] theorem State.setTime_jobs (s : State) (b : TimedBlock) (x : TimeCopy) : (s.setTime b x).jobs = s.jobs := rfl
@[simp] theorem State.setTime_ocu (s : State) (b : TimedBlock) (x : TimeCopy) : (s.setTime b x).ocu = s.ocu := rfl
@[simp] theorem State.setTime_kpl (s : State) (b : TimedBlock) (x : TimeCopy) : (s.setTime b x).kpl = s.kpl := rfl
@[simp] theorem State.setTime_nrt (s : State) (b : TimedBlock) (x : TimeCopy) : (s.setTime b x).nrt = s.nrt := rfl
@[simp] theorem State.setTime_ports (s : State) (b : TimedBlock) (x : TimeCopy) : (s.setTime b x).ports = s.ports := rfl
@[simp] theorem State.setTime_pwc (s : State) (b : TimedBlock) (x : TimeCopy) : (s.setTime b x).pwc = s.pwc := rfl
@[simp] theorem State.setTime_wires (s : State) (b : TimedBlock) (x : TimeCopy) : (s.setTime b x).wires = s.wires := rfl

@[simp] theorem handNotice_pending (f : Producer) (n : HandedNotice) (s : State) : (handNotice f n s).pending = s.pending := rfl
@[simp] theorem handNotice_times (f : Producer) (n : HandedNotice) (s : State) : (handNotice f n s).times = s.times := rfl
@[simp] theorem handNotice_ctu (f : Producer) (n : HandedNotice) (s : State) : (handNotice f n s).ctu = s.ctu := rfl
@[simp] theorem handNotice_rzt (f : Producer) (n : HandedNotice) (s : State) : (handNotice f n s).rzt = s.rzt := rfl
@[simp] theorem handNotice_book (f : Producer) (n : HandedNotice) (s : State) : (handNotice f n s).book = s.book := rfl
@[simp] theorem handNotice_psl (f : Producer) (n : HandedNotice) (s : State) : (handNotice f n s).psl = s.psl := rfl
@[simp] theorem handNotice_lines (f : Producer) (n : HandedNotice) (s : State) : (handNotice f n s).lines = s.lines := rfl
@[simp] theorem handNotice_jobs (f : Producer) (n : HandedNotice) (s : State) : (handNotice f n s).jobs = s.jobs := rfl
@[simp] theorem handNotice_ocu (f : Producer) (n : HandedNotice) (s : State) : (handNotice f n s).ocu = s.ocu := rfl
@[simp] theorem handNotice_kpl (f : Producer) (n : HandedNotice) (s : State) : (handNotice f n s).kpl = s.kpl := rfl
@[simp] theorem handNotice_nrt (f : Producer) (n : HandedNotice) (s : State) : (handNotice f n s).nrt = s.nrt := rfl
@[simp] theorem handNotice_ports (f : Producer) (n : HandedNotice) (s : State) : (handNotice f n s).ports = s.ports := rfl
@[simp] theorem handNotice_pwc (f : Producer) (n : HandedNotice) (s : State) : (handNotice f n s).pwc = s.pwc := rfl

@[simp] theorem answer_pending (p : Port) (n : Fin 256) (c : Code) (xs : List Byte) (s : State) : (answer p n c xs s).pending = s.pending := rfl
@[simp] theorem answer_times (p : Port) (n : Fin 256) (c : Code) (xs : List Byte) (s : State) : (answer p n c xs s).times = s.times := rfl
@[simp] theorem answer_ctu (p : Port) (n : Fin 256) (c : Code) (xs : List Byte) (s : State) : (answer p n c xs s).ctu = s.ctu := rfl
@[simp] theorem answer_rzt (p : Port) (n : Fin 256) (c : Code) (xs : List Byte) (s : State) : (answer p n c xs s).rzt = s.rzt := rfl
@[simp] theorem answer_book (p : Port) (n : Fin 256) (c : Code) (xs : List Byte) (s : State) : (answer p n c xs s).book = s.book := rfl
@[simp] theorem answer_psl (p : Port) (n : Fin 256) (c : Code) (xs : List Byte) (s : State) : (answer p n c xs s).psl = s.psl := rfl
@[simp] theorem answer_lines (p : Port) (n : Fin 256) (c : Code) (xs : List Byte) (s : State) : (answer p n c xs s).lines = s.lines := rfl
@[simp] theorem answer_jobs (p : Port) (n : Fin 256) (c : Code) (xs : List Byte) (s : State) : (answer p n c xs s).jobs = s.jobs := rfl
@[simp] theorem answer_ocu (p : Port) (n : Fin 256) (c : Code) (xs : List Byte) (s : State) : (answer p n c xs s).ocu = s.ocu := rfl
@[simp] theorem answer_kpl (p : Port) (n : Fin 256) (c : Code) (xs : List Byte) (s : State) : (answer p n c xs s).kpl = s.kpl := rfl
@[simp] theorem answer_nrt (p : Port) (n : Fin 256) (c : Code) (xs : List Byte) (s : State) : (answer p n c xs s).nrt = s.nrt := rfl
@[simp] theorem answer_ports (p : Port) (n : Fin 256) (c : Code) (xs : List Byte) (s : State) : (answer p n c xs s).ports = s.ports := rfl
@[simp] theorem answer_pwc (p : Port) (n : Fin 256) (c : Code) (xs : List Byte) (s : State) : (answer p n c xs s).pwc = s.pwc := rfl

@[simp] theorem reply_pending (q : Asker) (c : Code) (xs : List Byte) (s : State) : (reply q c xs s).pending = s.pending := rfl
@[simp] theorem reply_times (q : Asker) (c : Code) (xs : List Byte) (s : State) : (reply q c xs s).times = s.times := rfl
@[simp] theorem reply_ctu (q : Asker) (c : Code) (xs : List Byte) (s : State) : (reply q c xs s).ctu = s.ctu := rfl
@[simp] theorem reply_rzt (q : Asker) (c : Code) (xs : List Byte) (s : State) : (reply q c xs s).rzt = s.rzt := rfl
@[simp] theorem reply_book (q : Asker) (c : Code) (xs : List Byte) (s : State) : (reply q c xs s).book = s.book := rfl
@[simp] theorem reply_psl (q : Asker) (c : Code) (xs : List Byte) (s : State) : (reply q c xs s).psl = s.psl := rfl
@[simp] theorem reply_lines (q : Asker) (c : Code) (xs : List Byte) (s : State) : (reply q c xs s).lines = s.lines := rfl
@[simp] theorem reply_jobs (q : Asker) (c : Code) (xs : List Byte) (s : State) : (reply q c xs s).jobs = s.jobs := rfl
@[simp] theorem reply_ocu (q : Asker) (c : Code) (xs : List Byte) (s : State) : (reply q c xs s).ocu = s.ocu := rfl
@[simp] theorem reply_kpl (q : Asker) (c : Code) (xs : List Byte) (s : State) : (reply q c xs s).kpl = s.kpl := rfl
@[simp] theorem reply_nrt (q : Asker) (c : Code) (xs : List Byte) (s : State) : (reply q c xs s).nrt = s.nrt := rfl
@[simp] theorem reply_ports (q : Asker) (c : Code) (xs : List Byte) (s : State) : (reply q c xs s).ports = s.ports := rfl
@[simp] theorem reply_pwc (q : Asker) (c : Code) (xs : List Byte) (s : State) : (reply q c xs s).pwc = s.pwc := rfl

@[simp] theorem handTimeAll_pending (m : TimeMsg) (s : State) : (handTimeAll m s).pending = s.pending := rfl
@[simp] theorem handTimeAll_times (m : TimeMsg) (s : State) : (handTimeAll m s).times = s.times := rfl
@[simp] theorem handTimeAll_ctu (m : TimeMsg) (s : State) : (handTimeAll m s).ctu = s.ctu := rfl
@[simp] theorem handTimeAll_rzt (m : TimeMsg) (s : State) : (handTimeAll m s).rzt = s.rzt := rfl
@[simp] theorem handTimeAll_book (m : TimeMsg) (s : State) : (handTimeAll m s).book = s.book := rfl
@[simp] theorem handTimeAll_psl (m : TimeMsg) (s : State) : (handTimeAll m s).psl = s.psl := rfl
@[simp] theorem handTimeAll_lines (m : TimeMsg) (s : State) : (handTimeAll m s).lines = s.lines := rfl
@[simp] theorem handTimeAll_jobs (m : TimeMsg) (s : State) : (handTimeAll m s).jobs = s.jobs := rfl
@[simp] theorem handTimeAll_ocu (m : TimeMsg) (s : State) : (handTimeAll m s).ocu = s.ocu := rfl
@[simp] theorem handTimeAll_kpl (m : TimeMsg) (s : State) : (handTimeAll m s).kpl = s.kpl := rfl
@[simp] theorem handTimeAll_nrt (m : TimeMsg) (s : State) : (handTimeAll m s).nrt = s.nrt := rfl
@[simp] theorem handTimeAll_ports (m : TimeMsg) (s : State) : (handTimeAll m s).ports = s.ports := rfl
@[simp] theorem handTimeAll_pwc (m : TimeMsg) (s : State) : (handTimeAll m s).pwc = s.pwc := rfl

@[simp] theorem handTime_pending (b : TimedBlock) (m : TimeMsg) (s : State) : (handTime b m s).pending = s.pending := rfl
@[simp] theorem handTime_times (b : TimedBlock) (m : TimeMsg) (s : State) : (handTime b m s).times = s.times := rfl
@[simp] theorem handTime_ctu (b : TimedBlock) (m : TimeMsg) (s : State) : (handTime b m s).ctu = s.ctu := rfl
@[simp] theorem handTime_rzt (b : TimedBlock) (m : TimeMsg) (s : State) : (handTime b m s).rzt = s.rzt := rfl
@[simp] theorem handTime_book (b : TimedBlock) (m : TimeMsg) (s : State) : (handTime b m s).book = s.book := rfl
@[simp] theorem handTime_psl (b : TimedBlock) (m : TimeMsg) (s : State) : (handTime b m s).psl = s.psl := rfl
@[simp] theorem handTime_lines (b : TimedBlock) (m : TimeMsg) (s : State) : (handTime b m s).lines = s.lines := rfl
@[simp] theorem handTime_jobs (b : TimedBlock) (m : TimeMsg) (s : State) : (handTime b m s).jobs = s.jobs := rfl
@[simp] theorem handTime_ocu (b : TimedBlock) (m : TimeMsg) (s : State) : (handTime b m s).ocu = s.ocu := rfl
@[simp] theorem handTime_kpl (b : TimedBlock) (m : TimeMsg) (s : State) : (handTime b m s).kpl = s.kpl := rfl
@[simp] theorem handTime_nrt (b : TimedBlock) (m : TimeMsg) (s : State) : (handTime b m s).nrt = s.nrt := rfl
@[simp] theorem handTime_ports (b : TimedBlock) (m : TimeMsg) (s : State) : (handTime b m s).ports = s.ports := rfl
@[simp] theorem handTime_pwc (b : TimedBlock) (m : TimeMsg) (s : State) : (handTime b m s).pwc = s.pwc := rfl

@[simp] theorem handConfig_pending (g : ConfigSignal) (s : State) : (handConfig g s).pending = s.pending := rfl
@[simp] theorem handConfig_times (g : ConfigSignal) (s : State) : (handConfig g s).times = s.times := rfl
@[simp] theorem handConfig_ctu (g : ConfigSignal) (s : State) : (handConfig g s).ctu = s.ctu := rfl
@[simp] theorem handConfig_rzt (g : ConfigSignal) (s : State) : (handConfig g s).rzt = s.rzt := rfl
@[simp] theorem handConfig_book (g : ConfigSignal) (s : State) : (handConfig g s).book = s.book := rfl
@[simp] theorem handConfig_psl (g : ConfigSignal) (s : State) : (handConfig g s).psl = s.psl := rfl
@[simp] theorem handConfig_lines (g : ConfigSignal) (s : State) : (handConfig g s).lines = s.lines := rfl
@[simp] theorem handConfig_jobs (g : ConfigSignal) (s : State) : (handConfig g s).jobs = s.jobs := rfl
@[simp] theorem handConfig_ocu (g : ConfigSignal) (s : State) : (handConfig g s).ocu = s.ocu := rfl
@[simp] theorem handConfig_kpl (g : ConfigSignal) (s : State) : (handConfig g s).kpl = s.kpl := rfl
@[simp] theorem handConfig_nrt (g : ConfigSignal) (s : State) : (handConfig g s).nrt = s.nrt := rfl
@[simp] theorem handConfig_ports (g : ConfigSignal) (s : State) : (handConfig g s).ports = s.ports := rfl
@[simp] theorem handConfig_pwc (g : ConfigSignal) (s : State) : (handConfig g s).pwc = s.pwc := rfl

@[simp] theorem handSupply_pending (i : Fin 12) (m : SupplyMsg) (s : State) : (handSupply i m s).pending = s.pending := rfl
@[simp] theorem handSupply_times (i : Fin 12) (m : SupplyMsg) (s : State) : (handSupply i m s).times = s.times := rfl
@[simp] theorem handSupply_ctu (i : Fin 12) (m : SupplyMsg) (s : State) : (handSupply i m s).ctu = s.ctu := rfl
@[simp] theorem handSupply_rzt (i : Fin 12) (m : SupplyMsg) (s : State) : (handSupply i m s).rzt = s.rzt := rfl
@[simp] theorem handSupply_book (i : Fin 12) (m : SupplyMsg) (s : State) : (handSupply i m s).book = s.book := rfl
@[simp] theorem handSupply_psl (i : Fin 12) (m : SupplyMsg) (s : State) : (handSupply i m s).psl = s.psl := rfl
@[simp] theorem handSupply_lines (i : Fin 12) (m : SupplyMsg) (s : State) : (handSupply i m s).lines = s.lines := rfl
@[simp] theorem handSupply_jobs (i : Fin 12) (m : SupplyMsg) (s : State) : (handSupply i m s).jobs = s.jobs := rfl
@[simp] theorem handSupply_ocu (i : Fin 12) (m : SupplyMsg) (s : State) : (handSupply i m s).ocu = s.ocu := rfl
@[simp] theorem handSupply_kpl (i : Fin 12) (m : SupplyMsg) (s : State) : (handSupply i m s).kpl = s.kpl := rfl
@[simp] theorem handSupply_nrt (i : Fin 12) (m : SupplyMsg) (s : State) : (handSupply i m s).nrt = s.nrt := rfl
@[simp] theorem handSupply_ports (i : Fin 12) (m : SupplyMsg) (s : State) : (handSupply i m s).ports = s.ports := rfl
@[simp] theorem handSupply_pwc (i : Fin 12) (m : SupplyMsg) (s : State) : (handSupply i m s).pwc = s.pwc := rfl

@[simp] theorem handOcu_pending (l : Line) (a : Addr) (m : LineMsg) (s : State) : (handOcu l a m s).pending = s.pending := rfl
@[simp] theorem handOcu_times (l : Line) (a : Addr) (m : LineMsg) (s : State) : (handOcu l a m s).times = s.times := rfl
@[simp] theorem handOcu_ctu (l : Line) (a : Addr) (m : LineMsg) (s : State) : (handOcu l a m s).ctu = s.ctu := rfl
@[simp] theorem handOcu_rzt (l : Line) (a : Addr) (m : LineMsg) (s : State) : (handOcu l a m s).rzt = s.rzt := rfl
@[simp] theorem handOcu_book (l : Line) (a : Addr) (m : LineMsg) (s : State) : (handOcu l a m s).book = s.book := rfl
@[simp] theorem handOcu_psl (l : Line) (a : Addr) (m : LineMsg) (s : State) : (handOcu l a m s).psl = s.psl := rfl
@[simp] theorem handOcu_lines (l : Line) (a : Addr) (m : LineMsg) (s : State) : (handOcu l a m s).lines = s.lines := rfl
@[simp] theorem handOcu_jobs (l : Line) (a : Addr) (m : LineMsg) (s : State) : (handOcu l a m s).jobs = s.jobs := rfl
@[simp] theorem handOcu_ocu (l : Line) (a : Addr) (m : LineMsg) (s : State) : (handOcu l a m s).ocu = s.ocu := rfl
@[simp] theorem handOcu_kpl (l : Line) (a : Addr) (m : LineMsg) (s : State) : (handOcu l a m s).kpl = s.kpl := rfl
@[simp] theorem handOcu_nrt (l : Line) (a : Addr) (m : LineMsg) (s : State) : (handOcu l a m s).nrt = s.nrt := rfl
@[simp] theorem handOcu_ports (l : Line) (a : Addr) (m : LineMsg) (s : State) : (handOcu l a m s).ports = s.ports := rfl
@[simp] theorem handOcu_pwc (l : Line) (a : Addr) (m : LineMsg) (s : State) : (handOcu l a m s).pwc = s.pwc := rfl

@[simp] theorem handLine_pending (l : Line) (a : Addr) (m : OcuMsg) (s : State) : (handLine l a m s).pending = s.pending := rfl
@[simp] theorem handLine_times (l : Line) (a : Addr) (m : OcuMsg) (s : State) : (handLine l a m s).times = s.times := rfl
@[simp] theorem handLine_ctu (l : Line) (a : Addr) (m : OcuMsg) (s : State) : (handLine l a m s).ctu = s.ctu := rfl
@[simp] theorem handLine_rzt (l : Line) (a : Addr) (m : OcuMsg) (s : State) : (handLine l a m s).rzt = s.rzt := rfl
@[simp] theorem handLine_book (l : Line) (a : Addr) (m : OcuMsg) (s : State) : (handLine l a m s).book = s.book := rfl
@[simp] theorem handLine_psl (l : Line) (a : Addr) (m : OcuMsg) (s : State) : (handLine l a m s).psl = s.psl := rfl
@[simp] theorem handLine_lines (l : Line) (a : Addr) (m : OcuMsg) (s : State) : (handLine l a m s).lines = s.lines := rfl
@[simp] theorem handLine_jobs (l : Line) (a : Addr) (m : OcuMsg) (s : State) : (handLine l a m s).jobs = s.jobs := rfl
@[simp] theorem handLine_ocu (l : Line) (a : Addr) (m : OcuMsg) (s : State) : (handLine l a m s).ocu = s.ocu := rfl
@[simp] theorem handLine_kpl (l : Line) (a : Addr) (m : OcuMsg) (s : State) : (handLine l a m s).kpl = s.kpl := rfl
@[simp] theorem handLine_nrt (l : Line) (a : Addr) (m : OcuMsg) (s : State) : (handLine l a m s).nrt = s.nrt := rfl
@[simp] theorem handLine_ports (l : Line) (a : Addr) (m : OcuMsg) (s : State) : (handLine l a m s).ports = s.ports := rfl
@[simp] theorem handLine_pwc (l : Line) (a : Addr) (m : OcuMsg) (s : State) : (handLine l a m s).pwc = s.pwc := rfl

@[simp] theorem handSched_pending (r : Room) (s : State) : (handSched r s).pending = s.pending := rfl
@[simp] theorem handSched_times (r : Room) (s : State) : (handSched r s).times = s.times := rfl
@[simp] theorem handSched_ctu (r : Room) (s : State) : (handSched r s).ctu = s.ctu := rfl
@[simp] theorem handSched_rzt (r : Room) (s : State) : (handSched r s).rzt = s.rzt := rfl
@[simp] theorem handSched_book (r : Room) (s : State) : (handSched r s).book = s.book := rfl
@[simp] theorem handSched_psl (r : Room) (s : State) : (handSched r s).psl = s.psl := rfl
@[simp] theorem handSched_lines (r : Room) (s : State) : (handSched r s).lines = s.lines := rfl
@[simp] theorem handSched_jobs (r : Room) (s : State) : (handSched r s).jobs = s.jobs := rfl
@[simp] theorem handSched_ocu (r : Room) (s : State) : (handSched r s).ocu = s.ocu := rfl
@[simp] theorem handSched_kpl (r : Room) (s : State) : (handSched r s).kpl = s.kpl := rfl
@[simp] theorem handSched_nrt (r : Room) (s : State) : (handSched r s).nrt = s.nrt := rfl
@[simp] theorem handSched_ports (r : Room) (s : State) : (handSched r s).ports = s.ports := rfl
@[simp] theorem handSched_pwc (r : Room) (s : State) : (handSched r s).pwc = s.pwc := rfl

@[simp] theorem handOrderInd_pending (r : Room) (s : State) : (handOrderInd r s).pending = s.pending := rfl
@[simp] theorem handOrderInd_times (r : Room) (s : State) : (handOrderInd r s).times = s.times := rfl
@[simp] theorem handOrderInd_ctu (r : Room) (s : State) : (handOrderInd r s).ctu = s.ctu := rfl
@[simp] theorem handOrderInd_rzt (r : Room) (s : State) : (handOrderInd r s).rzt = s.rzt := rfl
@[simp] theorem handOrderInd_book (r : Room) (s : State) : (handOrderInd r s).book = s.book := rfl
@[simp] theorem handOrderInd_psl (r : Room) (s : State) : (handOrderInd r s).psl = s.psl := rfl
@[simp] theorem handOrderInd_lines (r : Room) (s : State) : (handOrderInd r s).lines = s.lines := rfl
@[simp] theorem handOrderInd_jobs (r : Room) (s : State) : (handOrderInd r s).jobs = s.jobs := rfl
@[simp] theorem handOrderInd_ocu (r : Room) (s : State) : (handOrderInd r s).ocu = s.ocu := rfl
@[simp] theorem handOrderInd_kpl (r : Room) (s : State) : (handOrderInd r s).kpl = s.kpl := rfl
@[simp] theorem handOrderInd_nrt (r : Room) (s : State) : (handOrderInd r s).nrt = s.nrt := rfl
@[simp] theorem handOrderInd_ports (r : Room) (s : State) : (handOrderInd r s).ports = s.ports := rfl
@[simp] theorem handOrderInd_pwc (r : Room) (s : State) : (handOrderInd r s).pwc = s.pwc := rfl

@[simp] theorem handOutcome_pending (o : BookOutcome) (s : State) : (handOutcome o s).pending = s.pending := rfl
@[simp] theorem handOutcome_times (o : BookOutcome) (s : State) : (handOutcome o s).times = s.times := rfl
@[simp] theorem handOutcome_ctu (o : BookOutcome) (s : State) : (handOutcome o s).ctu = s.ctu := rfl
@[simp] theorem handOutcome_rzt (o : BookOutcome) (s : State) : (handOutcome o s).rzt = s.rzt := rfl
@[simp] theorem handOutcome_book (o : BookOutcome) (s : State) : (handOutcome o s).book = s.book := rfl
@[simp] theorem handOutcome_psl (o : BookOutcome) (s : State) : (handOutcome o s).psl = s.psl := rfl
@[simp] theorem handOutcome_lines (o : BookOutcome) (s : State) : (handOutcome o s).lines = s.lines := rfl
@[simp] theorem handOutcome_jobs (o : BookOutcome) (s : State) : (handOutcome o s).jobs = s.jobs := rfl
@[simp] theorem handOutcome_ocu (o : BookOutcome) (s : State) : (handOutcome o s).ocu = s.ocu := rfl
@[simp] theorem handOutcome_kpl (o : BookOutcome) (s : State) : (handOutcome o s).kpl = s.kpl := rfl
@[simp] theorem handOutcome_nrt (o : BookOutcome) (s : State) : (handOutcome o s).nrt = s.nrt := rfl
@[simp] theorem handOutcome_ports (o : BookOutcome) (s : State) : (handOutcome o s).ports = s.ports := rfl
@[simp] theorem handOutcome_pwc (o : BookOutcome) (s : State) : (handOutcome o s).pwc = s.pwc := rfl

@[simp] theorem handPlanner_pending (m : BookMsg) (s : State) : (handPlanner m s).pending = s.pending := rfl
@[simp] theorem handPlanner_times (m : BookMsg) (s : State) : (handPlanner m s).times = s.times := rfl
@[simp] theorem handPlanner_ctu (m : BookMsg) (s : State) : (handPlanner m s).ctu = s.ctu := rfl
@[simp] theorem handPlanner_rzt (m : BookMsg) (s : State) : (handPlanner m s).rzt = s.rzt := rfl
@[simp] theorem handPlanner_book (m : BookMsg) (s : State) : (handPlanner m s).book = s.book := rfl
@[simp] theorem handPlanner_psl (m : BookMsg) (s : State) : (handPlanner m s).psl = s.psl := rfl
@[simp] theorem handPlanner_lines (m : BookMsg) (s : State) : (handPlanner m s).lines = s.lines := rfl
@[simp] theorem handPlanner_jobs (m : BookMsg) (s : State) : (handPlanner m s).jobs = s.jobs := rfl
@[simp] theorem handPlanner_ocu (m : BookMsg) (s : State) : (handPlanner m s).ocu = s.ocu := rfl
@[simp] theorem handPlanner_kpl (m : BookMsg) (s : State) : (handPlanner m s).kpl = s.kpl := rfl
@[simp] theorem handPlanner_nrt (m : BookMsg) (s : State) : (handPlanner m s).nrt = s.nrt := rfl
@[simp] theorem handPlanner_ports (m : BookMsg) (s : State) : (handPlanner m s).ports = s.ports := rfl
@[simp] theorem handPlanner_pwc (m : BookMsg) (s : State) : (handPlanner m s).pwc = s.pwc := rfl

@[simp] theorem handBook_pending (m : PlanMsg) (s : State) : (handBook m s).pending = s.pending := rfl
@[simp] theorem handBook_times (m : PlanMsg) (s : State) : (handBook m s).times = s.times := rfl
@[simp] theorem handBook_ctu (m : PlanMsg) (s : State) : (handBook m s).ctu = s.ctu := rfl
@[simp] theorem handBook_rzt (m : PlanMsg) (s : State) : (handBook m s).rzt = s.rzt := rfl
@[simp] theorem handBook_book (m : PlanMsg) (s : State) : (handBook m s).book = s.book := rfl
@[simp] theorem handBook_psl (m : PlanMsg) (s : State) : (handBook m s).psl = s.psl := rfl
@[simp] theorem handBook_lines (m : PlanMsg) (s : State) : (handBook m s).lines = s.lines := rfl
@[simp] theorem handBook_jobs (m : PlanMsg) (s : State) : (handBook m s).jobs = s.jobs := rfl
@[simp] theorem handBook_ocu (m : PlanMsg) (s : State) : (handBook m s).ocu = s.ocu := rfl
@[simp] theorem handBook_kpl (m : PlanMsg) (s : State) : (handBook m s).kpl = s.kpl := rfl
@[simp] theorem handBook_nrt (m : PlanMsg) (s : State) : (handBook m s).nrt = s.nrt := rfl
@[simp] theorem handBook_ports (m : PlanMsg) (s : State) : (handBook m s).ports = s.ports := rfl
@[simp] theorem handBook_pwc (m : PlanMsg) (s : State) : (handBook m s).pwc = s.pwc := rfl

@[simp] theorem handQlen_pending (p : Port) (n : Nat) (s : State) : (handQlen p n s).pending = s.pending := rfl
@[simp] theorem handQlen_times (p : Port) (n : Nat) (s : State) : (handQlen p n s).times = s.times := rfl
@[simp] theorem handQlen_ctu (p : Port) (n : Nat) (s : State) : (handQlen p n s).ctu = s.ctu := rfl
@[simp] theorem handQlen_rzt (p : Port) (n : Nat) (s : State) : (handQlen p n s).rzt = s.rzt := rfl
@[simp] theorem handQlen_book (p : Port) (n : Nat) (s : State) : (handQlen p n s).book = s.book := rfl
@[simp] theorem handQlen_psl (p : Port) (n : Nat) (s : State) : (handQlen p n s).psl = s.psl := rfl
@[simp] theorem handQlen_lines (p : Port) (n : Nat) (s : State) : (handQlen p n s).lines = s.lines := rfl
@[simp] theorem handQlen_jobs (p : Port) (n : Nat) (s : State) : (handQlen p n s).jobs = s.jobs := rfl
@[simp] theorem handQlen_ocu (p : Port) (n : Nat) (s : State) : (handQlen p n s).ocu = s.ocu := rfl
@[simp] theorem handQlen_kpl (p : Port) (n : Nat) (s : State) : (handQlen p n s).kpl = s.kpl := rfl
@[simp] theorem handQlen_nrt (p : Port) (n : Nat) (s : State) : (handQlen p n s).nrt = s.nrt := rfl
@[simp] theorem handQlen_ports (p : Port) (n : Nat) (s : State) : (handQlen p n s).ports = s.ports := rfl
@[simp] theorem handQlen_pwc (p : Port) (n : Nat) (s : State) : (handQlen p n s).pwc = s.pwc := rfl

@[simp] theorem setGrant_pending (r : Requester) (s : State) : (setGrant r s).pending = s.pending := rfl
@[simp] theorem setGrant_times (r : Requester) (s : State) : (setGrant r s).times = s.times := rfl
@[simp] theorem setGrant_ctu (r : Requester) (s : State) : (setGrant r s).ctu = s.ctu := rfl
@[simp] theorem setGrant_rzt (r : Requester) (s : State) : (setGrant r s).rzt = s.rzt := rfl
@[simp] theorem setGrant_psl (r : Requester) (s : State) : (setGrant r s).psl = s.psl := rfl
@[simp] theorem setGrant_lines (r : Requester) (s : State) : (setGrant r s).lines = s.lines := rfl
@[simp] theorem setGrant_jobs (r : Requester) (s : State) : (setGrant r s).jobs = s.jobs := rfl
@[simp] theorem setGrant_ocu (r : Requester) (s : State) : (setGrant r s).ocu = s.ocu := rfl
@[simp] theorem setGrant_kpl (r : Requester) (s : State) : (setGrant r s).kpl = s.kpl := rfl
@[simp] theorem setGrant_nrt (r : Requester) (s : State) : (setGrant r s).nrt = s.nrt := rfl
@[simp] theorem setGrant_ports (r : Requester) (s : State) : (setGrant r s).ports = s.ports := rfl
@[simp] theorem setGrant_pwc (r : Requester) (s : State) : (setGrant r s).pwc = s.pwc := rfl
@[simp] theorem setGrant_wires (r : Requester) (s : State) : (setGrant r s).wires = s.wires := rfl

end Sys2Proof.Machine
end

