-- ==== Sys2Proof/Laws/Storage.lean ====
section
/-! SUPPORT. Indexed storage: what a read gives after a write, and what the searches find. -/

namespace Sys2Proof.Machine

variable {α β : Type} {n : Nat}

@[simp] theorem put_get_same (v : Vector α n) (i : Fin n) (x : α) : (put v i x)[i] = x := by simp [put]

/-- The same with the index as `simp` writes it. -/
@[simp] theorem put_get_val_same (v : Vector α n) (i : Fin n) (x : α) : (put v i x)[i.val] = x := by simp [put]

@[simp] theorem put_put (v : Vector α n) (i : Fin n) (x y : α) : put (put v i x) i y = put v i y := by simp [put]

@[simp] theorem put_self (v : Vector α n) (i : Fin n) : put v i v[i.val] = v := by simp [put]

theorem put_get_other (v : Vector α n) {i j : Fin n} (x : α) (h : i ≠ j) : (put v i x)[j] = v[j] := by
  have : i.val ≠ j.val := fun e => h (Fin.ext e)
  simp [put, this]

theorem put_get (v : Vector α n) (i j : Fin n) (x : α) : (put v i x)[j] = if i = j then x else v[j] := by
  split
  · next h => subst h; exact put_get_same v i x
  · next h => exact put_get_other v x h

@[simp] theorem modAt_get_same (v : Vector α n) (i : Fin n) (f : α → α) : (modAt v i f)[i] = f v[i] := put_get_same v i _

@[simp] theorem modAt_get_val_same (v : Vector α n) (i : Fin n) (f : α → α) : (modAt v i f)[i.val] = f v[i.val] :=
  put_get_val_same v i _

theorem modAt_get_other (v : Vector α n) {i j : Fin n} (f : α → α) (h : i ≠ j) : (modAt v i f)[j] = v[j] :=
  put_get_other v _ h

theorem modAt_get (v : Vector α n) (i j : Fin n) (f : α → α) : (modAt v i f)[j] = if i = j then f v[j] else v[j] := by
  unfold modAt; rw [put_get]; split
  · next h => rw [h]
  · rfl

@[simp] theorem mapV_get (f : α → β) (v : Vector α n) (i : Fin n) : (mapV f v)[i] = f v[i] := by
  simp [mapV]

@[simp] theorem mapV_get_val (f : α → β) (v : Vector α n) (i : Nat) (h : i < n) : (mapV f v)[i] = f v[i] := by
  simp [mapV]

@[simp] theorem tabulate_get (f : Fin n → β) (i : Fin n) : (tabulate f)[i] = f i := by
  simp [tabulate]

/-- The positions found are those of all positions that satisfy `p`, ascending. -/
theorem ixsWhere_eq (p : α → Bool) (v : Vector α n) : ixsWhere p v = (List.finRange n).filter (fun i => p v[i]) := by
  have e : (List.finRange n).zip v.toList = (List.finRange n).map (fun i => (i, v[i])) := by
    apply List.ext_getElem <;> simp
  unfold ixsWhere
  rw [e, List.filterMap_map]
  induction List.finRange n with
  | nil => rfl
  | cons i is ih => by_cases h : p v[i] <;> simp_all

theorem mem_ixsWhere {p : α → Bool} {v : Vector α n} {i : Fin n} : i ∈ ixsWhere p v ↔ p v[i] = true := by
  simp [ixsWhere_eq]

/-- What is true of every position and of the new contents is true of every position after a write. -/
theorem put_all {p : α → Prop} (v : Vector α n) (i : Fin n) (x : α) (h : ∀ j : Fin n, p v[j]) (k : p x) (j : Fin n) :
    p (put v i x)[j] := by
  rw [put_get]; split
  · exact k
  · exact h j

end Sys2Proof.Machine
end

