-- ==== Sys2Proof/Laws/Ops.lean ====
section
/-! SUPPORT. What the shared operations do, once each: taking a message or a request from the front of its list, and what taking a
message leaves alone. -/

namespace Sys2Proof.Machine

/-! ## A part written twice -/

@[simp] theorem State.setTimes_setTimes (s : State) (x y : Vector TimeCopy 6) : (s.setTimes x).setTimes y = s.setTimes y := rfl
@[simp] theorem State.setCtu_setCtu (s : State) (x y : Ctu) : (s.setCtu x).setCtu y = s.setCtu y := rfl
@[simp] theorem State.setRzt_setRzt (s : State) (x y : Rzt) : (s.setRzt x).setRzt y = s.setRzt y := rfl
@[simp] theorem State.setBook_setBook (s : State) (x y : Book) : (s.setBook x).setBook y = s.setBook y := rfl
@[simp] theorem State.setPsl_setPsl (s : State) (x y : Psl) : (s.setPsl x).setPsl y = s.setPsl y := rfl
@[simp] theorem State.setLines_setLines (s : State) (x y : Vector LineUnit 4) : (s.setLines x).setLines y = s.setLines y := rfl
@[simp] theorem State.setJobs_setJobs (s : State) (x y : List LineJob) : (s.setJobs x).setJobs y = s.setJobs y := rfl
@[simp] theorem State.setOcu_setOcu (s : State) (x y : Ocu) : (s.setOcu x).setOcu y = s.setOcu y := rfl
@[simp] theorem State.setKpl_setKpl (s : State) (x y : Kpl) : (s.setKpl x).setKpl y = s.setKpl y := rfl
@[simp] theorem State.setNrt_setNrt (s : State) (x y : Nrt) : (s.setNrt x).setNrt y = s.setNrt y := rfl
@[simp] theorem State.setPorts_setPorts (s : State) (x y : Vector PortRec 4) : (s.setPorts x).setPorts y = s.setPorts y := rfl
@[simp] theorem State.setPwc_setPwc (s : State) (x y : Pwc) : (s.setPwc x).setPwc y = s.setPwc y := rfl
@[simp] theorem State.setWires_setWires (s : State) (x y : Wires) : (s.setWires x).setWires y = s.setWires y := rfl

/-! ## Taking the head of a list -/

@[simp] theorem popTime_pending (b : TimedBlock) (s : State) : (popTime b s).pending = s.pending := rfl
@[simp] theorem popTime_times (b : TimedBlock) (s : State) : (popTime b s).times = s.times := rfl
@[simp] theorem popTime_rzt (b : TimedBlock) (s : State) : (popTime b s).rzt = s.rzt := rfl
@[simp] theorem popTime_book (b : TimedBlock) (s : State) : (popTime b s).book = s.book := rfl
@[simp] theorem popTime_psl (b : TimedBlock) (s : State) : (popTime b s).psl = s.psl := rfl
@[simp] theorem popTime_lines (b : TimedBlock) (s : State) : (popTime b s).lines = s.lines := rfl
@[simp] theorem popTime_jobs (b : TimedBlock) (s : State) : (popTime b s).jobs = s.jobs := rfl
@[simp] theorem popTime_ocu (b : TimedBlock) (s : State) : (popTime b s).ocu = s.ocu := rfl
@[simp] theorem popTime_kpl (b : TimedBlock) (s : State) : (popTime b s).kpl = s.kpl := rfl
@[simp] theorem popTime_nrt (b : TimedBlock) (s : State) : (popTime b s).nrt = s.nrt := rfl
@[simp] theorem popTime_ports (b : TimedBlock) (s : State) : (popTime b s).ports = s.ports := rfl
@[simp] theorem popTime_pwc (b : TimedBlock) (s : State) : (popTime b s).pwc = s.pwc := rfl

@[simp] theorem popConfig_pending (i : Fin 6) (s : State) : (popConfig i s).pending = s.pending := rfl
@[simp] theorem popConfig_times (i : Fin 6) (s : State) : (popConfig i s).times = s.times := rfl
@[simp] theorem popConfig_ctu (i : Fin 6) (s : State) : (popConfig i s).ctu = s.ctu := rfl
@[simp] theorem popConfig_book (i : Fin 6) (s : State) : (popConfig i s).book = s.book := rfl
@[simp] theorem popConfig_psl (i : Fin 6) (s : State) : (popConfig i s).psl = s.psl := rfl
@[simp] theorem popConfig_lines (i : Fin 6) (s : State) : (popConfig i s).lines = s.lines := rfl
@[simp] theorem popConfig_jobs (i : Fin 6) (s : State) : (popConfig i s).jobs = s.jobs := rfl
@[simp] theorem popConfig_ocu (i : Fin 6) (s : State) : (popConfig i s).ocu = s.ocu := rfl
@[simp] theorem popConfig_kpl (i : Fin 6) (s : State) : (popConfig i s).kpl = s.kpl := rfl
@[simp] theorem popConfig_nrt (i : Fin 6) (s : State) : (popConfig i s).nrt = s.nrt := rfl
@[simp] theorem popConfig_ports (i : Fin 6) (s : State) : (popConfig i s).ports = s.ports := rfl
@[simp] theorem popConfig_pwc (i : Fin 6) (s : State) : (popConfig i s).pwc = s.pwc := rfl

@[simp] theorem popSupply_pending (i : Fin 12) (s : State) : (popSupply i s).pending = s.pending := by
  unfold popSupply; dsimp only; split <;> rfl
@[simp] theorem popSupply_times (i : Fin 12) (s : State) : (popSupply i s).times = s.times := by
  unfold popSupply; dsimp only; split <;> rfl
@[simp] theorem popSupply_ctu (i : Fin 12) (s : State) : (popSupply i s).ctu = s.ctu := by
  unfold popSupply; dsimp only; split <;> rfl
@[simp] theorem popSupply_rzt (i : Fin 12) (s : State) : (popSupply i s).rzt = s.rzt := by
  unfold popSupply; dsimp only; split <;> rfl
@[simp] theorem popSupply_book (i : Fin 12) (s : State) : (popSupply i s).book = s.book := by
  unfold popSupply; dsimp only; split <;> rfl
@[simp] theorem popSupply_psl (i : Fin 12) (s : State) : (popSupply i s).psl = s.psl := by
  unfold popSupply; dsimp only; split <;> rfl
@[simp] theorem popSupply_lines (i : Fin 12) (s : State) : (popSupply i s).lines = s.lines := by
  unfold popSupply; dsimp only; split <;> rfl
@[simp] theorem popSupply_jobs (i : Fin 12) (s : State) : (popSupply i s).jobs = s.jobs := by
  unfold popSupply; dsimp only; split <;> rfl
@[simp] theorem popSupply_ocu (i : Fin 12) (s : State) : (popSupply i s).ocu = s.ocu := by
  unfold popSupply; dsimp only; split <;> rfl
@[simp] theorem popSupply_kpl (i : Fin 12) (s : State) : (popSupply i s).kpl = s.kpl := by
  unfold popSupply; dsimp only; split <;> rfl
@[simp] theorem popSupply_nrt (i : Fin 12) (s : State) : (popSupply i s).nrt = s.nrt := by
  unfold popSupply; dsimp only; split <;> rfl
@[simp] theorem popSupply_ports (i : Fin 12) (s : State) : (popSupply i s).ports = s.ports := by
  unfold popSupply; dsimp only; split <;> rfl

@[simp] theorem popTime_wires (b : TimedBlock) (s : State) :
    (popTime b s).wires = { s.wires with time := modAt s.wires.time (blockIx b) List.tail } := rfl

@[simp] theorem popConfig_wires (i : Fin 6) (s : State) :
    (popConfig i s).wires = { s.wires with config := modAt s.wires.config i List.tail } := rfl

@[simp] theorem popSupply_wires (i : Fin 12) (s : State) :
    (popSupply i s).wires = { s.wires with supply := modAt s.wires.supply i List.tail } := by
  unfold popSupply; dsimp only; split <;> rfl

/-- What PWC holds, but for its waiting answers, stands when a receiver takes a message. -/
theorem popSupply_pwc (i : Fin 12) (s : State) : ∃ ws, (popSupply i s).pwc = { s.pwc with waits := ws } := by
  unfold popSupply; dsimp only; split <;> exact ⟨_, rfl⟩

/-! ## Answers that wait no longer -/

/-- Answers given one after another change the answers on their way and nothing else. -/
theorem foldl_answer {α : Type} (p : α → Port) (n : α → Fin 256) (c : α → State → Code) (x : α → State → List Byte) (ws : List α) :
    ∀ s : State, ∃ as, ws.foldl (fun s w => answer (p w) (n w) (c w s) (x w s) s) s = s.setWires { s.wires with answers := as } := by
  induction ws with
  | nil => exact fun s => ⟨s.wires.answers, rfl⟩
  | cons w ws ih =>
    intro s
    obtain ⟨as, h⟩ := ih (answer (p w) (n w) (c w s) (x w s) s)
    exact ⟨as, h⟩

/-- Answers given one after another: each port gets its own, in their order. -/
theorem foldl_answer_get {α : Type} (q : α → Port) (n : α → Fin 256) (c : α → Code) (x : α → List Byte) (p : Port) (ws : List α) :
    ∀ s : State, (ws.foldl (fun s w => answer (q w) (n w) (c w) (x w) s) s).wires.answers[p] =
      s.wires.answers[p] ++ (ws.filter (fun w => decide (q w = p))).map (fun w => ⟨n w, c w, x w⟩) := by
  induction ws with
  | nil => simp
  | cons w ws ih =>
    intro s
    rw [List.foldl_cons, ih]
    by_cases h : q w = p
    · subst h; simp [answer]
    · have k := modAt_get_other s.wires.answers (f := (· ++ [⟨n w, c w, x w⟩])) h
      simp_all [answer]

/-- Settling drops the waiting answers that are ready and gives them; nothing else changes. -/
theorem settleTime_eq (s : State) : ∃ as, settleTime s =
    (s.setCtu { s.ctu with waits := s.ctu.waits.filter (fun w => !w.ready) }).setWires { s.wires with answers := as } :=
  foldl_answer TimeWait.port TimeWait.reqno (fun _ _ => .ok) (fun w s => if w.showClock then ctuPayload s.ctu else []) (s.ctu.waits.filter TimeWait.ready) _

@[simp] theorem settleTime_pending (s : State) : (settleTime s).pending = s.pending := by obtain ⟨as, h⟩ := settleTime_eq s; rw [h]; rfl
@[simp] theorem settleTime_times (s : State) : (settleTime s).times = s.times := by obtain ⟨as, h⟩ := settleTime_eq s; rw [h]; rfl
@[simp] theorem settleTime_rzt (s : State) : (settleTime s).rzt = s.rzt := by obtain ⟨as, h⟩ := settleTime_eq s; rw [h]; rfl
@[simp] theorem settleTime_book (s : State) : (settleTime s).book = s.book := by obtain ⟨as, h⟩ := settleTime_eq s; rw [h]; rfl
@[simp] theorem settleTime_psl (s : State) : (settleTime s).psl = s.psl := by obtain ⟨as, h⟩ := settleTime_eq s; rw [h]; rfl
@[simp] theorem settleTime_lines (s : State) : (settleTime s).lines = s.lines := by obtain ⟨as, h⟩ := settleTime_eq s; rw [h]; rfl
@[simp] theorem settleTime_jobs (s : State) : (settleTime s).jobs = s.jobs := by obtain ⟨as, h⟩ := settleTime_eq s; rw [h]; rfl
@[simp] theorem settleTime_ocu (s : State) : (settleTime s).ocu = s.ocu := by obtain ⟨as, h⟩ := settleTime_eq s; rw [h]; rfl
@[simp] theorem settleTime_kpl (s : State) : (settleTime s).kpl = s.kpl := by obtain ⟨as, h⟩ := settleTime_eq s; rw [h]; rfl
@[simp] theorem settleTime_nrt (s : State) : (settleTime s).nrt = s.nrt := by obtain ⟨as, h⟩ := settleTime_eq s; rw [h]; rfl
@[simp] theorem settleTime_ports (s : State) : (settleTime s).ports = s.ports := by obtain ⟨as, h⟩ := settleTime_eq s; rw [h]; rfl
@[simp] theorem settleTime_pwc (s : State) : (settleTime s).pwc = s.pwc := by obtain ⟨as, h⟩ := settleTime_eq s; rw [h]; rfl
@[simp] theorem settleTime_ctu (s : State) : (settleTime s).ctu = { s.ctu with waits := s.ctu.waits.filter (fun w => !w.ready) } := by
  obtain ⟨as, h⟩ := settleTime_eq s; rw [h]; rfl
@[simp] theorem settleTime_wires_time (s : State) : (settleTime s).wires.time = s.wires.time := by
  obtain ⟨as, h⟩ := settleTime_eq s; rw [h]; rfl
@[simp] theorem settleTime_wires_notices (s : State) : (settleTime s).wires.notices = s.wires.notices := by
  obtain ⟨as, h⟩ := settleTime_eq s; rw [h]; rfl
@[simp] theorem settleTime_wires_config (s : State) : (settleTime s).wires.config = s.wires.config := by
  obtain ⟨as, h⟩ := settleTime_eq s; rw [h]; rfl
@[simp] theorem settleTime_wires_supply (s : State) : (settleTime s).wires.supply = s.wires.supply := by
  obtain ⟨as, h⟩ := settleTime_eq s; rw [h]; rfl
@[simp] theorem settleTime_wires_fromLine (s : State) : (settleTime s).wires.fromLine = s.wires.fromLine := by
  obtain ⟨as, h⟩ := settleTime_eq s; rw [h]; rfl
@[simp] theorem settleTime_wires_toLine (s : State) : (settleTime s).wires.toLine = s.wires.toLine := by
  obtain ⟨as, h⟩ := settleTime_eq s; rw [h]; rfl
@[simp] theorem settleTime_wires_sched (s : State) : (settleTime s).wires.sched = s.wires.sched := by
  obtain ⟨as, h⟩ := settleTime_eq s; rw [h]; rfl
@[simp] theorem settleTime_wires_orders (s : State) : (settleTime s).wires.orders = s.wires.orders := by
  obtain ⟨as, h⟩ := settleTime_eq s; rw [h]; rfl
@[simp] theorem settleTime_wires_outcome (s : State) : (settleTime s).wires.outcome = s.wires.outcome := by
  obtain ⟨as, h⟩ := settleTime_eq s; rw [h]; rfl
@[simp] theorem settleTime_wires_toPlanner (s : State) : (settleTime s).wires.toPlanner = s.wires.toPlanner := by
  obtain ⟨as, h⟩ := settleTime_eq s; rw [h]; rfl
@[simp] theorem settleTime_wires_toBook (s : State) : (settleTime s).wires.toBook = s.wires.toBook := by
  obtain ⟨as, h⟩ := settleTime_eq s; rw [h]; rfl
@[simp] theorem settleTime_wires_taken (s : State) : (settleTime s).wires.taken = s.wires.taken := by
  obtain ⟨as, h⟩ := settleTime_eq s; rw [h]; rfl
@[simp] theorem settleTime_wires_requests (s : State) : (settleTime s).wires.requests = s.wires.requests := by
  obtain ⟨as, h⟩ := settleTime_eq s; rw [h]; rfl
@[simp] theorem settleTime_wires_qlens (s : State) : (settleTime s).wires.qlens = s.wires.qlens := by
  obtain ⟨as, h⟩ := settleTime_eq s; rw [h]; rfl

/-- Settling drops the waiting answers that are ready and gives them; nothing else changes. -/
theorem settleConfig_eq (s : State) : ∃ as, settleConfig s =
    (s.setRzt { s.rzt with waits := s.rzt.waits.filter (fun w => !w.ready) }).setWires { s.wires with answers := as } :=
  foldl_answer ConfigWait.port ConfigWait.reqno (fun _ _ => .ok) (fun w _ => w.payload) (s.rzt.waits.filter ConfigWait.ready) _

@[simp] theorem settleConfig_pending (s : State) : (settleConfig s).pending = s.pending := by obtain ⟨as, h⟩ := settleConfig_eq s; rw [h]; rfl
@[simp] theorem settleConfig_times (s : State) : (settleConfig s).times = s.times := by obtain ⟨as, h⟩ := settleConfig_eq s; rw [h]; rfl
@[simp] theorem settleConfig_ctu (s : State) : (settleConfig s).ctu = s.ctu := by obtain ⟨as, h⟩ := settleConfig_eq s; rw [h]; rfl
@[simp] theorem settleConfig_book (s : State) : (settleConfig s).book = s.book := by obtain ⟨as, h⟩ := settleConfig_eq s; rw [h]; rfl
@[simp] theorem settleConfig_psl (s : State) : (settleConfig s).psl = s.psl := by obtain ⟨as, h⟩ := settleConfig_eq s; rw [h]; rfl
@[simp] theorem settleConfig_lines (s : State) : (settleConfig s).lines = s.lines := by obtain ⟨as, h⟩ := settleConfig_eq s; rw [h]; rfl
@[simp] theorem settleConfig_jobs (s : State) : (settleConfig s).jobs = s.jobs := by obtain ⟨as, h⟩ := settleConfig_eq s; rw [h]; rfl
@[simp] theorem settleConfig_ocu (s : State) : (settleConfig s).ocu = s.ocu := by obtain ⟨as, h⟩ := settleConfig_eq s; rw [h]; rfl
@[simp] theorem settleConfig_kpl (s : State) : (settleConfig s).kpl = s.kpl := by obtain ⟨as, h⟩ := settleConfig_eq s; rw [h]; rfl
@[simp] theorem settleConfig_nrt (s : State) : (settleConfig s).nrt = s.nrt := by obtain ⟨as, h⟩ := settleConfig_eq s; rw [h]; rfl
@[simp] theorem settleConfig_ports (s : State) : (settleConfig s).ports = s.ports := by obtain ⟨as, h⟩ := settleConfig_eq s; rw [h]; rfl
@[simp] theorem settleConfig_pwc (s : State) : (settleConfig s).pwc = s.pwc := by obtain ⟨as, h⟩ := settleConfig_eq s; rw [h]; rfl
@[simp] theorem settleConfig_rzt (s : State) : (settleConfig s).rzt = { s.rzt with waits := s.rzt.waits.filter (fun w => !w.ready) } := by
  obtain ⟨as, h⟩ := settleConfig_eq s; rw [h]; rfl
@[simp] theorem settleConfig_wires_time (s : State) : (settleConfig s).wires.time = s.wires.time := by
  obtain ⟨as, h⟩ := settleConfig_eq s; rw [h]; rfl
@[simp] theorem settleConfig_wires_notices (s : State) : (settleConfig s).wires.notices = s.wires.notices := by
  obtain ⟨as, h⟩ := settleConfig_eq s; rw [h]; rfl
@[simp] theorem settleConfig_wires_config (s : State) : (settleConfig s).wires.config = s.wires.config := by
  obtain ⟨as, h⟩ := settleConfig_eq s; rw [h]; rfl
@[simp] theorem settleConfig_wires_supply (s : State) : (settleConfig s).wires.supply = s.wires.supply := by
  obtain ⟨as, h⟩ := settleConfig_eq s; rw [h]; rfl
@[simp] theorem settleConfig_wires_fromLine (s : State) : (settleConfig s).wires.fromLine = s.wires.fromLine := by
  obtain ⟨as, h⟩ := settleConfig_eq s; rw [h]; rfl
@[simp] theorem settleConfig_wires_toLine (s : State) : (settleConfig s).wires.toLine = s.wires.toLine := by
  obtain ⟨as, h⟩ := settleConfig_eq s; rw [h]; rfl
@[simp] theorem settleConfig_wires_sched (s : State) : (settleConfig s).wires.sched = s.wires.sched := by
  obtain ⟨as, h⟩ := settleConfig_eq s; rw [h]; rfl
@[simp] theorem settleConfig_wires_orders (s : State) : (settleConfig s).wires.orders = s.wires.orders := by
  obtain ⟨as, h⟩ := settleConfig_eq s; rw [h]; rfl
@[simp] theorem settleConfig_wires_outcome (s : State) : (settleConfig s).wires.outcome = s.wires.outcome := by
  obtain ⟨as, h⟩ := settleConfig_eq s; rw [h]; rfl
@[simp] theorem settleConfig_wires_toPlanner (s : State) : (settleConfig s).wires.toPlanner = s.wires.toPlanner := by
  obtain ⟨as, h⟩ := settleConfig_eq s; rw [h]; rfl
@[simp] theorem settleConfig_wires_toBook (s : State) : (settleConfig s).wires.toBook = s.wires.toBook := by
  obtain ⟨as, h⟩ := settleConfig_eq s; rw [h]; rfl
@[simp] theorem settleConfig_wires_taken (s : State) : (settleConfig s).wires.taken = s.wires.taken := by
  obtain ⟨as, h⟩ := settleConfig_eq s; rw [h]; rfl
@[simp] theorem settleConfig_wires_requests (s : State) : (settleConfig s).wires.requests = s.wires.requests := by
  obtain ⟨as, h⟩ := settleConfig_eq s; rw [h]; rfl
@[simp] theorem settleConfig_wires_qlens (s : State) : (settleConfig s).wires.qlens = s.wires.qlens := by
  obtain ⟨as, h⟩ := settleConfig_eq s; rw [h]; rfl

/-- Settling drops the waiting answers that are ready and gives them; nothing else changes. -/
theorem settleSupply_eq (s : State) : ∃ as, settleSupply s =
    (s.setPwc { s.pwc with waits := s.pwc.waits.filter (fun w => !w.ready) }).setWires { s.wires with answers := as } :=
  foldl_answer SupplyWait.port SupplyWait.reqno (fun _ _ => .ok) (fun _ _ => []) (s.pwc.waits.filter SupplyWait.ready) _

@[simp] theorem settleSupply_pending (s : State) : (settleSupply s).pending = s.pending := by obtain ⟨as, h⟩ := settleSupply_eq s; rw [h]; rfl
@[simp] theorem settleSupply_times (s : State) : (settleSupply s).times = s.times := by obtain ⟨as, h⟩ := settleSupply_eq s; rw [h]; rfl
@[simp] theorem settleSupply_ctu (s : State) : (settleSupply s).ctu = s.ctu := by obtain ⟨as, h⟩ := settleSupply_eq s; rw [h]; rfl
@[simp] theorem settleSupply_rzt (s : State) : (settleSupply s).rzt = s.rzt := by obtain ⟨as, h⟩ := settleSupply_eq s; rw [h]; rfl
@[simp] theorem settleSupply_book (s : State) : (settleSupply s).book = s.book := by obtain ⟨as, h⟩ := settleSupply_eq s; rw [h]; rfl
@[simp] theorem settleSupply_psl (s : State) : (settleSupply s).psl = s.psl := by obtain ⟨as, h⟩ := settleSupply_eq s; rw [h]; rfl
@[simp] theorem settleSupply_lines (s : State) : (settleSupply s).lines = s.lines := by obtain ⟨as, h⟩ := settleSupply_eq s; rw [h]; rfl
@[simp] theorem settleSupply_jobs (s : State) : (settleSupply s).jobs = s.jobs := by obtain ⟨as, h⟩ := settleSupply_eq s; rw [h]; rfl
@[simp] theorem settleSupply_ocu (s : State) : (settleSupply s).ocu = s.ocu := by obtain ⟨as, h⟩ := settleSupply_eq s; rw [h]; rfl
@[simp] theorem settleSupply_kpl (s : State) : (settleSupply s).kpl = s.kpl := by obtain ⟨as, h⟩ := settleSupply_eq s; rw [h]; rfl
@[simp] theorem settleSupply_nrt (s : State) : (settleSupply s).nrt = s.nrt := by obtain ⟨as, h⟩ := settleSupply_eq s; rw [h]; rfl
@[simp] theorem settleSupply_ports (s : State) : (settleSupply s).ports = s.ports := by obtain ⟨as, h⟩ := settleSupply_eq s; rw [h]; rfl
@[simp] theorem settleSupply_pwc (s : State) : (settleSupply s).pwc = { s.pwc with waits := s.pwc.waits.filter (fun w => !w.ready) } := by
  obtain ⟨as, h⟩ := settleSupply_eq s; rw [h]; rfl
@[simp] theorem settleSupply_wires_time (s : State) : (settleSupply s).wires.time = s.wires.time := by
  obtain ⟨as, h⟩ := settleSupply_eq s; rw [h]; rfl
@[simp] theorem settleSupply_wires_notices (s : State) : (settleSupply s).wires.notices = s.wires.notices := by
  obtain ⟨as, h⟩ := settleSupply_eq s; rw [h]; rfl
@[simp] theorem settleSupply_wires_config (s : State) : (settleSupply s).wires.config = s.wires.config := by
  obtain ⟨as, h⟩ := settleSupply_eq s; rw [h]; rfl
@[simp] theorem settleSupply_wires_supply (s : State) : (settleSupply s).wires.supply = s.wires.supply := by
  obtain ⟨as, h⟩ := settleSupply_eq s; rw [h]; rfl
@[simp] theorem settleSupply_wires_fromLine (s : State) : (settleSupply s).wires.fromLine = s.wires.fromLine := by
  obtain ⟨as, h⟩ := settleSupply_eq s; rw [h]; rfl
@[simp] theorem settleSupply_wires_toLine (s : State) : (settleSupply s).wires.toLine = s.wires.toLine := by
  obtain ⟨as, h⟩ := settleSupply_eq s; rw [h]; rfl
@[simp] theorem settleSupply_wires_sched (s : State) : (settleSupply s).wires.sched = s.wires.sched := by
  obtain ⟨as, h⟩ := settleSupply_eq s; rw [h]; rfl
@[simp] theorem settleSupply_wires_orders (s : State) : (settleSupply s).wires.orders = s.wires.orders := by
  obtain ⟨as, h⟩ := settleSupply_eq s; rw [h]; rfl
@[simp] theorem settleSupply_wires_outcome (s : State) : (settleSupply s).wires.outcome = s.wires.outcome := by
  obtain ⟨as, h⟩ := settleSupply_eq s; rw [h]; rfl
@[simp] theorem settleSupply_wires_toPlanner (s : State) : (settleSupply s).wires.toPlanner = s.wires.toPlanner := by
  obtain ⟨as, h⟩ := settleSupply_eq s; rw [h]; rfl
@[simp] theorem settleSupply_wires_toBook (s : State) : (settleSupply s).wires.toBook = s.wires.toBook := by
  obtain ⟨as, h⟩ := settleSupply_eq s; rw [h]; rfl
@[simp] theorem settleSupply_wires_taken (s : State) : (settleSupply s).wires.taken = s.wires.taken := by
  obtain ⟨as, h⟩ := settleSupply_eq s; rw [h]; rfl
@[simp] theorem settleSupply_wires_requests (s : State) : (settleSupply s).wires.requests = s.wires.requests := by
  obtain ⟨as, h⟩ := settleSupply_eq s; rw [h]; rfl
@[simp] theorem settleSupply_wires_qlens (s : State) : (settleSupply s).wires.qlens = s.wires.qlens := by
  obtain ⟨as, h⟩ := settleSupply_eq s; rw [h]; rfl

/-! ## Taking from the front -/

/-- Taking a tick: with the block's list headed by a tick it wants, the copy takes the clock and the work is done. -/
theorem takeTick_of_tick {b : TimedBlock} {want : Clock → Bool} {work : Clock → State → State} {s : State} {c : Clock}
    (h : s.wires.time[blockIx b].head? = some (.tick c)) (w : want c = true) :
    takeTick b want work s = settleTime (work c ((popTime b s).setTime b ⟨c, (s.timeOf b).status⟩)) := by
  simp only [takeTick, h, w, if_true]

/-- Taking a configuration-applied signal that heads the receiver's list. -/
theorem takeConfig_of_head {i : Fin 6} {work : ConfigSignal → State → State} {s : State} {g : ConfigSignal}
    (h : s.wires.config[i].head? = some g) : takeConfig i work s = settleConfig (work g (popConfig i s)) := by
  simp only [takeConfig, h]

/-- Taking a message of PWC that heads the receiver's list. -/
theorem takeSupply_of_head {α : Type} {i : Fin 12} {sel : SupplyMsg → Option α} {work : α → State → State} {s : State} {m : SupplyMsg}
    {a : α} (h : s.wires.supply[i].head? = some m) (k : sel m = some a) :
    takeSupply i sel work s = settleSupply (work a (popSupply i s)) := by
  simp only [takeSupply, h, Option.bind_some, k]

/-- An owner takes the request at the front of a port's list. -/
theorem onRequest_of_front {α : Type} {p : Port} {sel : Request → Option α} {work : Asker → α → State → State} {s : State}
    {h : HandedRequest} {rest : List HandedRequest} {a : α} (w : s.wires.requests[p] = h :: rest) (k : sel h.req = some a) :
    onRequest p sel work s =
      work ⟨p, h.reqno, h.role⟩ a (s.setWires { s.wires with requests := put s.wires.requests p rest }) := by
  simp only [onRequest, w, takeHanded, k]

/-- The book takes the request at the front of the list of the port it grants. -/
theorem onBookRequest_of_front {α : Type} {p : Port} {sel : Request → Option α} {work : Asker → α → State → State} {s : State}
    {h : HandedRequest} {rest : List HandedRequest} {a : α} (g : granted s = some (.port p)) (w : s.wires.requests[p] = h :: rest)
    (b : h.req.isBook = true) (k : sel h.req = some a) :
    onBookRequest p sel work s =
      work ⟨p, h.reqno, h.role⟩ a (setGrant (.port p) (s.setWires { s.wires with requests := put s.wires.requests p rest })) := by
  simp only [onBookRequest, g, w, takeHanded, b, k, if_true]

/-- The book takes OCU's presented item when it grants OCU. -/
theorem onOcuRequest_of_granted {req : OcuRequest} {work : Item → State → State} {s : State} {it : Item}
    (g : granted s = some .ocu) (w : s.ocu.presented = some it) (k : it.request = req) :
    onOcuRequest req work s = work it (setGrant .ocu s) := by
  simp only [onOcuRequest, g, w, k, if_true]

end Sys2Proof.Machine
end

