-- ==== Sys2Proof/Laws/Book.lean ====
section
/-! SUPPORT. What the book does with a record that a request names, what taking a request leaves of the book, and its exchanges with the
planner. -/

namespace Sys2Proof.Machine

variable {s : State} {id : BookingId} {b : Body} {q : Asker} {d : State → List Byte} {work : Body → State → State}

/-! ## After a request is taken -/

@[simp] theorem bookTook_bookRec (s : State) (p : Port) (rest : List HandedRequest) (i : BookIx) :
    (s.bookTook p rest).bookRec i = s.bookRec i := rfl

@[simp] theorem bookTook_clockSet (s : State) (p : Port) (rest : List HandedRequest) (x : TimedBlock) :
    (s.bookTook p rest).clockSet x = s.clockSet x := rfl

theorem NamedRecord.took (h : NamedRecord s id b) (p : Port) (rest : List HandedRequest) :
    NamedRecord (s.bookTook p rest) id b := h

/-- The book takes the request at the front of the list of the port it grants, as the statements say it. -/
theorem onBookRequest_took {α : Type} {p : Port} {sel : Request → Option α} {work : Asker → α → State → State}
    {h : HandedRequest} {rest : List HandedRequest} {a : α} (w : s.bookAsks p h rest) (k : sel h.req = some a) :
    onBookRequest p sel work s = work (h.asker p) a (s.bookTook p rest) :=
  onBookRequest_of_front w.2.2 w.1 w.2.1 k

/-! ## A named record -/

/-- A body without a fault is used as read (03 R62). -/
theorem readBody_sound {i : BookIx} (h : (s.bookRec i).body.faults = 0) : readBody i s = (some (s.bookRec i).body, s) := by
  exact if_pos h

/-- A read of a sound body, or of a record that is not LIVE, leaves the state (03 R62). -/
theorem scrubOne_sound {i : BookIx} (h : (s.bookRec i).life = .live → (s.bookRec i).body.faults = 0) : scrubOne i s = s := by
  unfold scrubOne; split
  · next live => rw [readBody_sound (h live)]
  · rfl

/-- Reads of sound bodies leave the state. -/
theorem readAll_sound {is : List BookIx} (h : ∀ i ∈ is, (s.bookRec i).body.faults = 0) : readAll is s = s := by
  induction is with
  | nil => rfl
  | cons i is ih =>
    simp only [readAll, List.foldl_cons, scrubOne_sound (fun _ => h i List.mem_cons_self)]
    exact ih (fun j hj => h j (List.mem_cons_of_mem _ hj))

/-- An emptying book leaves its lane to an emptied planner empty, and that is all `dropUntaken` does. -/
theorem dropUntaken_eq :
    dropUntaken s = s.setWires { s.wires with toPlanner := if s.kpl.frozen then [] else s.wires.toPlanner } := by
  unfold dropUntaken; split <;> rfl

/-- Emptying hands the indication of each schedule that held an entry, and changes nothing else (03 R37). -/
theorem indicateEmptied_eq (v : Vector (List Entry) 128) :
    indicateEmptied v s = s.setWires { s.wires with sched := s.wires.sched ++ ixsWhere (fun es => !es.isEmpty) v } := by
  have h : ∀ (l : List Room) (s : State), l.foldl (fun s r => handSched r s) s = s.setWires { s.wires with sched := s.wires.sched ++ l } := by
    intro l; induction l with
    | nil => intro s; simp [State.setWires]
    | cons r l ih => intro s; rw [List.foldl_cons, ih]; simp [handSched]
  exact h _ s

/-- A request about a sound record that a current handle names and no move holds goes on with its body. -/
theorem onRecord_named (h : NamedRecord s id b) : onRecord q id d work s = work b s := by
  obtain ⟨live, gen, free, rfl, sound⟩ := h
  simp [onRecord, resolve, live, gen, free, readBody_sound sound]

/-- A request that names a stale handle is answered UNKNOWN (03 R36). -/
theorem onRecord_stale (h : (s.bookRec id.index).life = .free ∨ (s.bookRec id.index).gen ≠ id.gen) :
    onRecord q id d work s = reply q .unknown [] s := by
  simp only [onRecord, resolve, if_pos h]

/-- A request that names a DAMAGED record is answered DAMAGED (03 R36). -/
theorem onRecord_damaged (h : (s.bookRec id.index).life = .damaged) (g : (s.bookRec id.index).gen = id.gen) :
    onRecord q id d work s = reply q .damaged (d s) s := by
  simp [onRecord, resolve, h, g]

/-- A request that names a record a move holds is answered BUSY_RECORD (03 R36). -/
theorem onRecord_busy (h : (s.bookRec id.index).life = .live) (g : (s.bookRec id.index).gen = id.gen)
    (m : (s.bookRec id.index).pending = .move) : onRecord q id d work s = reply q .busyRecord [] s := by
  simp [onRecord, resolve, h, g, m]

/-! ## Exchanges with the planner -/

/-- What taking an exchange gives: one of the list that `p` selects, and the list without it, in its order. -/
theorem takeExchange_some {p : Exchange → Bool} {xs : List Exchange} {x : Exchange} {rest : List Exchange}
    (h : takeExchange p xs = some (x, rest)) : p x = true ∧ ∃ l r, xs = l ++ x :: r ∧ rest = l ++ r := by
  induction xs generalizing rest with
  | nil => cases h
  | cons y ys ih =>
    simp only [takeExchange] at h
    split at h
    · cases h; exact ⟨‹_›, [], ys, rfl, rfl⟩
    · obtain ⟨⟨z, zs⟩, hz, e⟩ := Option.map_eq_some_iff.1 h
      cases e
      obtain ⟨hp, l, r, rfl, rfl⟩ := ih hz
      exact ⟨hp, y :: l, r, rfl, rfl⟩

/-- No exchange is taken exactly when `p` selects none. -/
theorem takeExchange_none {p : Exchange → Bool} {xs : List Exchange} : takeExchange p xs = none ↔ xs.any p = false := by
  induction xs with
  | nil => simp [takeExchange]
  | cons y ys ih => by_cases h : p y = true <;> simp_all [takeExchange]

/-- The book has a pending move of a number exactly when an answer of that number takes an exchange. -/
theorem moveOpen_iff {n : Nat} :
    s.moveOpen n = true ↔ ∃ x rest, takeExchange (fun x => x.serial = n && x.move.isSome) s.book.exchanges = some (x, rest) := by
  unfold State.moveOpen
  cases h : takeExchange (fun x => x.serial = n && x.move.isSome) s.book.exchanges with
  | none => simp [takeExchange_none.1 h]
  | some y => exact ⟨fun _ => ⟨y.1, y.2, rfl⟩, fun _ => by
      rw [← Bool.not_eq_false]; intro e; rw [takeExchange_none.2 e] at h; cases h⟩

@[simp] theorem openExchange_serial (m : Option (Span × Option Nat)) : (openExchange id q m s).book.serial = s.book.serial + 1 := rfl

@[simp] theorem openExchange_exchanges (m : Option (Span × Option Nat)) :
    (openExchange id q m s).book.exchanges = s.book.exchanges ++ [⟨s.book.serial, id, some (q.port, q.reqno), m⟩] := rfl

@[simp] theorem openExchange_records (m : Option (Span × Option Nat)) : (openExchange id q m s).book.records = s.book.records := rfl

@[simp] theorem openExchange_schedules (m : Option (Span × Option Nat)) : (openExchange id q m s).book.schedules = s.book.schedules := rfl

@[simp] theorem openExchange_wires (m : Option (Span × Option Nat)) : (openExchange id q m s).wires = s.wires := rfl

end Sys2Proof.Machine
end

