-- ==== Sys2Proof/Laws/Frames.lean ====
section
/-! SUPPORT. What each shared operation leaves alone: `Only ps s` goes through an operation that changes listed parts only. -/

namespace Sys2Proof.Machine

/-! ## The relation -/

@[simp] theorem Only.refl (ps : List Part) (s : State) : Only ps s s := fun x _ => by cases x <;> rfl

theorem agree.trans {x : Part} {s t u : State} (h : agree x s t) (k : agree x t u) : agree x s u := by
  cases x <;> simp only [agree] at * <;> rw [k, h]

theorem agree.symm {x : Part} {s t : State} (h : agree x s t) : agree x t s := by
  cases x <;> simp only [agree] at * <;> rw [h]

theorem Only.trans {ps : List Part} {s t u : State} (h : Only ps s t) (k : Only ps t u) : Only ps s u :=
  fun x hx => (h x hx).trans (k x hx)

theorem Only.symm {ps : List Part} {s t : State} (h : Only ps s t) : Only ps t s := fun x hx => (h x hx).symm

theorem Only.mono {ps qs : List Part} {s t : State} (h : Only ps s t) (k : ∀ x ∈ ps, x ∈ qs) : Only qs s t :=
  fun x hx => h x (fun hp => hx (k x hp))

/-- A later state that differs only in listed parts may be put for an earlier one. -/
theorem Only.congr {ps : List Part} {s t u : State} (k : Only ps t u) : Only ps s u ↔ Only ps s t :=
  ⟨fun h => h.trans k.symm, fun h => h.trans k⟩

/-! ## Replacing one part -/

@[simp] theorem only_setTimes {ps : List Part} {s t : State} {x} (h : Part.times ∈ ps) : Only ps s (t.setTimes x) ↔ Only ps s t :=
  Only.congr (fun p hp => by cases p <;> first | rfl | exact absurd h hp)

@[simp] theorem only_setCtu {ps : List Part} {s t : State} {x} (h : Part.ctu ∈ ps) : Only ps s (t.setCtu x) ↔ Only ps s t :=
  Only.congr (fun p hp => by cases p <;> first | rfl | exact absurd h hp)

@[simp] theorem only_setRzt {ps : List Part} {s t : State} {x} (h : Part.rzt ∈ ps) : Only ps s (t.setRzt x) ↔ Only ps s t :=
  Only.congr (fun p hp => by cases p <;> first | rfl | exact absurd h hp)

@[simp] theorem only_setBook {ps : List Part} {s t : State} {x} (h : Part.book ∈ ps) : Only ps s (t.setBook x) ↔ Only ps s t :=
  Only.congr (fun p hp => by cases p <;> first | rfl | exact absurd h hp)

@[simp] theorem only_setPsl {ps : List Part} {s t : State} {x} (h : Part.psl ∈ ps) : Only ps s (t.setPsl x) ↔ Only ps s t :=
  Only.congr (fun p hp => by cases p <;> first | rfl | exact absurd h hp)

@[simp] theorem only_setLines {ps : List Part} {s t : State} {x} (h : Part.lines ∈ ps) : Only ps s (t.setLines x) ↔ Only ps s t :=
  Only.congr (fun p hp => by cases p <;> first | rfl | exact absurd h hp)

@[simp] theorem only_setJobs {ps : List Part} {s t : State} {x} (h : Part.jobs ∈ ps) : Only ps s (t.setJobs x) ↔ Only ps s t :=
  Only.congr (fun p hp => by cases p <;> first | rfl | exact absurd h hp)

@[simp] theorem only_setOcu {ps : List Part} {s t : State} {x} (h : Part.ocu ∈ ps) : Only ps s (t.setOcu x) ↔ Only ps s t :=
  Only.congr (fun p hp => by cases p <;> first | rfl | exact absurd h hp)

@[simp] theorem only_setKpl {ps : List Part} {s t : State} {x} (h : Part.kpl ∈ ps) : Only ps s (t.setKpl x) ↔ Only ps s t :=
  Only.congr (fun p hp => by cases p <;> first | rfl | exact absurd h hp)

@[simp] theorem only_setNrt {ps : List Part} {s t : State} {x} (h : Part.nrt ∈ ps) : Only ps s (t.setNrt x) ↔ Only ps s t :=
  Only.congr (fun p hp => by cases p <;> first | rfl | exact absurd h hp)

@[simp] theorem only_setPorts {ps : List Part} {s t : State} {x} (h : Part.ports ∈ ps) : Only ps s (t.setPorts x) ↔ Only ps s t :=
  Only.congr (fun p hp => by cases p <;> first | rfl | exact absurd h hp)

@[simp] theorem only_setPwc {ps : List Part} {s t : State} {x} (h : Part.pwc ∈ ps) : Only ps s (t.setPwc x) ↔ Only ps s t :=
  Only.congr (fun p hp => by cases p <;> first | rfl | exact absurd h hp)

@[simp] theorem only_setWires {ps : List Part} {s t : State} {x} (h : Part.wires ∈ ps) : Only ps s (t.setWires x) ↔ Only ps s t :=
  Only.congr (fun p hp => by cases p <;> first | rfl | exact absurd h hp)

@[simp] theorem only_setLine {ps : List Part} {s t : State} {i x} (h : Part.lines ∈ ps) :
    Only ps s (t.setLine i x) ↔ Only ps s t := only_setLines h

@[simp] theorem only_setPort {ps : List Part} {s t : State} {i x} (h : Part.ports ∈ ps) :
    Only ps s (t.setPort i x) ↔ Only ps s t := only_setPorts h

@[simp] theorem only_setTime {ps : List Part} {s t : State} {i x} (h : Part.times ∈ ps) :
    Only ps s (t.setTime i x) ↔ Only ps s t := only_setTimes h

@[simp] theorem only_handNotice {ps : List Part} {s t : State} {a b} (h : Part.wires ∈ ps) :
    Only ps s (handNotice a b t) ↔ Only ps s t := only_setWires h

@[simp] theorem only_answer {ps : List Part} {s t : State} {a b c d} (h : Part.wires ∈ ps) :
    Only ps s (answer a b c d t) ↔ Only ps s t := only_setWires h

@[simp] theorem only_reply {ps : List Part} {s t : State} {a b c} (h : Part.wires ∈ ps) :
    Only ps s (reply a b c t) ↔ Only ps s t := only_setWires h

@[simp] theorem only_handTimeAll {ps : List Part} {s t : State} {a} (h : Part.wires ∈ ps) :
    Only ps s (handTimeAll a t) ↔ Only ps s t := only_setWires h

@[simp] theorem only_handTime {ps : List Part} {s t : State} {a b} (h : Part.wires ∈ ps) :
    Only ps s (handTime a b t) ↔ Only ps s t := only_setWires h

@[simp] theorem only_handConfig {ps : List Part} {s t : State} {a} (h : Part.wires ∈ ps) :
    Only ps s (handConfig a t) ↔ Only ps s t := only_setWires h

@[simp] theorem only_handSupply {ps : List Part} {s t : State} {a b} (h : Part.wires ∈ ps) :
    Only ps s (handSupply a b t) ↔ Only ps s t := only_setWires h

@[simp] theorem only_handOcu {ps : List Part} {s t : State} {a b c} (h : Part.wires ∈ ps) :
    Only ps s (handOcu a b c t) ↔ Only ps s t := only_setWires h

@[simp] theorem only_handLine {ps : List Part} {s t : State} {a b c} (h : Part.wires ∈ ps) :
    Only ps s (handLine a b c t) ↔ Only ps s t := only_setWires h

@[simp] theorem only_handSched {ps : List Part} {s t : State} {a} (h : Part.wires ∈ ps) :
    Only ps s (handSched a t) ↔ Only ps s t := only_setWires h

@[simp] theorem only_handOrderInd {ps : List Part} {s t : State} {a} (h : Part.wires ∈ ps) :
    Only ps s (handOrderInd a t) ↔ Only ps s t := only_setWires h

@[simp] theorem only_handOutcome {ps : List Part} {s t : State} {a} (h : Part.wires ∈ ps) :
    Only ps s (handOutcome a t) ↔ Only ps s t := only_setWires h

@[simp] theorem only_handPlanner {ps : List Part} {s t : State} {a} (h : Part.wires ∈ ps) :
    Only ps s (handPlanner a t) ↔ Only ps s t := only_setWires h

@[simp] theorem only_handBook {ps : List Part} {s t : State} {a} (h : Part.wires ∈ ps) :
    Only ps s (handBook a t) ↔ Only ps s t := only_setWires h

@[simp] theorem only_handQlen {ps : List Part} {s t : State} {a b} (h : Part.wires ∈ ps) :
    Only ps s (handQlen a b t) ↔ Only ps s t := only_setWires h

@[simp] theorem only_setGrant {ps : List Part} {s t : State} {r} (h : Part.book ∈ ps) :
    Only ps s (setGrant r t) ↔ Only ps s t := only_setBook h

/-! ## Folds and choices -/

theorem only_foldl {ps : List Part} {α : Type} {s : State} (f : State → α → State)
    (h : ∀ t a, Only ps s (f t a) ↔ Only ps s t) : ∀ (l : List α) (t : State), Only ps s (l.foldl f t) ↔ Only ps s t
  | [], _ => Iff.rfl
  | a :: l, t => (only_foldl f h l (f t a)).trans (h t a)

theorem only_ite {ps : List Part} {s a b : State} {c : Prop} [Decidable c] {q : Prop}
    (ha : Only ps s a ↔ q) (hb : Only ps s b ↔ q) : Only ps s (if c then a else b) ↔ q := by
  split <;> assumption

end Sys2Proof.Machine
end

