-- ==== Sys2Proof/Laws/OpFrames.lean ====
section
/-! SUPPORT. Which parts each shared operation may change: through it, `Only ps s` holds after exactly when it held before. -/

namespace Sys2Proof.Machine

variable {ps : List Part} {s t : State}

/-! ## Taking and settling -/

@[simp] theorem only_handSupplyTo {is m} (hw : Part.wires ∈ ps) : Only ps s (handSupplyTo is m t) ↔ Only ps s t :=
  only_foldl _ (fun _ _ => only_handSupply hw) _ _

@[simp] theorem only_popTime {b} (hw : Part.wires ∈ ps) (hc : Part.ctu ∈ ps) : Only ps s (popTime b t) ↔ Only ps s t := by
  simp [popTime, hw, hc]

@[simp] theorem only_settleTime (hw : Part.wires ∈ ps) (hc : Part.ctu ∈ ps) : Only ps s (settleTime t) ↔ Only ps s t := by
  unfold settleTime
  exact (only_foldl _ (fun _ _ => only_answer hw) _ _).trans (only_setCtu hc)

@[simp] theorem only_popConfig {i} (hw : Part.wires ∈ ps) (hr : Part.rzt ∈ ps) : Only ps s (popConfig i t) ↔ Only ps s t := by
  simp [popConfig, hw, hr]

@[simp] theorem only_settleConfig (hw : Part.wires ∈ ps) (hr : Part.rzt ∈ ps) : Only ps s (settleConfig t) ↔ Only ps s t := by
  unfold settleConfig
  exact (only_foldl _ (fun _ _ => only_answer hw) _ _).trans (only_setRzt hr)

/-- A receiver that no SET_POWER answer waits for (places 5 and above) leaves PWC alone. -/
@[simp] theorem only_popSupply {i} (hw : Part.wires ∈ ps) (hp : Part.pwc ∈ ps) : Only ps s (popSupply i t) ↔ Only ps s t := by
  unfold popSupply; dsimp only; split <;> simp [hw, hp]

@[simp] theorem only_settleSupply (hw : Part.wires ∈ ps) (hp : Part.pwc ∈ ps) : Only ps s (settleSupply t) ↔ Only ps s t := by
  unfold settleSupply
  exact (only_foldl _ (fun _ _ => only_answer hw) _ _).trans (only_setPwc hp)

theorem only_takeTick {b want work} (ht : Part.times ∈ ps) (hw : Part.wires ∈ ps) (hc : Part.ctu ∈ ps)
    (h : ∀ c u, Only ps s (work c u) ↔ Only ps s u) : Only ps s (takeTick b want work t) ↔ Only ps s t := by
  unfold takeTick; split
  · exact only_ite (by simp [hw, hc, ht, h]) Iff.rfl
  · exact Iff.rfl

theorem only_takeConfig {i work} (hw : Part.wires ∈ ps) (hr : Part.rzt ∈ ps)
    (h : ∀ c u, Only ps s (work c u) ↔ Only ps s u) : Only ps s (takeConfig i work t) ↔ Only ps s t := by
  unfold takeConfig; split <;> simp [hw, hr, h]

theorem only_takeSupply {α : Type} {i work} {sel : SupplyMsg → Option α} (hw : Part.wires ∈ ps) (hp : Part.pwc ∈ ps)
    (h : ∀ c u, Only ps s (work c u) ↔ Only ps s u) : Only ps s (takeSupply i sel work t) ↔ Only ps s t := by
  unfold takeSupply; split <;> simp [hw, hp, h]

theorem only_onRequest {α : Type} {p work} {sel : Request → Option α} (hw : Part.wires ∈ ps)
    (h : ∀ q a u, Only ps s (work q a u) ↔ Only ps s u) : Only ps s (onRequest p sel work t) ↔ Only ps s t := by
  unfold onRequest; split <;> simp [hw, h]

theorem only_onBookRequest {α : Type} {p work} {sel : Request → Option α} (hw : Part.wires ∈ ps) (hb : Part.book ∈ ps)
    (h : ∀ q a u, Only ps s (work q a u) ↔ Only ps s u) : Only ps s (onBookRequest p sel work t) ↔ Only ps s t := by
  unfold onBookRequest
  refine only_ite ?_ Iff.rfl
  split
  · split <;> simp [hw, hb, h]
  · exact Iff.rfl

theorem only_onOcuRequest {req work} (hb : Part.book ∈ ps) (h : ∀ it u, Only ps s (work it u) ↔ Only ps s u) :
    Only ps s (onOcuRequest req work t) ↔ Only ps s t := by
  unfold onOcuRequest
  refine only_ite ?_ Iff.rfl
  split
  · exact only_ite (by simp [hb, h]) Iff.rfl
  · exact Iff.rfl

theorem only_takeFromLine {α : Type} {l a work} {sel : LineMsg → Option α} (hw : Part.wires ∈ ps)
    (h : ∀ x u, Only ps s (work x u) ↔ Only ps s u) : Only ps s (takeFromLine l a sel work t) ↔ Only ps s t := by
  unfold takeFromLine; split
  · split <;> simp [hw, h]
  · exact Iff.rfl

theorem only_takeFromOcu {α : Type} {l a work} {sel : OcuMsg → Option α} (hw : Part.wires ∈ ps)
    (h : ∀ x u, Only ps s (work x u) ↔ Only ps s u) : Only ps s (takeFromOcu l a sel work t) ↔ Only ps s t := by
  unfold takeFromOcu; split
  · split <;> simp [hw, h]
  · exact Iff.rfl

theorem only_takePlan {α : Type} {work} {sel : PlanMsg → Option α} (hw : Part.wires ∈ ps)
    (h : ∀ x u, Only ps s (work x u) ↔ Only ps s u) : Only ps s (takePlan sel work t) ↔ Only ps s t := by
  unfold takePlan; split <;> simp [hw, h]

theorem only_takeBookMsg {α : Type} {work} {sel : BookMsg → Option α} (hw : Part.wires ∈ ps)
    (h : ∀ x u, Only ps s (work x u) ↔ Only ps s u) : Only ps s (takeBookMsg sel work t) ↔ Only ps s t := by
  unfold takeBookMsg; split
  · exact only_ite (by simp [hw]) (by simp [hw, h])
  · exact Iff.rfl

/-! ## The Campus Time Unit -/

section
variable (hw : Part.wires ∈ ps) (hc : Part.ctu ∈ ps)
include hw hc

@[simp] theorem only_ctuAdvance : Only ps s (ctuAdvance t) ↔ Only ps s t := by
  unfold ctuAdvance; exact only_ite (by simp [hw, hc]) (by simp [hw, hc])

@[simp] theorem only_minuteExpiry : Only ps s (minuteExpiry t) ↔ Only ps s t := by
  unfold minuteExpiry
  refine only_ite Iff.rfl ?_
  split
  · exact Iff.rfl
  · exact only_ite (by simp [hw, hc]) (by simp [hw, hc])
  · simp [hc]
  · exact Iff.rfl

@[simp] theorem only_onePeriod : Only ps s (onePeriod t) ↔ Only ps s t := by
  unfold onePeriod
  exact only_ite (by simp [hc]) (by simp [wrapRefcount, hw, hc])

@[simp] theorem only_setClock {c} : Only ps s (setClock c t) ↔ Only ps s t := by simp [setClock, hw, hc]

omit hw in
@[simp] theorem only_waitTime {q b} : Only ps s (waitTime q b t) ↔ Only ps s t := by simp [waitTime, hc]

end

/-! ## Room and Zone Tables -/

section
variable (hr : Part.rzt ∈ ps)
include hr

@[simp] theorem only_makeActive {a b} : Only ps s (makeActive a b t) ↔ Only ps s t := by simp [makeActive, hr]

@[simp] theorem only_waitConfig {q x} : Only ps s (waitConfig q x t) ↔ Only ps s t := by simp [waitConfig, hr]

end

/-! ## The book -/

section
variable (hb : Part.book ∈ ps)
include hb

@[simp] theorem only_setRec {i r} : Only ps s (setRec i r t) ↔ Only ps s t := only_setBook hb

@[simp] theorem only_setBody {i b} : Only ps s (setBody i b t) ↔ Only ps s t := only_setBook hb

@[simp] theorem only_setPending {i x} : Only ps s (setPending i x t) ↔ Only ps s t := only_setBook hb

variable (hw : Part.wires ∈ ps)
include hw

@[simp] theorem only_setSchedule {r es} : Only ps s (setSchedule r es t) ↔ Only ps s t := by simp [setSchedule, hb, hw]

@[simp] theorem only_changeEntry {r i f} : Only ps s (changeEntry r i f t) ↔ Only ps s t := only_setSchedule hb hw

@[simp] theorem only_setSummary {i x} : Only ps s (setSummary i x t) ↔ Only ps s t := only_setSchedule hb hw

omit hb in
@[simp] theorem only_bookNotice {k id r o od d c} : Only ps s (bookNotice k id r o od d c t) ↔ Only ps s t := only_handNotice hw

omit hb in
@[simp] theorem only_recordNotice {k i d c} : Only ps s (recordNotice k i d c t) ↔ Only ps s t := only_handNotice hw

@[simp] theorem only_allocate {i b} : Only ps s (allocate i b t) ↔ Only ps s t := by simp [allocate, hb, hw]

@[simp] theorem only_freeRecord {i k d c} : Only ps s (freeRecord i k d c t) ↔ Only ps s t := by
  unfold freeRecord; dsimp only; split <;> simp [hb, hw]

@[simp] theorem only_damage {i} : Only ps s (damage i t) ↔ Only ps s t := by
  unfold damage; dsimp only; split <;> simp [hb, hw]

@[simp] theorem only_readBody {i} : Only ps s (readBody i t).2 ↔ Only ps s t := by
  unfold readBody; dsimp only; split_ifs <;> simp [hb, hw]

/-- The state a read leaves, when the read is named by its result. -/
theorem only_of_readBody {i o u} (h : readBody i t = (o, u)) : Only ps s u ↔ Only ps s t := by
  have := only_readBody (ps := ps) (s := s) (t := t) (i := i) hb hw
  rwa [h] at this

@[simp] theorem only_setState {i b x} : Only ps s (setState i b x t) ↔ Only ps s t := by simp [setState, hb, hw]

@[simp] theorem only_scrubOne {i} : Only ps s (scrubOne i t) ↔ Only ps s t := by
  unfold scrubOne; exact only_ite (only_readBody hb hw) Iff.rfl

end

end Sys2Proof.Machine
end

