-- ==== Sys2Proof/Laws/BookFrames.lean ====
section
/-! SUPPORT. Which parts the works of the book may change: the book itself and what it hands on. -/

namespace Sys2Proof.Machine

variable {ps : List Part} {s t : State} (hb : Part.book ∈ ps) (hw : Part.wires ∈ ps)

/-! ## Requests -/

section
include hb hw

theorem only_onRecord {q id items work} (h : ∀ b u, Only ps s (work b u) ↔ Only ps s u) :
    Only ps s (onRecord q id items work t) ↔ Only ps s t := by
  unfold onRecord
  split
  · simp [hw]
  · refine only_ite (by simp [hw]) (only_ite (by simp [hw]) ?_)
    split <;> rename_i e
    · exact (h _ _).trans (only_of_readBody hb hw e)
    · exact (only_reply hw).trans (only_of_readBody hb hw e)

@[simp] theorem only_makeBooking {q a} : Only ps s (makeBooking q a t) ↔ Only ps s t := by
  unfold makeBooking; dsimp only
  repeat' split
  all_goals simp [hb, hw]

@[simp] theorem only_confirmWork {q id} : Only ps s (confirmWork q id t) ↔ Only ps s t :=
  only_onRecord hb hw (fun _ _ => by dsimp only; split_ifs <;> simp [hb, hw])

omit hb in
@[simp] theorem only_findFreeWork {q a} : Only ps s (findFreeWork q a t) ↔ Only ps s t := by
  unfold findFreeWork; dsimp only
  repeat' split
  all_goals simp [hw]

@[simp] theorem only_cancelDamaged {q i} : Only ps s (cancelDamaged q i t) ↔ Only ps s t := by
  unfold cancelDamaged; split_ifs <;> simp [hb, hw]

@[simp] theorem only_cancelWork {q id} : Only ps s (cancelWork q id t) ↔ Only ps s t := by
  unfold cancelWork
  split
  · simp [hw]
  · refine only_ite (by simp [hw]) (only_ite (by simp [hb, hw]) ?_)
    split <;> rename_i e
    · simp [hb, hw, only_of_readBody hb hw e]
    · split_ifs <;> simp [hb, hw, only_of_readBody hb hw e]

@[simp] theorem only_modifyAtOnce {q a b} : Only ps s (modifyAtOnce q a b t) ↔ Only ps s t := by simp [modifyAtOnce, hb, hw]

omit hw in
@[simp] theorem only_openExchange {i q m} : Only ps s (openExchange i q m t) ↔ Only ps s t := only_setBook hb

@[simp] theorem only_sendMove {q a b o} : Only ps s (sendMove q a b o t) ↔ Only ps s t := by simp [sendMove, hb, hw]

@[simp] theorem only_modifyWork {q a} : Only ps s (modifyWork q a t) ↔ Only ps s t := by
  unfold modifyWork
  refine only_ite (by simp [hw]) (only_onRecord hb hw (fun _ _ => ?_))
  repeat' split
  all_goals simp [hb, hw]

@[simp] theorem only_checkInConfirmed {i b x c} : Only ps s (checkInConfirmed i b x c t).2 ↔ Only ps s t := by
  unfold checkInConfirmed; dsimp only; split_ifs <;> simp [checkedInNotice, hb, hw]

@[simp] theorem only_checkInActive {i b x c} : Only ps s (checkInActive i b x c t).2 ↔ Only ps s t := by
  unfold checkInActive; dsimp only; split_ifs <;> simp [checkedInNotice, hb, hw]

@[simp] theorem only_checkInWork {q id} : Only ps s (checkInWork q id t) ↔ Only ps s t := by
  unfold checkInWork
  refine only_ite (by simp [hw]) (only_onRecord hb hw (fun _ _ => ?_))
  dsimp only; repeat' split
  all_goals simp [hb, hw]

@[simp] theorem only_orderWork {q a} : Only ps s (orderWork q a t) ↔ Only ps s t := by
  unfold orderWork
  refine only_ite (by simp [hw]) (only_onRecord hb hw (fun _ _ => ?_))
  dsimp only; repeat' split
  all_goals simp [sendAttach, hb, hw]

@[simp] theorem only_readAll {is} : Only ps s (readAll is t) ↔ Only ps s t :=
  only_foldl _ (fun _ _ => only_scrubOne hb hw) _ _

@[simp] theorem only_reseat {q i b r} : Only ps s (reseat q i b r t) ↔ Only ps s t := by
  unfold reseat; dsimp only; split <;> simp [hb, hw]

theorem only_cascadeOne {q c i} : Only ps s (cascadeOne q c i).state ↔ Only ps s c.state := by
  unfold cascadeOne; dsimp only; repeat' split
  all_goals simp [hb, hw]

theorem only_cascade {q} : ∀ {is : List BookIx} {c}, Only ps s (is.foldl (cascadeOne q) c).state ↔ Only ps s c.state
  | [], _ => Iff.rfl
  | _ :: is, _ => (only_cascade (is := is)).trans (only_cascadeOne hb hw)

@[simp] theorem only_carryBlock {q a r sp} : Only ps s (carryBlock q a r sp t) ↔ Only ps s t := by
  unfold carryBlock; dsimp only; split
  · exact only_cascade hb hw
  · simp [hb, hw, only_cascade hb hw]

@[simp] theorem only_blockRoomWork {q a} : Only ps s (blockRoomWork q a t) ↔ Only ps s t := by
  unfold blockRoomWork; dsimp only
  repeat' split
  all_goals simp [hb, hw]

@[simp] theorem only_unblockWork {q id} : Only ps s (unblockWork q id t) ↔ Only ps s t :=
  only_onRecord hb hw (fun _ _ => only_ite (by simp [hb, hw]) (by simp [hw]))

@[simp] theorem only_clearBookStatsWork {q a} : Only ps s (clearBookStatsWork q a t) ↔ Only ps s t := by
  simp [clearBookStatsWork, hb, hw]

omit hb in
@[simp] theorem only_queryRoomWork {q a} : Only ps s (queryRoomWork q a t) ↔ Only ps s t := by
  unfold queryRoomWork; split <;> simp [hw]

@[simp] theorem only_queryBookingWork {q id} : Only ps s (queryBookingWork q id t) ↔ Only ps s t :=
  only_onRecord hb hw (fun _ _ => by simp [hw])

omit hb in
@[simp] theorem only_queryBookStatsWork {q a} : Only ps s (queryBookStatsWork q a t) ↔ Only ps s t := by
  simp [queryBookStatsWork, hw]

end

/-! ## Deadlines -/

section
include hb hw

@[simp] theorem only_holdExpiryOn {m i} : Only ps s (holdExpiryOn m i t) ↔ Only ps s t := by
  unfold holdExpiryOn
  refine only_ite ?_ Iff.rfl
  split <;> rename_i e
  · exact only_ite ((only_freeRecord hb hw).trans (only_of_readBody hb hw e)) (only_of_readBody hb hw e)
  · exact only_of_readBody hb hw e

@[simp] theorem only_endOn {n i} : Only ps s (endOn n i t) ↔ Only ps s t := by
  unfold endOn
  refine only_ite (only_ite (by simp [hb, hw]) ?_) Iff.rfl
  split <;> rename_i e
  · split_ifs <;> simp [hb, hw, only_of_readBody hb hw e]
  · simp [hb, hw, only_of_readBody hb hw e]

@[simp] theorem only_noShow {v z i b} : Only ps s (noShow v z i b t) ↔ Only ps s t := by
  unfold noShow; dsimp only; split_ifs <;> simp [hb, hw]

@[simp] theorem only_noShowOn {v z n i} : Only ps s (noShowOn v z n i t) ↔ Only ps s t := by
  unfold noShowOn
  refine only_ite ?_ Iff.rfl
  split <;> rename_i e
  · exact only_ite ((only_noShow hb hw).trans (only_of_readBody hb hw e)) (only_of_readBody hb hw e)
  · exact only_of_readBody hb hw e

@[simp] theorem only_startOn {n i} : Only ps s (startOn n i t) ↔ Only ps s t := by
  unfold startOn
  refine only_ite ?_ Iff.rfl
  split <;> rename_i e
  · exact only_ite ((only_setState hb hw).trans (only_of_readBody hb hw e)) (only_of_readBody hb hw e)
  · exact only_of_readBody hb hw e

@[simp] theorem only_heldDeadlines {n i} : Only ps s (heldDeadlines n i t) ↔ Only ps s t := by simp [heldDeadlines, hb, hw]

@[simp] theorem only_bookBoundary {n} : Only ps s (bookBoundary n t) ↔ Only ps s t :=
  ((only_foldl _ (fun _ _ => only_startOn hb hw) _ _).trans (only_foldl _ (fun _ _ => only_noShowOn hb hw) _ _)).trans
    ((only_foldl _ (fun _ _ => only_endOn hb hw) _ _).trans (only_setBook hb))

omit hb in
@[simp] theorem only_indicateEmptied {v} : Only ps s (indicateEmptied v t) ↔ Only ps s t :=
  only_foldl _ (fun _ _ => only_handSched hw) _ _

omit hb in
@[simp] theorem only_dropUntaken : Only ps s (dropUntaken t) ↔ Only ps s t := by unfold dropUntaken; split <;> simp [hw]

@[simp] theorem only_scrub : Only ps s (scrub t) ↔ Only ps s t :=
  (only_setBook hb).trans (only_foldl _ (fun _ _ => only_scrubOne hb hw) _ _)

@[simp] theorem only_bookTick {c} : Only ps s (bookTick c t) ↔ Only ps s t := by
  have h := only_foldl (ps := ps) (s := s) (fun u i => holdExpiryOn c.minutes i u) (fun _ _ => only_holdExpiryOn hb hw)
  unfold bookTick; dsimp only; split_ifs <;> simp [hb, hw, h]

end

/-! ## OCU's requests, the planner's messages, reactions -/

section
include hb hw

theorem only_firstSound {is} : Only ps s (firstSound is t).2 ↔ Only ps s t := by
  induction is generalizing t with
  | nil => exact Iff.rfl
  | cons i is ih =>
    unfold firstSound; split
    · split <;> rename_i e
      · exact only_of_readBody hb hw e
      · exact ih.trans (only_of_readBody hb hw e)
    · exact ih

theorem only_of_firstSound {is o u} (h : firstSound is t = (o, u)) : Only ps s u ↔ Only ps s t := by
  have := only_firstSound (ps := ps) (s := s) (t := t) (is := is) hb hw
  rwa [h] at this

@[simp] theorem only_panelCheckinOutcome {r g} : Only ps s (panelCheckinOutcome r g t).2 ↔ Only ps s t := by
  unfold panelCheckinOutcome; dsimp only
  split <;> rename_i e
  · split_ifs <;> simp [hb, hw, only_of_firstSound hb hw e]
  · split <;> rename_i f
    · split_ifs <;> simp [hb, hw, only_of_firstSound hb hw e, only_of_firstSound hb hw f]
    · simp [noneToCheckIn, only_of_firstSound hb hw e, only_of_firstSound hb hw f]

@[simp] theorem only_endNowOutcome {r} : Only ps s (endNowOutcome r t).2 ↔ Only ps s t := by
  unfold endNowOutcome; split <;> rename_i e <;> simp [hb, hw, only_of_firstSound hb hw e]

@[simp] theorem only_extendOutcome {r n} : Only ps s (extendOutcome r n t).2 ↔ Only ps s t := by
  unfold extendOutcome; dsimp only
  split <;> rename_i e
  · split_ifs <;> simp [hb, hw, only_of_firstSound hb hw e]
  · exact only_of_firstSound hb hw e

@[simp] theorem only_walkupOutcome {r g} : Only ps s (walkupOutcome r g t).2 ↔ Only ps s t := by
  unfold walkupOutcome; dsimp only
  repeat' split
  all_goals simp [hb, hw]

@[simp] theorem only_ghostReleaseOutcome {r} : Only ps s (ghostReleaseOutcome r t).2 ↔ Only ps s t := by
  unfold ghostReleaseOutcome; dsimp only
  split <;> rename_i e
  · split_ifs <;> simp [hb, hw, only_of_firstSound hb hw e]
  · exact only_of_firstSound hb hw e

omit hb in
theorem only_giveOutcome {work it} (h : ∀ u, Only ps s (work it u).2 ↔ Only ps s u) :
    Only ps s (giveOutcome work it t) ↔ Only ps s t := by simp [giveOutcome, hw, h]

omit hb in
@[simp] theorem only_answerExchange {x c items} : Only ps s (answerExchange x c items t) ↔ Only ps s t := by
  unfold answerExchange; split <;> simp [hw]

omit hb in
@[simp] theorem only_dropOrder {id o} : Only ps s (dropOrder id o t) ↔ Only ps s t := by
  unfold dropOrder; split <;> simp [hw]

@[simp] theorem only_attachAnswered {n id x} : Only ps s (attachAnswered n id x t) ↔ Only ps s t := by
  unfold attachAnswered; dsimp only
  repeat' split
  all_goals simp [hb, hw]

@[simp] theorem only_settleClaim {i m x} : Only ps s (settleClaim i m x t) ↔ Only ps s t := only_setSchedule hb hw

@[simp] theorem only_completeMove {x sp n f} : Only ps s (completeMove x sp n f t) ↔ Only ps s t := by
  unfold completeMove; dsimp only
  rw [only_heldDeadlines hb hw]
  refine only_ite (by simp [hb, hw]) ?_
  split
  · simp [hb, hw]
  · split <;> rename_i e <;> simp [hb, hw, only_of_readBody hb hw e]

@[simp] theorem only_moveAnswered {n o f} : Only ps s (moveAnswered n o f t) ↔ Only ps s t := by
  unfold moveAnswered; dsimp only
  repeat' split
  all_goals simp [hb, hw]

@[simp] theorem only_orderEndedWork {id o d} : Only ps s (orderEndedWork id o d t) ↔ Only ps s t := by
  unfold orderEndedWork; dsimp only
  split
  · refine only_ite (only_ite ?_ (by simp [hb])) Iff.rfl
    split <;> rename_i e <;> simp [hb, hw, only_of_readBody hb hw e]
  · exact Iff.rfl

@[simp] theorem only_reevaluate {i} : Only ps s (reevaluate t i) ↔ Only ps s t := by
  unfold reevaluate
  refine only_ite ?_ Iff.rfl
  split <;> rename_i e
  · dsimp only; split_ifs <;> simp [hb, hw, only_of_readBody hb hw e]
  · exact only_of_readBody hb hw e

@[simp] theorem only_stopMove {x} : Only ps s (stopMove t x) ↔ Only ps s t := by
  unfold stopMove; split <;> simp [hb, hw]

@[simp] theorem only_bookStop : Only ps s (bookStop t) ↔ Only ps s t :=
  (only_foldl _ (fun _ _ => only_stopMove hb hw) _ _).trans (by simp [abandonAttaches, withdrawRequests, hb, hw])

end

end Sys2Proof.Machine
end

