-- ==== Sys2Proof/Laws/KitchenFrames.lean ====
section
/-! SUPPORT. Which parts the works of the planner and of the book–planner path may change. -/

namespace Sys2Proof.Machine

variable {ps : List Part} {s t : State} (hk : Part.kpl ∈ ps) (hw : Part.wires ∈ ps)

section
include hk

@[simp] theorem only_changeLoad {f k b} : Only ps s (changeLoad f k b t) ↔ Only ps s t := by
  unfold changeLoad; split <;> simp [hk]

@[simp] theorem only_addLoads {k cs} : Only ps s (addLoads k cs t) ↔ Only ps s t := by
  unfold addLoads; split
  · exact only_foldl _ (fun _ _ => only_changeLoad hk) _ _
  · exact Iff.rfl

@[simp] theorem only_withdrawLoads {k cs} : Only ps s (withdrawLoads k cs t) ↔ Only ps s t := by
  unfold withdrawLoads; split
  · exact only_foldl _ (fun _ _ => only_changeLoad hk) _ _
  · exact Iff.rfl

@[simp] theorem only_setOrder {i o} : Only ps s (setOrder i o t) ↔ Only ps s t := only_setKpl hk

@[simp] theorem only_joinDeferred {i} : Only ps s (joinDeferred i t) ↔ Only ps s t := only_setKpl hk

@[simp] theorem only_leaveDeferred {i} : Only ps s (leaveDeferred i t) ↔ Only ps s t := only_setKpl hk

@[simp] theorem only_writePlaced {i o pl} : Only ps s (writePlaced i o pl t) ↔ Only ps s t := by simp [writePlaced, hk]

@[simp] theorem only_dropPassed {c i} : Only ps s (dropPassed c i t) ↔ Only ps s t := by simp [dropPassed, hk]

@[simp] theorem only_shiftMaps {d} : Only ps s (shiftMaps d t) ↔ Only ps s t := only_setKpl hk

end

section
include hw

@[simp] theorem only_orderNotice {k i o d c} : Only ps s (orderNotice k i o d c t) ↔ Only ps s t := only_handNotice hw

@[simp] theorem only_overloadNotice {b c k} : Only ps s (overloadNotice b c k t) ↔ Only ps s t := by
  unfold overloadNotice; dsimp only; split <;> simp [hw]

@[simp] theorem only_tellEnded {id o d} : Only ps s (tellEnded id o d t) ↔ Only ps s t := by
  unfold tellEnded; split <;> simp [hw]

theorem only_onOrder {q id work} (h : ∀ o u, Only ps s (work o u) ↔ Only ps s u) :
    Only ps s (onOrder q id work t) ↔ Only ps s t := by
  unfold onOrder; split <;> simp [hw, h]

@[simp] theorem only_queryKitchenWork {q a} : Only ps s (queryKitchenWork q a t) ↔ Only ps s t := by
  unfold queryKitchenWork; dsimp only; split_ifs <;> simp [hw]

@[simp] theorem only_queryOrderWork {q id} : Only ps s (queryOrderWork q id t) ↔ Only ps s t :=
  only_onOrder hw (fun _ _ => only_reply hw)

@[simp] theorem only_orderCreated {n i} : Only ps s (orderCreated n i t) ↔ Only ps s t := by
  unfold orderCreated; dsimp only; split <;> simp [hw]

end

section
include hk hw

@[simp] theorem only_freeOrderRec {i} : Only ps s (freeOrderRec i t) ↔ Only ps s t := by simp [freeOrderRec, hk, hw]

@[simp] theorem only_freeOrderWith {i k d c} : Only ps s (freeOrderWith i k d c t) ↔ Only ps s t := by
  simp [freeOrderWith, hk, hw]

@[simp] theorem only_kitchenApply {b c} : Only ps s (kitchenApply b c t) ↔ Only ps s t := by
  have h := only_foldl (ps := ps) (s := s) (fun u k => overloadNotice b c k u) (fun _ _ => only_overloadNotice hw)
  simp [kitchenApply, h, hk]

@[simp] theorem only_stageKitchenWork {q a} : Only ps s (stageKitchenWork q a t) ↔ Only ps s t := by
  unfold stageKitchenWork; dsimp only
  repeat' split
  all_goals simp [hk, hw]

@[simp] theorem only_commit {i} : Only ps s (commit i t) ↔ Only ps s t := by simp [commit, hk, hw]

@[simp] theorem only_dispatch {i} : Only ps s (dispatch i t) ↔ Only ps s t := by simp [dispatch, hk, hw]

@[simp] theorem only_commitOn {c i} : Only ps s (commitOn c i t) ↔ Only ps s t := only_ite (only_commit hk hw) Iff.rfl

@[simp] theorem only_dispatchOn {c i} : Only ps s (dispatchOn c i t) ↔ Only ps s t := only_ite (only_dispatch hk hw) Iff.rfl

@[simp] theorem only_bucketBoundary {c} : Only ps s (bucketBoundary c t) ↔ Only ps s t :=
  ((only_foldl _ (fun _ _ => only_dropPassed hk) _ _).trans (only_foldl _ (fun _ _ => only_dispatchOn hk hw) _ _)).trans
    (only_foldl _ (fun _ _ => only_commitOn hk hw) _ _)

@[simp] theorem only_lateOn {m i} : Only ps s (lateOn m i t) ↔ Only ps s t := only_ite (by simp [hk, hw]) Iff.rfl

@[simp] theorem only_placeDeferred {i} : Only ps s (placeDeferred t i) ↔ Only ps s t := by
  unfold placeDeferred; dsimp only; split <;> simp [hk, hw]

@[simp] theorem only_plannerRollover {d} : Only ps s (plannerRollover d t) ↔ Only ps s t := by
  unfold plannerRollover; dsimp only
  rw [only_foldl _ (fun _ _ => only_freeOrderWith hk hw), only_foldl _ (fun _ _ => only_placeDeferred hk hw), only_shiftMaps hk]
  exact only_ite (only_kitchenApply hk hw) Iff.rfl

omit hw in
@[simp] theorem only_takeMargins : Only ps s (takeMargins t) ↔ Only ps s t := only_setKpl hk

omit hk in
@[simp] theorem only_indicateFreed {v} : Only ps s (indicateFreed v t) ↔ Only ps s t :=
  only_foldl _ (fun _ _ => only_handOrderInd hw) _ _

@[simp] theorem only_plannerTick {c} : Only ps s (plannerTick c t) ↔ Only ps s t := by
  have h := only_foldl (ps := ps) (s := s) (fun u i => lateOn c.minutes i u) (fun _ _ => only_lateOn hk hw)
  unfold plannerTick; dsimp only; split_ifs <;> simp [hk, hw, h]

@[simp] theorem only_orderRetryWork {q id} : Only ps s (orderRetryWork q id t) ↔ Only ps s t := by
  unfold orderRetryWork
  refine only_ite (by simp [hw]) (only_onOrder hw (fun _ _ => ?_))
  dsimp only; repeat' split
  all_goals simp [hk, hw]

@[simp] theorem only_orderCancelWork {q id} : Only ps s (orderCancelWork q id t) ↔ Only ps s t :=
  only_onOrder hw (fun _ _ => by repeat' split
                                 all_goals simp [hk, hw])

@[simp] theorem only_markDeliveredWork {q id} : Only ps s (markDeliveredWork q id t) ↔ Only ps s t :=
  only_onOrder hw (fun _ _ => by split <;> simp [hk, hw])

@[simp] theorem only_applyWork {q a} (hr : Part.rzt ∈ ps) : Only ps s (applyWork q a t) ↔ Only ps s t := by
  unfold applyWork rztApplyWork; dsimp only; split_ifs <;> simp [hk, hw, hr]

/-! ## The path -/

@[simp] theorem only_attachWork {a} : Only ps s (attachWork a t) ↔ Only ps s t := by
  unfold attachWork; dsimp only
  repeat' split
  all_goals simp [hk, hw]

theorem only_of_rePlace {i o m u} (h : rePlace i o m t = some u) : Only ps s u ↔ Only ps s t := by
  unfold rePlace at h; dsimp only at h
  repeat' split at h
  all_goals first | (cases h; simp [hk, hw]) | cases h

@[simp] theorem only_moveWork {a} : Only ps s (moveWork a t) ↔ Only ps s t := by
  unfold moveWork; dsimp only
  split
  · simp [hw]
  · refine only_ite (by simp [hw]) (only_ite (by simp [hw]) (only_ite (by simp [hw]) ?_))
    split <;> rename_i e
    · exact (only_handBook hw).trans (only_of_rePlace hk hw e)
    · simp [hw]

@[simp] theorem only_bringUp {i cs} : Only ps s (bringUp i cs t) ↔ Only ps s t := by
  unfold bringUp; dsimp only; split_ifs <;> simp [hk, hw]

@[simp] theorem only_restoreOrder {id} : Only ps s (restoreOrder id t) ↔ Only ps s t := by
  unfold restoreOrder; dsimp only
  repeat' split
  all_goals simp [hk, hw]

@[simp] theorem only_pathStop : Only ps s (pathStop t) ↔ Only ps s t :=
  (only_foldl _ (fun _ _ => only_restoreOrder hk hw) _ _).trans (only_setWires hw)

@[simp] theorem only_moveAnswerWork {n o f} (hb : Part.book ∈ ps) : Only ps s (moveAnswerWork n o f t) ↔ Only ps s t := by
  unfold moveAnswerWork; split_ifs <;> simp [hk, hw, hb]

omit hw in
@[simp] theorem only_answerTaken {id} : Only ps s (answerTaken id t) ↔ Only ps s t := by
  unfold answerTaken; split
  · exact only_ite Iff.rfl (only_setOrder hk)
  · exact Iff.rfl

@[simp] theorem only_bookingLeftWork {a} : Only ps s (bookingLeftWork a t) ↔ Only ps s t := by
  unfold bookingLeftWork; dsimp only
  repeat' split
  all_goals simp [hk, hw]

@[simp] theorem only_dropOrderWork {id} : Only ps s (dropOrderWork id t) ↔ Only ps s t := by
  unfold dropOrderWork; split <;> simp [hk, hw]

@[simp] theorem only_reseatWork {a} : Only ps s (reseatWork a t) ↔ Only ps s t := by
  unfold reseatWork; dsimp only; split <;> simp [hk, hw]

end

end Sys2Proof.Machine
end

