-- ==== Sys2Proof/Laws/LineFrames.lean ====
section
/-! SUPPORT. Which parts the works of the panel line units may change. -/

namespace Sys2Proof.Machine

variable {ps : List Part} {s t : State} (hl : Part.lines ∈ ps) (hj : Part.jobs ∈ ps) (hw : Part.wires ∈ ps)

section
include hl

@[simp] theorem only_modLine {l f} : Only ps s (modLine l f t) ↔ Only ps s t := only_setLine hl

@[simp] theorem only_setCtx {l a x} : Only ps s (setCtx l a x t) ↔ Only ps s t := only_setLine hl

@[simp] theorem only_modCtx {l a f} : Only ps s (modCtx l a f t) ↔ Only ps s t := only_setLine hl

@[simp] theorem only_setPhase {l x} : Only ps s (setPhase l x t) ↔ Only ps s t := only_setLine hl

@[simp] theorem only_sendFrame {l x} : Only ps s (sendFrame l x t) ↔ Only ps s t := only_setLine hl

@[simp] theorem only_clearSent {l} : Only ps s (clearSent l t) ↔ Only ps s t := only_setLine hl

@[simp] theorem only_clearStats {l} : Only ps s (clearStats l t) ↔ Only ps s t := only_setLine hl

@[simp] theorem only_countFailure {l a k} : Only ps s (countFailure l a k t) ↔ Only ps s t := only_setLine hl

@[simp] theorem only_pushDisplay {l a v} : Only ps s (pushDisplay l a v t) ↔ Only ps s t := by
  unfold pushDisplay; dsimp only; split <;> simp [hl]

end

section
include hw

@[simp] theorem only_tellOcu {l a m} : Only ps s (tellOcu l a m t) ↔ Only ps s t := by
  unfold tellOcu; split <;> simp [hw]

@[simp] theorem only_panelNotice {k l a d} : Only ps s (panelNotice k l a d t) ↔ Only ps s t := only_handNotice hw

@[simp] theorem only_handOffline {l a c} : Only ps s (handOffline l a c t) ↔ Only ps s t := by simp [handOffline, hw]

@[simp] theorem only_queryLineWork {q a} : Only ps s (queryLineWork q a t) ↔ Only ps s t := by
  unfold queryLineWork; dsimp only; split_ifs <;> simp [hw]

@[simp] theorem only_lineDone {l p n b k} (hj : Part.jobs ∈ ps) : Only ps s (lineDone l p n b k t) ↔ Only ps s t :=
  (only_foldl _ (fun _ _ => only_answer hw) _ _).trans (only_setJobs hj)

end

section
include hl hw

@[simp] theorem only_failTurn {l a k} : Only ps s (failTurn l a k t) ↔ Only ps s t := by
  unfold failTurn; dsimp only; split_ifs <;> simp [hl, hw]

@[simp] theorem only_handOnward {l a es} : Only ps s (handOnward l a es t) ↔ Only ps s t := by
  induction es generalizing t with
  | nil => simp [handOnward, hl]
  | cons e es ih => unfold handOnward; split_ifs <;> simp [hl, hw, ih]

@[simp] theorem only_handNext {l a} : Only ps s (handNext l a t) ↔ Only ps s t := only_ite (only_handOnward hl hw) Iff.rfl

@[simp] theorem only_eventWalk {l a es} : Only ps s (eventWalk l a es t) ↔ Only ps s t := by simp [eventWalk, hl, hw]

@[simp] theorem only_takeVerdict {l a q b} : Only ps s (takeVerdict l a q b t) ↔ Only ps s t := by
  unfold takeVerdict; dsimp only; split_ifs <;> simp [hl, hw]

@[simp] theorem only_takeApplied {l a v} : Only ps s (takeApplied l a v t) ↔ Only ps s t := by
  unfold takeApplied; dsimp only; split_ifs <;> simp [hl, hw]

@[simp] theorem only_resetAddr {l a} : Only ps s (resetAddr l t a) ↔ Only ps s t := by
  unfold resetAddr; dsimp only; split_ifs <;> simp [hl, hw]

@[simp] theorem only_resetLine {l} : Only ps s (resetLine l t) ↔ Only ps s t :=
  (only_clearStats hl).trans (only_foldl _ (fun _ _ => only_resetAddr hl hw) _ _)

@[simp] theorem only_goodSteps {l a x} : Only ps s (goodSteps l a x t) ↔ Only ps s t := by
  unfold goodSteps; dsimp only; split_ifs <;> simp [hl, hw]

omit hw in
@[simp] theorem only_unconfigure {l a} : Only ps s (unconfigure l a t) ↔ Only ps s t := only_modLine hl

@[simp] theorem only_reconfigure {l a} : Only ps s (reconfigure l t a) ↔ Only ps s t := by
  unfold reconfigure; dsimp only
  repeat' split
  all_goals simp [hl, hw]

@[simp] theorem only_warmAddr {l a} : Only ps s (warmAddr l t a) ↔ Only ps s t := by
  unfold warmAddr; dsimp only; split_ifs <;> simp [hl, hw]

@[simp] theorem only_clearLineStatsWork {q a} : Only ps s (clearLineStatsWork q a t) ↔ Only ps s t := by
  have h := only_foldl (ps := ps) (s := s) (fun u l => clearStats l u) (fun _ _ => only_clearStats hl)
  unfold clearLineStatsWork; split_ifs <;> simp [hw, h]

include hj

@[simp] theorem only_sendAnnounce {l} : Only ps s (sendAnnounce l t) ↔ Only ps s t := by
  unfold sendAnnounce; split <;> simp [hl, hj, hw]

@[simp] theorem only_sendAnnounces {l n} : Only ps s (sendAnnounces l n t) ↔ Only ps s t := by
  induction n generalizing t with
  | zero => exact Iff.rfl
  | succ n ih => exact ih.trans (only_sendAnnounce hl hj hw)

@[simp] theorem only_flushAnnounces {l} : Only ps s (flushAnnounces l t) ↔ Only ps s t :=
  only_ite (only_sendAnnounces hl hj hw) Iff.rfl

@[simp] theorem only_goIdle {l} : Only ps s (goIdle l t) ↔ Only ps s t := by simp [goIdle, hl, hj, hw]

@[simp] theorem only_beginTurn {l a b} : Only ps s (beginTurn l a b t) ↔ Only ps s t := by simp [beginTurn, hl, hj, hw]

@[simp] theorem only_endCycle {l} : Only ps s (endCycle l t) ↔ Only ps s t := by
  unfold endCycle; split_ifs <;> simp [hl, hj, hw]

@[simp] theorem only_nextTurn {l as} : Only ps s (nextTurn l as t) ↔ Only ps s t := by
  induction as generalizing t with
  | nil => simp [nextTurn, hl, hj, hw]
  | cons a as ih => unfold nextTurn; split_ifs <;> simp [hl, hj, hw, ih]

@[simp] theorem only_doResets {l} : Only ps s (doResets l t) ↔ Only ps s t :=
  (only_foldl _ (fun _ _ => by simp [hl, hj, hw]) _ _).trans (only_modLine hl)

@[simp] theorem only_finishTurn {l b} : Only ps s (finishTurn l b t) ↔ Only ps s t := by
  unfold finishTurn; dsimp only; split_ifs <;> simp [hl, hj, hw]

@[simp] theorem only_beginCycle {l} : Only ps s (beginCycle l t) ↔ Only ps s t := by simp [beginCycle, hl, hj, hw]

@[simp] theorem only_abandonTurn {l x} : Only ps s (abandonTurn l x t) ↔ Only ps s t := by simp [abandonTurn, hl, hj, hw]

@[simp] theorem only_warmLine {l} : Only ps s (warmLine l t) ↔ Only ps s t :=
  (only_foldl _ (fun _ _ => only_warmAddr hl hw) _ _).trans (by simp [hl, hj, hw])

@[simp] theorem only_placeAnnounce {an l} : Only ps s (placeAnnounce an t l) ↔ Only ps s t := by
  simp [placeAnnounce, hl, hj, hw]

@[simp] theorem only_announceWork {q a} : Only ps s (announceWork q a t) ↔ Only ps s t := by
  unfold announceWork
  exact only_ite (only_reply hw) ((only_foldl _ (fun _ _ => only_placeAnnounce hl hj hw) _ _).trans (only_setJobs hj))

@[simp] theorem only_askReset {q l} : Only ps s (askReset q t l) ↔ Only ps s t := by
  unfold askReset; dsimp only; split_ifs <;> simp [hl, hj, hw]

@[simp] theorem only_lineResetWork {q a} : Only ps s (lineResetWork q a t) ↔ Only ps s t := by
  unfold lineResetWork
  exact only_ite (only_reply hw) ((only_foldl _ (fun _ _ => only_askReset hl hj hw) _ _).trans (only_setJobs hj))

end

end Sys2Proof.Machine
end

