-- ==== Sys2Proof/Laws/Outer.lean ====
section
/-! SUPPORT. What the router takes within a trim and at its warm start, how a warm start begins, the order of a RESYNC, how a cycle
ends, what an address leaves behind, and what a port's stop leaves, once each. -/

namespace Sys2Proof.Machine

variable {s : State}

/-! ## The clock and the router -/

theorem takeNotice_nil {i} (h : s.wires.notices[i] = []) : takeNotice s i = s := by
  unfold takeNotice; split <;> simp_all

theorem takeNotice_cons {i h rest} (e : s.wires.notices[i] = h :: rest) :
    takeNotice s i = routeNotice h (s.setWires
      { s.wires with notices := put s.wires.notices i rest, noticesBefore := modAt s.wires.noticesBefore i (· - 1) }) := by
  unfold takeNotice; split <;> simp_all

@[simp] theorem ctuAdvances_zero : ctuAdvances 0 s = s := rfl

@[simp] theorem ctuAdvances_one : ctuAdvances 1 s = ctuAdvance s := rfl

theorem ctuAdvances_succ_succ {d} : ctuAdvances (d + 2) s = ctuAdvances (d + 1) (noticesInTrim (ctuAdvance s)) := rfl

/-- One copy placed or dropped: NRT's own state changes, and a length may be reported to a port. -/
theorem placeCopy_eq {n p} : ∃ x q, placeCopy n p s = (s.setNrt x).setWires { s.wires with qlens := q } := by
  unfold placeCopy setLost setQueue; dsimp only; split
  · exact ⟨{ s.nrt with lost := put s.nrt.lost p true }, s.wires.qlens, rfl⟩
  · split
    · exact ⟨{ s.nrt with queues := put s.nrt.queues p (s.nrt.queues[p] ++ [n]) }, s.wires.qlens, rfl⟩
    · exact ⟨_, _, rfl⟩

/-- A notice routed: NRT's own state changes, and lengths may be reported to the ports. -/
theorem routeNotice_eq {h} : ∃ x q, routeNotice h s = (s.setNrt x).setWires { s.wires with qlens := q } := by
  unfold routeNotice
  suffices ∀ (l : List Port) (t : State), ∃ x q,
      l.foldl (fun t p => placeCopy (dateNotice s h) p t) t = (t.setNrt x).setWires { t.wires with qlens := q } from this _ s
  intro l
  induction l with
  | nil => exact fun t => ⟨t.nrt, t.wires.qlens, rfl⟩
  | cons p l ih =>
    intro t
    obtain ⟨x, q, e⟩ := placeCopy_eq (s := t) (n := dateNotice s h) (p := p)
    obtain ⟨y, r, f⟩ := ih (placeCopy (dateNotice s h) p t)
    exact ⟨y, r, by rw [List.foldl_cons, f, e]; rfl⟩

/-- A queue emptied with its marker: what NRT then holds. -/
theorem emptyQueue_nrt {p} :
    (emptyQueue s p).nrt = { s.nrt with queues := put s.nrt.queues p [], lost := put s.nrt.lost p true } := by
  unfold emptyQueue setLost setQueue; dsimp only; split <;> rfl

/-- A queue emptied with its marker: the length 0 is reported, if the queue held a notice, and nothing else is handed. -/
theorem emptyQueue_wires {p} :
    (emptyQueue s p).wires =
      { s.wires with qlens := modAt s.wires.qlens p (· ++ (if s.nrt.queues[p] = [] then [] else [0])) } := by
  unfold emptyQueue setLost setQueue; dsimp only
  by_cases h : s.nrt.queues[p] = []
  · rw [if_pos (by rw [h]), if_pos h]
    simp only [List.append_nil, modAt, Fin.getElem_fin, put_self]
    rfl
  · rw [if_neg (fun k => h (List.length_eq_zero_iff.mp k.symm)), if_neg h]
    rfl

/-- NRT takes its warm start once every notice handed before it began is taken and every port is STOPPED for the time of the warm start. -/
theorem warmStartDue_iff : warmStartDue s = true ↔
    (∀ i : Fin 9, s.wires.noticesBefore[i] = 0) ∧
      ∀ p : Port, (s.ports[p]).link = .stopped ∧ SupplyMsg.complete ∉ s.wires.supply[portIx p] := by
  simp only [warmStartDue, Bool.and_eq_true, List.all_eq_true, List.mem_finRange, true_implies, State.portDown, PortRec.isOpen,
    Vector.mem_toList_iff, Vector.mem_iff_getElem, beq_iff_eq, Fin.getElem_fin]
  refine and_congr ⟨fun h i => h _ ⟨i, i.isLt, rfl⟩, ?_⟩ (forall_congr' fun p => ?_)
  · rintro h x ⟨i, hi, rfl⟩
    exact h ⟨i, hi⟩
  cases (s.ports[p]).link <;> simp [*]

/-- An indication handed to several receivers changes their lists only. -/
theorem handSupplyTo_eq {m} (is : List (Fin 12)) : ∃ x, handSupplyTo is m s = s.setWires { s.wires with supply := x } := by
  unfold handSupplyTo
  induction is generalizing s with
  | nil => exact ⟨s.wires.supply, rfl⟩
  | cons i is ih =>
    obtain ⟨x, e⟩ := ih (s := handSupply i m s)
    exact ⟨x, by rw [List.foldl_cons, e]; rfl⟩

/-- A warm start begins: the notices that wait for NRT are counted, and stay. -/
theorem beginWarmStart_eq {c} : ∃ x, beginWarmStart c s =
    (s.setPwc { s.pwc with phase := .starting, startCause := some c }).setWires
      { s.wires with noticesBefore := mapV List.length s.wires.notices, supply := x } := by
  obtain ⟨x, e⟩ := handSupplyTo_eq (m := .warmStart) warmTakers
    (s := markNotices (s.setPwc { s.pwc with phase := .starting, startCause := some c }))
  exact ⟨x, by rw [beginWarmStart, e]; rfl⟩

/-! ## The order of a RESYNC -/

/-- PSL empties once the book has reported its state emptied. -/
theorem usageEmptyDue_iff : usageEmptyDue s = true ↔ ∃ x, s.ctu.resync = some x ∧ x.rbk = true := by
  simp [usageEmptyDue, Option.any_eq_true]

/-- The book alone waits with a time-set, and only for PSL to take it first. -/
theorem timeSetDue_iff {b} : timeSetDue b s = true ↔ (b = .rbk → s.psl.frozen = false) := by
  cases b <;> simp [timeSetDue]

/-! ## The lines -/

theorem endCycle_of_none {l} (h : configuredAddrs (s.line l) = []) : endCycle l s = goIdle l s := by simp [endCycle, h]

theorem endCycle_of_some {l a as} (h : configuredAddrs (s.line l) = a :: as) : endCycle l s = setPhase l .window s := by
  simp [endCycle, h]

/-- An address that loses its panel: its context is as after power-on, the cycle's rest loses it, and nothing else of the line changes. -/
theorem unconfigure_eq {l a} :
    unconfigure l a s = s.setLine l
      { s.line l with ctx := put (s.line l).ctx a PanelCtx.reset, rest := (s.line l).rest.filter (fun x => x != a) } := rfl

/-! ## The ports -/

/-- What a port's stop leaves are book requests, marked as stopped, and only while the book's own stop is still to come. -/
theorem mem_leftAtStop {hs x} :
    x ∈ leftAtStop s hs ↔
      ∃ h ∈ hs, h.req.isBook = true ∧ SupplyMsg.stop ∈ s.wires.supply[rbkIx] ∧ x = { h with stopped := true } := by
  simp only [leftAtStop, List.mem_map, List.mem_filter, Bool.and_eq_true, List.contains_iff_mem, and_assoc]
  exact ⟨fun ⟨h, a, b, c, d⟩ => ⟨h, a, b, c, d.symm⟩, fun ⟨h, a, b, c, d⟩ => ⟨h, a, b, c, d.symm⟩⟩

theorem leftAtStop_of_no_stop {hs} (h : SupplyMsg.stop ∉ s.wires.supply[rbkIx]) : leftAtStop s hs = [] :=
  List.eq_nil_iff_forall_not_mem.mpr fun _ hx => (mem_leftAtStop.mp hx).elim fun _ y => h y.2.2.1

end Sys2Proof.Machine
end

