-- ==== Sys2Proof/Laws/OuterFrames.lean ====
section
/-! SUPPORT. Which parts the works of the pool selector, the notice router, the ports and the power controller may change. -/

namespace Sys2Proof.Machine

variable {ps : List Part} {s t : State} (hw : Part.wires ∈ ps)

/-! ## The pool selector -/

@[simp] theorem only_readForUsage {r} (hb : Part.book ∈ ps) (hw : Part.wires ∈ ps) : Only ps s (readForUsage t r) ↔ Only ps s t := by
  unfold readForUsage; split_ifs <;> simp [hb, hw]

@[simp] theorem only_countUsage (hp : Part.psl ∈ ps) (hb : Part.book ∈ ps) (hw : Part.wires ∈ ps) :
    Only ps s (countUsage t) ↔ Only ps s t :=
  (only_setPsl hp).trans (only_foldl _ (fun _ _ => only_readForUsage hb hw) _ _)

@[simp] theorem only_pslTick {c} (hp : Part.psl ∈ ps) (hb : Part.book ∈ ps) (hw : Part.wires ∈ ps) :
    Only ps s (pslTick c t) ↔ Only ps s t := by
  unfold pslTick; dsimp only; split_ifs <;> simp [halve, hp, hb, hw]

/-! ## The notice router -/

section
variable (hn : Part.nrt ∈ ps)
include hn

@[simp] theorem only_setLost {p b} : Only ps s (setLost p b t) ↔ Only ps s t := only_setNrt hn

include hw

@[simp] theorem only_setQueue {p q} : Only ps s (setQueue p q t) ↔ Only ps s t := by
  unfold setQueue; dsimp only; split_ifs <;> simp [hn, hw]

@[simp] theorem only_placeCopy {n p} : Only ps s (placeCopy n p t) ↔ Only ps s t := by
  unfold placeCopy; split_ifs <;> simp [hn, hw]

@[simp] theorem only_routeNotice {h} : Only ps s (routeNotice h t) ↔ Only ps s t :=
  only_foldl _ (fun _ _ => only_placeCopy hw hn) _ _

@[simp] theorem only_takeNotice {i} : Only ps s (takeNotice t i) ↔ Only ps s t := by
  unfold takeNotice; split <;> simp [hn, hw]

@[simp] theorem only_noticesInTrim (hc : Part.ctu ∈ ps) : Only ps s (noticesInTrim t) ↔ Only ps s t :=
  (only_foldl _ (fun _ _ => only_takeNotice hw hn) _ _).trans (only_setCtu hc)

@[simp] theorem only_ctuAdvances {n} (hc : Part.ctu ∈ ps) : Only ps s (ctuAdvances n t) ↔ Only ps s t := by
  induction n generalizing t with
  | zero => exact Iff.rfl
  | succ n ih =>
    cases n with
    | zero => exact only_ctuAdvance hw hc
    | succ n => exact ih.trans ((only_noticesInTrim hw hn hc).trans (only_ctuAdvance hw hc))

@[simp] theorem only_trim {q c} (hc : Part.ctu ∈ ps) : Only ps s (trim q c t) ↔ Only ps s t := by
  unfold trim; dsimp only; split_ifs <;> simp [hw, hn, hc]

@[simp] theorem only_emptyQueue {p} : Only ps s (emptyQueue t p) ↔ Only ps s t := by simp [emptyQueue, hn, hw]

end

/-! ## The ports -/

section
variable (hp : Part.ports ∈ ps)
include hp

@[simp] theorem only_clockOut {p x} : Only ps s (clockOut p x t) ↔ Only ps s t := only_setPort hp

@[simp] theorem only_answerItself {p x c} : Only ps s (answerItself p x c t) ↔ Only ps s t := only_setPort hp

include hw

@[simp] theorem only_handRequest {p x r} : Only ps s (handRequest p x r t) ↔ Only ps s t := by simp [handRequest, hp, hw]

@[simp] theorem only_judgeFrame {p x} : Only ps s (judgeFrame p x t) ↔ Only ps s t := by
  unfold judgeFrame; dsimp only
  repeat' split
  all_goals simp [hp, hw]

@[simp] theorem only_portStop {p} : Only ps s (portStop p t) ↔ Only ps s t := by simp [portStop, hp, hw]

@[simp] theorem only_portOpen {p} : Only ps s (portOpen p t) ↔ Only ps s t := by simp [portOpen, hp, hw]

end

/-! ## The power controller -/

section
variable (hp : Part.pwc ∈ ps)
include hp hw

omit hp in
@[simp] theorem only_supplyNotice {x c p} : Only ps s (supplyNotice x c p t) ↔ Only ps s t := only_handNotice hw

@[simp] theorem only_enterState {x c} : Only ps s (enterState x c t) ↔ Only ps s t := by simp [enterState, hp, hw]

@[simp] theorem only_changeState {x c p} : Only ps s (changeState x c p t) ↔ Only ps s t := by simp [changeState, hp, hw]

@[simp] theorem only_pwcTick {c} : Only ps s (pwcTick c t) ↔ Only ps s t := by
  unfold pwcTick; split_ifs <;> simp [hp, hw]

@[simp] theorem only_setPowerWork {q a} : Only ps s (setPowerWork q a t) ↔ Only ps s t := by
  unfold setPowerWork; split
  · simp [hw]
  · split_ifs <;> simp [waitSupply, hp, hw]

@[simp] theorem only_powerFailWork : Only ps s (powerFailWork t) ↔ Only ps s t := by
  unfold powerFailWork handStop; dsimp only; split_ifs <;> simp [hp, hw]

@[simp] theorem only_beginWarmStart {c} : Only ps s (beginWarmStart c t) ↔ Only ps s t := by simp [beginWarmStart, markNotices, hp, hw]

@[simp] theorem only_completeWarmStart {c} : Only ps s (completeWarmStart c t) ↔ Only ps s t := by
  unfold completeWarmStart; dsimp only; split_ifs <;> simp [hp, hw]

end

/-! ## The remaining requests and reactions -/

@[simp] theorem only_wrapRefcount (hc : Part.ctu ∈ ps) : Only ps s (wrapRefcount t) ↔ Only ps s t := only_setCtu hc

@[simp] theorem only_passPeriods {n} (hc : Part.ctu ∈ ps) : Only ps s (passPeriods n t) ↔ Only ps s t := only_setCtu hc

@[simp] theorem only_resyncSetting {r} (hw : Part.wires ∈ ps) (hc : Part.ctu ∈ ps) :
    Only ps s (resyncSetting r t) ↔ Only ps s t := by simp [resyncSetting, hw, hc]

@[simp] theorem only_rztTick {c} (hw : Part.wires ∈ ps) (hr : Part.rzt ∈ ps) : Only ps s (rztTick c t) ↔ Only ps s t := by
  unfold rztTick; dsimp only; split_ifs <;> simp [hr, hw]

@[simp] theorem only_handStop (hw : Part.wires ∈ ps) : Only ps s (handStop t) ↔ Only ps s t := only_handSupplyTo hw

@[simp] theorem only_queryNoticesWork {q a} (hw : Part.wires ∈ ps) : Only ps s (queryNoticesWork q a t) ↔ Only ps s t := only_reply hw

@[simp] theorem only_queryPowerWork {q a} (hw : Part.wires ∈ ps) : Only ps s (queryPowerWork q a t) ↔ Only ps s t := only_reply hw

@[simp] theorem only_setTimeWork {q a} (hw : Part.wires ∈ ps) (hn : Part.nrt ∈ ps) (hp : Part.ctu ∈ ps) :
    Only ps s (setTimeWork q a t) ↔ Only ps s t := by
  unfold setTimeWork; repeat' split
  all_goals simp [hw, hn, hp]

@[simp] theorem only_queryTimeWork {q a} (hw : Part.wires ∈ ps) : Only ps s (queryTimeWork q a t) ↔ Only ps s t := only_reply hw

@[simp] theorem only_resyncWork {q a} (hw : Part.wires ∈ ps) (hp : Part.ctu ∈ ps) :
    Only ps s (resyncWork q a t) ↔ Only ps s t := by
  unfold resyncWork; repeat' split
  all_goals simp [hw, hp]

@[simp] theorem only_stageRoomsWork {q a} (hw : Part.wires ∈ ps) (hp : Part.rzt ∈ ps) :
    Only ps s (stageRoomsWork q a t) ↔ Only ps s t := by
  unfold stageRoomsWork; dsimp only; repeat' split
  all_goals simp [hw, hp]

@[simp] theorem only_stageZonesWork {q a} (hw : Part.wires ∈ ps) (hp : Part.rzt ∈ ps) :
    Only ps s (stageZonesWork q a t) ↔ Only ps s t := by
  unfold stageZonesWork; dsimp only; repeat' split
  all_goals simp [hw, hp]

@[simp] theorem only_stageDiscardWork {q a} (hw : Part.wires ∈ ps) (hp : Part.rzt ∈ ps) :
    Only ps s (stageDiscardWork q a t) ↔ Only ps s t := by
  unfold stageDiscardWork; dsimp only; repeat' split
  all_goals simp [hw, hp]

@[simp] theorem only_queryRoomsWork {q a} (hw : Part.wires ∈ ps) :
    Only ps s (queryRoomsWork q a t) ↔ Only ps s t := by
  unfold queryRoomsWork; dsimp only; repeat' split
  all_goals simp [hw]

@[simp] theorem only_queryZonesWork {q a} (hw : Part.wires ∈ ps) :
    Only ps s (queryZonesWork q a t) ↔ Only ps s t := by
  unfold queryZonesWork; repeat' split
  all_goals simp [hw]

@[simp] theorem only_setLevellingDayWork {q a} (hw : Part.wires ∈ ps) (hp : Part.psl ∈ ps) :
    Only ps s (setLevellingDayWork q a t) ↔ Only ps s t := by
  unfold setLevellingDayWork; dsimp only; repeat' split
  all_goals simp [hw, hp]

@[simp] theorem only_queryUsageWork {q a} (hw : Part.wires ∈ ps) :
    Only ps s (queryUsageWork q a t) ↔ Only ps s t := by
  unfold queryUsageWork; dsimp only; repeat' split
  all_goals simp [hw]

@[simp] theorem only_fetchNoticesWork {q a} (hw : Part.wires ∈ ps) (hp : Part.nrt ∈ ps) :
    Only ps s (fetchNoticesWork q a t) ↔ Only ps s t := by
  unfold fetchNoticesWork; dsimp only; repeat' split
  all_goals simp [hw, hp]

@[simp] theorem only_routeSetWork {q a} (hw : Part.wires ∈ ps) (hp : Part.nrt ∈ ps) :
    Only ps s (routeSetWork q a t) ↔ Only ps s t := by
  unfold routeSetWork; dsimp only; repeat' split
  all_goals simp [hw, hp]

@[simp] theorem only_setQuietWork {q a} (hw : Part.wires ∈ ps) (hp : Part.pwc ∈ ps) :
    Only ps s (setQuietWork q a t) ↔ Only ps s t := by
  unfold setQuietWork; repeat' split
  all_goals simp [hw, hp]

end Sys2Proof.Machine
end

