-- ==== Sys2Proof/Laws/Path.lean ====
section
/-! SUPPORT. Which moves and answers the book–planner path holds, and when a stop ends them (07 R160). -/

namespace Sys2Proof.Machine

variable {s : State} {n : Nat} {o : OrderId}

/-- No move of a number is pending at the book exactly when every exchange of that number is an attach. -/
theorem moveOpen_false : s.moveOpen n = false ↔ ∀ x ∈ s.book.exchanges, x.serial = n → x.move = none := by
  simp [State.moveOpen]

/-- A message is a *moved* answer for an order exactly when it is one. -/
theorem movedOrder_eq {m : PlanMsg} : m.movedOrder = some o ↔ ∃ k b, m = .moveAnswer k b o none := by
  constructor
  · intro h; unfold PlanMsg.movedOrder at h; split at h <;> simp_all
  · rintro ⟨k, b, rfl⟩; rfl

/-- The planner takes no move of an order while a *moved* answer to a completed move of it is still on the path (log 28). -/
theorem moveUnsettled_iff :
    s.moveUnsettled o = true ↔
      ∃ k b, .moveAnswer k b o none ∈ s.wires.toBook ∧ ∀ x ∈ s.book.exchanges, x.serial = k → x.move = none := by
  simp only [State.moveUnsettled, List.any_eq_true, Bool.and_eq_true, decide_eq_true_eq, Bool.not_eq_true']
  constructor
  · rintro ⟨m, hm, h, hs⟩
    obtain ⟨k, b, rfl⟩ := movedOrder_eq.1 h
    exact ⟨k, b, hm, moveOpen_false.1 (by simpa [PlanMsg.moveSerial] using hs)⟩
  · rintro ⟨k, b, hm, hs⟩
    exact ⟨_, hm, rfl, by simpa [PlanMsg.moveSerial] using moveOpen_false.2 hs⟩

/-- A move ends with a stop unless the book has taken its own stop and has the move pending (log 28). -/
theorem moveEnded_iff :
    s.moveEnded n = true ↔ .stop ∈ s.wires.supply[rbkIx] ∨ ∀ x ∈ s.book.exchanges, x.serial = n → x.move = none := by
  rw [← moveOpen_false]; simp [State.moveEnded]

end Sys2Proof.Machine
end

