-- ==== Sys2Proof/Laws/Requests.lean ====
section
/-! SUPPORT. Reading a request frame and writing one agree: what each reader takes, once each (11 R195). -/

namespace Sys2Proof.Machine

/-- A reader takes exactly the fields `f`, and leaves what follows them. -/
def Reader.Exact {α : Type} (r : Reader α) (f : α → List Field) : Prop :=
  ∀ bs x rest, r bs = some (x, rest) ↔ bs = (f x).flatMap Field.octets ++ rest ∧ (f x).all Field.fits = true

theorem r1_exact : Reader.Exact r1 (fun v => [.n1 v]) := by
  intro bs x rest
  cases bs with
  | nil => simp [r1, Field.octets, e1]
  | cons b bs =>
    simp only [r1, Option.some.injEq, Prod.mk.injEq, List.flatMap_cons, List.flatMap_nil, Field.octets, e1, List.append_nil,
      List.cons_append, List.nil_append, List.cons.injEq, List.all_cons, List.all_nil, Field.fits, Bool.and_true, decide_eq_true_eq]
    constructor
    · rintro ⟨rfl, rfl⟩; exact ⟨⟨by simp, rfl⟩, b.isLt⟩
    · rintro ⟨⟨rfl, rfl⟩, h⟩; exact ⟨by simpa using h, rfl⟩

theorem r2_exact : Reader.Exact r2 (fun v => [.n2 v]) := by
  intro bs x rest
  match bs with
  | [] => simp [r2, Field.octets, e2]
  | [b] => simp [r2, Field.octets, e2]
  | a :: b :: bs =>
    simp only [r2, Option.some.injEq, Prod.mk.injEq, List.flatMap_cons, List.flatMap_nil, Field.octets, e2, List.append_nil,
      List.cons_append, List.nil_append, List.cons.injEq, List.all_cons, List.all_nil, Field.fits, Bool.and_true, decide_eq_true_eq]
    have := a.isLt; have := b.isLt
    constructor
    · rintro ⟨rfl, rfl⟩
      refine ⟨⟨?_, ?_, rfl⟩, by omega⟩ <;> apply BitVec.eq_of_toNat_eq <;> simp <;> omega
    · rintro ⟨⟨rfl, rfl, rfl⟩, h⟩; simp; omega

theorem r4_exact : Reader.Exact r4 (fun v => [.n4 v]) := by
  intro bs x rest
  match bs with
  | [] => simp [r4, Field.octets, e4, e2]
  | [b] => simp [r4, Field.octets, e4, e2]
  | [b, c] => simp [r4, Field.octets, e4, e2]
  | [b, c, d] => simp [r4, Field.octets, e4, e2]
  | a :: b :: c :: d :: bs =>
    simp only [r4, Option.some.injEq, Prod.mk.injEq, List.flatMap_cons, List.flatMap_nil, Field.octets, e4, e2, List.append_nil,
      List.cons_append, List.nil_append, List.cons.injEq, List.all_cons, List.all_nil, Field.fits, Bool.and_true, decide_eq_true_eq]
    have := a.isLt; have := b.isLt; have := c.isLt; have := d.isLt
    constructor
    · rintro ⟨rfl, rfl⟩
      refine ⟨⟨?_, ?_, ?_, ?_, rfl⟩, by omega⟩ <;> apply BitVec.eq_of_toNat_eq <;> simp <;> omega
    · rintro ⟨⟨rfl, rfl, rfl, rfl, rfl⟩, h⟩; simp; omega

/-- The signed octet. -/
theorem i1_exact (bs : List Byte) (v : Int) (rest : List Byte) :
    (∃ n, r1 bs = some (n, rest) ∧ (BitVec.ofNat 8 n).toInt = v) ↔
      bs = Field.octets (.i1 v) ++ rest ∧ Field.fits (.i1 v) = true := by
  cases bs with
  | nil => simp [r1, Field.octets, eInt1]
  | cons b bs =>
    simp only [r1, Option.some.injEq, Prod.mk.injEq, Field.octets, eInt1, List.cons_append, List.nil_append, List.cons.injEq,
      Field.fits, Bool.and_eq_true, decide_eq_true_eq]
    constructor
    · rintro ⟨n, ⟨rfl, rfl⟩, rfl⟩
      simp only [BitVec.ofNat_toNat, BitVec.setWidth_eq]
      exact ⟨⟨by simp, trivial⟩, b.le_toInt, b.toInt_lt⟩
    · rintro ⟨⟨rfl, rfl⟩, h⟩
      refine ⟨_, ⟨rfl, rfl⟩, ?_⟩
      simp only [BitVec.ofNat_toNat, BitVec.setWidth_eq, BitVec.toInt_ofInt]
      exact Int.bmod_eq_of_le (by omega) (by omega)

theorem rOpt_exact {r : Reader Nat} {f : Nat → Field} (h : Reader.Exact r (fun v => [f v])) : Reader.Exact (rOpt r) (optField f) := by
  intro bs x rest
  cases bs with
  | nil => cases x <;> simp [rOpt, optField, Field.octets, e1]
  | cons b bs =>
    cases x with
    | none =>
      simp only [rOpt, optField]
      by_cases h0 : b = 0
      · subst h0; simp [Field.octets, e1, Field.fits]
      · by_cases h1 : b = 1
        · subst h1; simp [Field.octets, e1, Field.fits]
        · rw [BitVec.ofNat_eq_ofNat] at h0 h1; simp [h0, h1, Field.octets, e1, Field.fits]
    | some v =>
      have hv := h bs v rest
      simp only [rOpt, optField]
      by_cases h0 : b = 0
      · subst h0; simp [Field.octets, e1, Field.fits]
      · by_cases h1 : b = 1
        · subst h1
          simp [Field.octets, e1, Field.fits] at hv ⊢
          exact hv
        · rw [BitVec.ofNat_eq_ofNat] at h0 h1; simp [h0, h1, Field.octets, e1, Field.fits]

theorem rTimes_exact {α : Type} {r : Reader α} {f : α → List Field} (h : Reader.Exact r f) (n : Nat) (bs : List Byte) (xs : List α)
    (rest : List Byte) :
    rTimes r n bs = some (xs, rest) ↔
      xs.length = n ∧ bs = (xs.flatMap f).flatMap Field.octets ++ rest ∧ (xs.flatMap f).all Field.fits = true := by
  induction n generalizing bs xs with
  | zero =>
    simp only [rTimes, Option.some.injEq, Prod.mk.injEq, List.length_eq_zero_iff]
    constructor
    · rintro ⟨rfl, rfl⟩; simp
    · rintro ⟨rfl, h, -⟩; simpa using h
  | succ n ih =>
    simp only [rTimes, Option.bind_eq_bind, Option.bind_eq_some_iff, Prod.exists, Option.pure_def, Option.some.injEq, Prod.mk.injEq]
    constructor
    · rintro ⟨a, bs', ha, as, bs'', has, rfl, rfl⟩
      obtain ⟨rfl, fa⟩ := (h _ _ _).1 ha
      obtain ⟨rfl, rfl, fas⟩ := (ih _ _).1 has
      exact ⟨by simp, by simp, by rw [List.flatMap_cons, List.all_append, fa, fas]; rfl⟩
    · rintro ⟨hl, rfl, fx⟩
      cases xs with
      | nil => simp at hl
      | cons a as =>
        rw [List.flatMap_cons, List.all_append, Bool.and_eq_true] at fx
        exact ⟨a, _, (h _ _ _).2 ⟨by simp, fx.1⟩, as, rest, (ih _ _).2 ⟨by simpa using hl, rfl, fx.2⟩, rfl, rfl⟩

/-! ## The fields, and the readers of one value -/

@[simp] theorem Field.octets_n1 {v : Nat} : Field.octets (.n1 v) = e1 v := rfl
@[simp] theorem Field.octets_n2 {v : Nat} : Field.octets (.n2 v) = e2 v := rfl
@[simp] theorem Field.octets_n4 {v : Nat} : Field.octets (.n4 v) = e4 v := rfl
@[simp] theorem Field.octets_i1 {v : Int} : Field.octets (.i1 v) = eInt1 v := rfl
@[simp] theorem Field.fits_n1 {v : Nat} : Field.fits (.n1 v) = decide (v < 256) := rfl
@[simp] theorem Field.fits_n2 {v : Nat} : Field.fits (.n2 v) = decide (v < 65536) := rfl
@[simp] theorem Field.fits_n4 {v : Nat} : Field.fits (.n4 v) = decide (v < 4294967296) := rfl
@[simp] theorem Field.fits_i1 {v : Int} : Field.fits (.i1 v) = (decide (-128 ≤ v) && decide (v < 128)) := rfl

theorem r1_iff {bs : List Byte} {v : Nat} {rest : List Byte} :
    r1 bs = some (v, rest) ↔ bs = e1 v ++ rest ∧ v < 256 := by
  simpa using r1_exact bs v rest

theorem r2_iff {bs : List Byte} {v : Nat} {rest : List Byte} :
    r2 bs = some (v, rest) ↔ bs = e2 v ++ rest ∧ v < 65536 := by
  simpa using r2_exact bs v rest

theorem r4_iff {bs : List Byte} {v : Nat} {rest : List Byte} :
    r4 bs = some (v, rest) ↔ bs = e4 v ++ rest ∧ v < 4294967296 := by
  simpa using r4_exact bs v rest

theorem rOpt1_iff {bs : List Byte} {v : Option Nat} {rest : List Byte} :
    rOpt r1 bs = some (v, rest) ↔ bs = (optField .n1 v).flatMap Field.octets ++ rest ∧ (optField .n1 v).all Field.fits = true :=
  rOpt_exact r1_exact bs v rest

theorem rOpt4_iff {bs : List Byte} {v : Option Nat} {rest : List Byte} :
    rOpt r4 bs = some (v, rest) ↔ bs = (optField .n4 v).flatMap Field.octets ++ rest ∧ (optField .n4 v).all Field.fits = true :=
  rOpt_exact r4_exact bs v rest

/-- The parameters end where the frame's do. -/
theorem fin_iff {q x : Request} {bs : List Byte} : fin q bs = some x ↔ bs = [] ∧ x = q := by
  cases bs <;> simp [fin, eq_comm]


/-! ## The records, and lists of them -/

theorem rSpan_exact : Reader.Exact rSpan Span.fields := by
  rintro bs ⟨a, n⟩ rest
  simp [rSpan, Option.bind_eq_some_iff, r1_iff, r4_iff, Span.fields]
  tauto

theorem rTarget_exact : Reader.Exact rTarget TargetParam.fields := by
  rintro bs ⟨a, n⟩ rest
  simp [rTarget, Option.bind_eq_some_iff, r1_iff, TargetParam.fields]
  tauto

theorem rRoomParam_exact : Reader.Exact rRoomParam RoomParam.fields := by
  rintro bs ⟨a, b, c, d, e, f, g⟩ rest
  simp [rRoomParam, Option.bind_eq_some_iff, r1_iff, r2_iff, rOpt1_iff, RoomParam.fields, -List.all_eq_true]
  tauto

theorem rZoneParam_exact : Reader.Exact rZoneParam ZoneParam.fields := by
  rintro bs ⟨a, b, c, d, e, f, g, h, i⟩ rest
  simp [rZoneParam, Option.bind_eq_some_iff, r1_iff, ZoneParam.fields]
  tauto

theorem rKitchenParam_exact : Reader.Exact rKitchenParam KitchenParam.fields := by
  rintro bs ⟨a, b, c, d⟩ rest
  simp [rKitchenParam, Option.bind_eq_some_iff, r1_iff, KitchenParam.fields]
  tauto

theorem rOrderParam_exact : Reader.Exact rOrderParam OrderParam.fields := by
  rintro bs ⟨a, b, c, d, e⟩ rest
  have key (n : Nat) (hn : n < 256) : (BitVec.ofNat 8 n).toInt = d ↔ e1 n = eInt1 d ∧ -128 ≤ d ∧ d < 128 := by
    have h1 : r1 (e1 n) = some (n, []) := by simp [r1_iff, hn]
    have h2 := i1_exact (e1 n) d []
    simpa [h1] using h2
  simp [rOrderParam, Option.bind_eq_some_iff, r1_iff, OrderParam.fields]
  constructor
  · rintro ⟨n, ⟨rfl, ha⟩, hb, hc, hn, he, h⟩
    obtain ⟨h1, h2⟩ := (key n hn).1 h
    rw [h1]; exact ⟨rfl, ha, hb, hc, h2, he⟩
  · rintro ⟨rfl, ha, hb, hc, h2, he⟩
    have hn := (BitVec.ofInt 8 d).isLt
    have h1 : e1 (BitVec.ofInt 8 d).toNat = eInt1 d := by simp only [e1, eInt1, BitVec.ofNat_toNat, BitVec.setWidth_eq]
    exact ⟨_, ⟨by rw [h1], ha⟩, hb, hc, hn, he, (key _ hn).2 ⟨h1, h2⟩⟩

theorem BookingId.word_lt (i : BookingId) : i.word < 65536 := by
  have := i.index.isLt; have := i.gen.isLt; unfold BookingId.word; omega

theorem OrderId.word_lt (i : OrderId) : i.word < 65536 := by
  have := i.index.isLt; have := i.gen.isLt; unfold OrderId.word; omega

theorem rBookingId_exact : Reader.Exact rBookingId (fun i => [.n2 i.word]) := by
  rintro bs i rest
  simp [rBookingId, r2_iff, BookingId.word_lt]
  constructor
  · rintro ⟨w, ⟨rfl, h⟩, rfl⟩
    have : (BookingId.ofWord w).word = w := by simp [BookingId.ofWord, BookingId.word]; omega
    rw [this]
  · rintro rfl
    exact ⟨_, ⟨rfl, i.word_lt⟩, by
      have := i.index.isLt; have := i.gen.isLt
      cases i
      simp only [BookingId.ofWord, BookingId.word, BookingId.mk.injEq, Fin.ext_iff, Fin.val_ofNat] at *; omega⟩

theorem rOrderId_exact : Reader.Exact rOrderId (fun i => [.n2 i.word]) := by
  rintro bs i rest
  simp [rOrderId, r2_iff, OrderId.word_lt]
  constructor
  · rintro ⟨w, ⟨rfl, h⟩, rfl⟩
    have : (OrderId.ofWord w).word = w := by simp [OrderId.ofWord, OrderId.word]; omega
    rw [this]
  · rintro rfl
    exact ⟨_, ⟨rfl, i.word_lt⟩, by
      have := i.index.isLt; have := i.gen.isLt
      cases i
      simp only [OrderId.ofWord, OrderId.word, OrderId.mk.injEq, Fin.ext_iff, Fin.val_ofNat] at *; omega⟩


theorem rRoomParams_iff {bs : List Byte} {n : Nat} {v : List RoomParam} {rest : List Byte} :
    rTimes rRoomParam n bs = some (v, rest) ↔
      v.length = n ∧ bs = (v.flatMap RoomParam.fields).flatMap Field.octets ++ rest ∧
        (v.flatMap RoomParam.fields).all Field.fits = true :=
  rTimes_exact rRoomParam_exact n bs v rest

theorem rZoneParams_iff {bs : List Byte} {n : Nat} {v : List ZoneParam} {rest : List Byte} :
    rTimes rZoneParam n bs = some (v, rest) ↔
      v.length = n ∧ bs = (v.flatMap ZoneParam.fields).flatMap Field.octets ++ rest ∧
        (v.flatMap ZoneParam.fields).all Field.fits = true :=
  rTimes_exact rZoneParam_exact n bs v rest

theorem rKitchenParams_iff {bs : List Byte} {n : Nat} {v : List KitchenParam} {rest : List Byte} :
    rTimes rKitchenParam n bs = some (v, rest) ↔
      v.length = n ∧ bs = (v.flatMap KitchenParam.fields).flatMap Field.octets ++ rest ∧
        (v.flatMap KitchenParam.fields).all Field.fits = true :=
  rTimes_exact rKitchenParam_exact n bs v rest

/-! ## A whole request -/

/-- A kind code gives a request of that kind and no other. -/
theorem readRequest_kind {k : Nat} {bs : List Byte} {q : Request} (h : readRequest k bs = some q) : q.kind = k := by
  unfold readRequest at h
  split at h <;> simp [Option.bind_eq_some_iff, fin_iff] at h <;>
    first
    | (obtain ⟨_, rfl⟩ := h; rfl)
    | (repeat obtain ⟨_, h⟩ := h
       rfl)


/-- The parameters of a request's own kind. -/
theorem readRequest_own {q : Request} {bs : List Byte} :
    readRequest q.kind bs = some q ↔ q.fits = true ∧ bs = q.fields.flatMap Field.octets := by
  cases q <;>
    simp [Request.kind, readRequest, rCounted, Option.bind_eq_some_iff, fin_iff, r1_iff, r2_iff, r4_iff, rOpt1_iff, rOpt4_iff,
      rSpan_exact _ _ _, rTarget_exact _ _ _, rOrderParam_exact _ _ _, rBookingId_exact _ _ _, rOrderId_exact _ _ _, rRoomParams_iff,
      rZoneParams_iff, rKitchenParams_iff, Request.fits, Request.fields, BookingId.word_lt, OrderId.word_lt, -List.all_eq_true]
  all_goals try tauto
  · constructor
    · rintro ⟨a, ⟨rfl, ht⟩, hs, ha, hl, hd, ho, rfl⟩
      have h : (BitVec.ofNat 32 a).toNat = a := by simpa using hl
      rw [h]; exact ⟨⟨ht, hs, ha, hl, hd, ho⟩, rfl⟩
    · rintro ⟨⟨ht, hs, ha, hl, hd, ho⟩, rfl⟩
      exact ⟨_, ⟨rfl, ht⟩, hs, ha, hl, hd, ho, by simp⟩
  · constructor
    · rintro ⟨a, ⟨rfl, ht⟩, hs, ha, hl, hd, rfl⟩
      have h : (BitVec.ofNat 32 a).toNat = a := by simpa using hl
      rw [h]; exact ⟨⟨ht, hs, ha, hl, hd⟩, rfl⟩
    · rintro ⟨⟨ht, hs, ha, hl, hd⟩, rfl⟩
      exact ⟨_, ⟨rfl, ht⟩, hs, ha, hl, hd, by simp⟩

/-- What `readRequest` reads of a kind's parameters: the one request whose fields they are (R195). -/
theorem readRequest_exact {k : Nat} {q : Request} {bs : List Byte} :
    readRequest k bs = some q ↔ q.kind = k ∧ q.fits = true ∧ bs = q.fields.flatMap Field.octets := by
  constructor
  · intro h
    obtain rfl := readRequest_kind h
    exact ⟨rfl, readRequest_own.1 h⟩
  · rintro ⟨rfl, h⟩
    exact readRequest_own.2 h

end Sys2Proof.Machine
end

