-- ==== Sys2Proof/Laws/RoomFrames.lean ====
section
/-! SUPPORT. Which parts the works of the occupancy unit may change. A recomposition may change the book, whose record it reads. -/

namespace Sys2Proof.Machine

variable {ps : List Part} {s t : State} (ho : Part.ocu ∈ ps) (hb : Part.book ∈ ps) (hw : Part.wires ∈ ps)

section
include hb hw

@[simp] theorem only_readForDisplay {r} : Only ps s (readForDisplay r t) ↔ Only ps s t := by
  unfold readForDisplay
  refine only_ite Iff.rfl ?_
  repeat' split
  all_goals simp [hb, hw]

@[simp] theorem only_readForPresence {r} : Only ps s (readForPresence r t) ↔ Only ps s t := by
  unfold readForPresence; dsimp only; split_ifs <;> simp [hb, hw]

@[simp] theorem only_readForGhost {n r} : Only ps s (readForGhost n r t) ↔ Only ps s t := by
  unfold readForGhost; split_ifs <;> simp [hb, hw]

end

section
include ho

@[simp] theorem only_setLastDisplay {r d} : Only ps s (setLastDisplay r d t) ↔ Only ps s t := only_setOcu ho

@[simp] theorem only_clearFeedback {r} : Only ps s (clearFeedback r t) ↔ Only ps s t := only_setOcu ho

@[simp] theorem only_presentNext : Only ps s (presentNext t) ↔ Only ps s t := by
  unfold presentNext; split <;> simp [ho]

@[simp] theorem only_joinOnce {it} : Only ps s (joinOnce it t) ↔ Only ps s t := by
  unfold joinOnce; split_ifs <;> simp [ho]

@[simp] theorem only_withdrawGhost {r} : Only ps s (withdrawGhost r t) ↔ Only ps s t := only_ite (only_setOcu ho) Iff.rfl

@[simp] theorem only_setPresence {r x} : Only ps s (setPresence r x t) ↔ Only ps s t := only_setOcu ho

@[simp] theorem only_forgetPresence : Only ps s (forgetPresence t) ↔ Only ps s t := only_setOcu ho

include hw

@[simp] theorem only_handDisplay {r p d} : Only ps s (handDisplay r p d t) ↔ Only ps s t := by simp [handDisplay, ho, hw]

omit ho in
@[simp] theorem only_verdictFor {it b} : Only ps s (verdictFor it b t) ↔ Only ps s t := by
  unfold verdictFor; split <;> simp [hw]

@[simp] theorem only_joinPanel {it l a} : Only ps s (joinPanel it l a t) ↔ Only ps s t := by
  have h := only_foldl (ps := ps) (s := s) (fun u x => verdictFor x false u) (fun _ _ => only_verdictFor hw)
  unfold joinPanel; dsimp only; split_ifs <;> simp [ho, hw, h]

omit ho in
@[simp] theorem only_issueNotice {r l a c} : Only ps s (issueNotice r l a c t) ↔ Only ps s t := only_handNotice hw

@[simp] theorem only_ocuStop : Only ps s (ocuStop t) ↔ Only ps s t :=
  (only_foldl _ (fun _ _ => only_verdictFor hw) _ _).trans (only_setOcu ho)

include hb

@[simp] theorem only_testPresence {r} : Only ps s (testPresence r t) ↔ Only ps s t := by
  unfold testPresence; dsimp only; split_ifs <;> simp [ho, hb, hw]

@[simp] theorem only_presenceReport {n r x y} : Only ps s (presenceReport n r x y t) ↔ Only ps s t := by
  unfold presenceReport; dsimp only; split_ifs <;> simp [ho, hb, hw]

@[simp] theorem only_ghostCountOne {n r} : Only ps s (ghostCountOne n t r) ↔ Only ps s t := by
  unfold ghostCountOne; dsimp only
  split
  · simp [ho, hb, hw]
  · exact only_ite (by simp [ho, hb, hw]) (by simp [ho, hb, hw])

@[simp] theorem only_recompose {r} : Only ps s (recompose r t) ↔ Only ps s t := by
  unfold recompose; dsimp only
  split
  · split_ifs <;> simp [ho, hb, hw]
  · simp [hb, hw]

@[simp] theorem only_recomposeAll : Only ps s (recomposeAll t) ↔ Only ps s t :=
  only_foldl _ (fun _ _ => only_recompose ho hb hw) _ _

@[simp] theorem only_setFeedback {r f} : Only ps s (setFeedback r f t) ↔ Only ps s t := by simp [setFeedback, ho, hb, hw]

@[simp] theorem only_panelEvent {l a r ev} : Only ps s (panelEvent l a r ev t) ↔ Only ps s t := by
  unfold panelEvent
  repeat' split
  all_goals simp [ho, hb, hw]

@[simp] theorem only_itemAnswered {it o} : Only ps s (itemAnswered it o t) ↔ Only ps s t := by
  unfold itemAnswered
  repeat' split
  all_goals simp [ho, hb, hw]

@[simp] theorem only_ocuBoundary {n} : Only ps s (ocuBoundary n t) ↔ Only ps s t := by
  have h := only_foldl (ps := ps) (s := s) (fun u r => testPresence r u) (fun _ _ => only_testPresence ho hb hw)
  have g := only_foldl (ps := ps) (s := s) (ghostCountOne n) (fun _ _ => only_ghostCountOne ho hb hw)
  unfold ocuBoundary; dsimp only; split_ifs <;> simp [ho, hb, hw, h, g]

@[simp] theorem only_ocuTick {c} : Only ps s (ocuTick c t) ↔ Only ps s t := only_ite (only_ocuBoundary ho hb hw) Iff.rfl

@[simp] theorem only_configRoom {sig r} : Only ps s (configRoom sig t r) ↔ Only ps s t := by
  unfold configRoom; split_ifs <;> simp [ho, hb, hw]

@[simp] theorem only_displayLoss {r} : Only ps s (displayLoss r t) ↔ Only ps s t := by
  unfold displayLoss; dsimp only; split <;> simp [ho, hb, hw]

@[simp] theorem only_ocuWarmStart : Only ps s (ocuWarmStart t) ↔ Only ps s t :=
  (only_foldl _ (fun _ _ => only_recompose ho hb hw) _ _).trans (by simp [ho])

@[simp] theorem only_ocuTimeSet : Only ps s (ocuTimeSet t) ↔ Only ps s t := by simp [ocuTimeSet, ho, hb, hw]

@[simp] theorem only_flushItem {it} : Only ps s (flushItem t it) ↔ Only ps s t := by
  unfold flushItem; split <;> simp [ho, hb, hw]

@[simp] theorem only_ocuExpiry : Only ps s (ocuExpiry t) ↔ Only ps s t :=
  (only_recomposeAll ho hb hw).trans ((only_foldl _ (fun _ _ => only_flushItem ho hb hw) _ _).trans (only_setOcu ho))

end

end Sys2Proof.Machine
end

