-- ==== Sys2Proof/WellFormed.lean ====
section
/-! DEFINITION. Which commands are well formed: the checks on operands that their types do not make. -/

namespace Sys2Proof

/-- A STATUS transaction is one whose code is neither REQUEST nor RESPONSE (09 R177, 11). -/
def isStatusCode (code : Byte) : Bool := code != 1 && code != 2

/-- A panel frame has at most 4 octets of head, 255 of payload and two of CRC (11 R198). -/
def isFrameLength (octets : List Byte) : Bool := octets.length ≤ 261

/-- The checks: a STATUS transaction carries a status code; a frame from a line is no longer than a frame can be; the time said to
have passed before a cycle stays within a reference minute, since its end is a step of its own (01 R2, log 5). -/
def Instr.wellFormed : Instr → Bool
  | .statusTransaction _ code => isStatusCode code
  | .goodStatus _ octets => isFrameLength octets
  | .frameError _ octets => isFrameLength octets
  | .cycleStart _ elapsed => elapsed < Config.refMinute
  | _ => true

end Sys2Proof
end

