-- ==== Sys2Proof/Tests/Slice0.lean ====
section
/-! SUPPORT. Tests: what WellFormed refuses, the manual's worked figures, and for each obligation a witness that meets its hypotheses. -/

namespace Sys2Proof.Tests

open Sys2Proof Sys2Proof.Machine

-- One check at a time: each holds a stack of its own.
set_option Elab.async false

/-! ## Ill-formed commands -/

theorem test_status_with_request_code_is_ill_formed : (Instr.statusTransaction 0 1#8).wellFormed = false := by decide
theorem test_long_good_frame_is_ill_formed : (Instr.goodStatus 0 (List.replicate 262 0#8)).wellFormed = false := by decide +kernel
theorem test_long_bad_frame_is_ill_formed : (Instr.frameError 0 (List.replicate 262 0#8)).wellFormed = false := by decide +kernel
theorem test_whole_minute_before_a_cycle_is_ill_formed : (Instr.cycleStart 0 1966080).wellFormed = false := by decide
theorem test_short_wait_before_a_cycle_is_well_formed : (Instr.cycleStart 0 1966079).wellFormed = true := by decide
theorem test_no_word_spells_a_command : decodeTableWord 8 1 = none := by decide

/-! ## Small states -/

/-- The state after a command, itself when it does not go on. -/
def after (c : Instr) (s : State) : State := match exec c s with
  | .next t => t
  | _ => s

def hand (p : Port) (q : Request) : HandedRequest := ⟨q, 1, (State.reset.ports[p]).role, false⟩

/-- A request handed by port `p` and not yet taken. -/
def asked (p : Port) (q : Request) (s : State) : State :=
  s.setWires { s.wires with requests := put s.wires.requests p [hand p q] }

/-- That request waits alone, for an owner. -/
abbrev Waits (s : State) (p : Port) (q : Request) : Prop := s.asks p (hand p q) []

/-- That request waits alone and the book grants its port. -/
abbrev BookWaits (s : State) (p : Port) (q : Request) : Prop := s.bookAsks p (hand p q) []

/-- The first answer on its way to a port. -/
def answered (p : Port) (s : State) : Option (Code × List Byte) := (s.wires.answers[p]).head?.map (fun a => (a.code, a.payload))

/-- The code answered to a request handed by `p`. -/
def codeOf (p : Port) (q : Request) (c : Instr) (s : State) : Option Code := (answered p (after c (asked p q s))).map Prod.fst

def roomA : RoomRec :=
  { cap := 10, bldg := 1, panel := some ⟨0, 5⟩, k1 := some 0, k2 := some 1, travel := #v[1, 1, 0, 0], label := 100 }

/-- Rooms 0 and 1 form a pool, room 2 and the rest a named zone. -/
def campZones : ZoneTable :=
  { ZoneTable.reset with
    b1 := 2
    attrs := put (put (Vector.replicate 5 ZoneAttr.reset) 0
      { ZoneAttr.reset with kind := .pooled, h := 2, presenceCheckin := true, w := 3 }) 1
      { ZoneAttr.reset with bookers := ⟨true, true, true⟩ } }

def campRooms : Vector RoomRec 128 :=
  put (put (put (Vector.replicate 128 RoomRec.reset) 0 roomA) 1 { roomA with cap := 6, panel := none, k2 := none }) 2
    { roomA with cap := 12, panel := some ⟨1, 0⟩ }

/-- The clock runs at day 10, 09:00; two kitchens are on; the panel of room 0 is ONLINE and that of room 2 OFFLINE. -/
def camp : State :=
  { State.reset with
    times := Vector.replicate 6 ⟨⟨10, 540⟩, .set⟩
    ctu := { Ctu.reset with cstate := .running, clock := ⟨10, 540⟩ }
    rzt := { Rzt.reset with rooms := campRooms, zones := campZones }
    book := { Book.reset with boundaryRooms := campRooms, boundaryZones := campZones }
    lines := put (put (Vector.replicate 4 LineUnit.reset) 0
        { LineUnit.reset with
          ctx := put (Vector.replicate 32 PanelCtx.reset) 5 { PanelCtx.reset with pstate := .online, room := some 0 } }) 1
        { LineUnit.reset with
          ctx := put (Vector.replicate 32 PanelCtx.reset) 0 { PanelCtx.reset with pstate := .offline, room := some 2 } }
    kpl := { Kpl.reset with kitchens := put (put (Vector.replicate 4 KitchenRec.reset) 0 ⟨20, 4, 2, true⟩) 1 ⟨10, 4, 2, true⟩ } }

/-- A meeting of port 0 in room 0. -/
def meeting (st : BState) (start len : Nat) : Body :=
  { Body.blank with
    state := st, room := 0, span := ⟨start, len⟩, owner := .port 0, organiser := some 7#32, display := some 1, attendees := some 4 }

/-- Record 3 holds that meeting. -/
def met (b : Body) (s : State) : State := allocate 3 b s

/-- Its handle. -/
def id3 : BookingId := ⟨3, 0⟩

/-- The link part of record 3 changed. -/
def linked (f : BookRec → BookRec) (s : State) : State := setRec 3 (f (s.bookRec 3)) s

/-- An order of port 0 for room 0, live at index 4. -/
def orderOf (st : OState) (delivery : Int) (contribs : List (Nat × Nat)) : OrderRec :=
  { OrderRec.blank 0 with
    live := true, state := st, booking := some id3, room := 0, kitchen := some 0, covers := 5, units := 5, delivery := delivery,
    deliveryBucket := delivery / 15, departure := some 1005, contribs := contribs }

def id4 : OrderId := ⟨4, 0⟩

def ordered (o : OrderRec) (s : State) : State := addLoads o.kitchen o.contribs (setOrder 4 o s)

/-- A time message at the head of a block's list. -/
def timed (b : TimedBlock) (m : TimeMsg) (s : State) : State := handTime b m s

/-- A supply message at the head of a receiver's list. -/
def supplied (i : Fin 12) (m : SupplyMsg) (s : State) : State := handSupply i m s

/-! ## The manual's worked figures -/

/-- The CONFIRM frame of 11, Worked figures, and one with its check byte wrong. -/
theorem test_worked_confirm_frame :
    readFrame [6#8, 41#8, 12#8, 0x00#8, 0xE0#8, 229#8] = some (.confirm ⟨7, 0⟩) ∧
      readFrame [6#8, 41#8, 12#8, 0x00#8, 0xE0#8, 228#8] = none := by decide

/-- The status words of 11, Worked figures: IDLE and READY of a GATEWAY. -/
theorem test_worked_status_words :
    statusWord (PortRec.reset .gateway) = [0x00#8, 0x00#8] ∧
      statusWord { PortRec.reset .gateway with state := .ready } = [0x80#8, 0x00#8] := by decide

/-- The pool of 04, Worked cases, under a weight: zone 2 is rooms 8..13. -/
def pool (w usage13 : Nat) : State :=
  let room (n : Nat) : RoomRec := { RoomRec.reset with cap := n }
  let zone : ZoneAttr := { ZoneAttr.reset with kind := .pooled, w := w }
  let early : Entry := { start := 5874, stop := 5882, index := 9, owner := .port 0, summary := .confirmed }
  { State.reset with
    rzt := { Rzt.reset with
      rooms := put (put (put (put (put (put (Vector.replicate 128 RoomRec.reset) 8 (room 10)) 9 (room 8)) 10 (room 4)) 11 (room 6)) 12
        (room 10)) 13 (room 14)
      zones := { ZoneTable.reset with b1 := 8, b2 := 8, b3 := 14, attrs := put (Vector.replicate 5 ZoneAttr.reset) 2 zone } }
    book := { Book.reset with schedules := put (Vector.replicate 128 []) 8 [early] }
    psl := { Psl.reset with
      usage := put (put (put (put (put (put (Vector.replicate 128 0) 8 80) 9 120) 10 40) 11 125) 12 100) 13 usage13 } }

/-- 04, A pool hold and The same zone under other weights. -/
theorem test_worked_pool_choices :
    choose (pool 4 90) ⟨2, ⟨5880, 6⟩, 6, none⟩ = some (12, 116) ∧ choose (pool 0 90) ⟨2, ⟨5880, 6⟩, 6, none⟩ = some (13, 90) ∧
      choose (pool 15 90) ⟨2, ⟨5880, 6⟩, 6, none⟩ = some (11, 125) := by decide +kernel

/-- 04, A tie. -/
theorem test_worked_pool_tie : choose (pool 0 100) ⟨2, ⟨5880, 6⟩, 6, none⟩ = some (12, 100) := by decide +kernel

/-- Kitchen 1 of 07, Worked case: one kitchen through three orders, at day 3, 10:00, with room 21. -/
def kitchenOne (now : Nat) (l43 l44 l45 l46 : Nat) : State :=
  let map := put (put (put (put (Vector.replicate 192 0) 43 l43) 44 l44) 45 l45) 46 l46
  { State.reset with
    times := Vector.replicate 6 ⟨⟨3, now⟩, .set⟩
    rzt := { Rzt.reset with
      rooms := put (Vector.replicate 128 RoomRec.reset) 21 { RoomRec.reset with cap := 40, k1 := some 1, travel := #v[0, 1, 0, 0] } }
    kpl := { Kpl.reset with
      kitchens := put (Vector.replicate 4 KitchenRec.reset) 1 ⟨40, 4, 2, true⟩
      maps := put (Vector.replicate 4 (Vector.replicate 192 0)) 1 map } }

/-- Order X: 60 units for 3/12:00 in buckets 43, 44 and 46 of day 3. -/
theorem test_worked_order_x :
    trial (kitchenOne 600 0 10 40 25) 21 60 5040 1 = .ok ⟨1, 335, [(331, 15), (332, 30), (334, 15)]⟩ := by decide +kernel

/-- Order Z: 300 units do not fit what X and Y left; and a delivery that leaves no bucket is TOO_SOON at 11:40. -/
theorem test_worked_orders_refused :
    trial (kitchenOne 600 35 40 40 40) 21 300 5040 1 = .error .kitchenFull ∧
      trial (kitchenOne 700 0 0 0 0) 21 4 5040 1 = .error .tooSoon := by decide +kernel

/-- The clock of 01, Worked sequence, just before the trims. -/
def trimmed (day minute : Nat) (c : CState) (slew : Nat) (d m : Nat) : State :=
  after (.setTime 3) (asked 3 (.setTime d m)
    { State.reset with ctu := { Ctu.reset with cstate := c, clock := ⟨day, minute⟩, slew := slew } })

/-- SET_TIME 58/00:04 at 57/23:58 steps forward by six ticks, the second of them the rollover; the last minute before it alone. -/
theorem test_worked_forward_trim :
    ticks ⟨57, 1438⟩ 6 =
        [.tick ⟨57, 1439⟩, .tick ⟨58, 0⟩, .tick ⟨58, 1⟩, .tick ⟨58, 2⟩, .tick ⟨58, 3⟩, .tick ⟨58, 4⟩] ∧
      (trimmed 57 1439 .running 0 58 0).ctu.clock = ⟨58, 0⟩ ∧
      (trimmed 57 1439 .running 0 58 0).wires.time[blockIx .kpl] = [.tick ⟨58, 0⟩] := by decide +kernel

/-- A step of 12 minutes is refused; a trim of −4 slews, and one of −2 replaces the 3 that remain. -/
theorem test_worked_other_trims :
    answered 3 (trimmed 58 4 .running 0 58 16) = some (.stepTooLarge, eClock ⟨58, 4⟩ ++ e1 1 ++ e1 0) ∧
      (trimmed 58 6 .running 0 58 2).ctu.slew = 4 ∧ (trimmed 58 6 .slewing 3 58 4).ctu.slew = 2 := by decide +kernel

/-! ## Witnesses: states and operands that meet the hypotheses of each obligation, clause by clause

Each is named for its obligation. A statement whose clauses have hypotheses of their own has one conjunct for each. -/

theorem witness_StepRunsTheFrontCommandOrIdles :
    { camp with pending := [.warmReset] }.pending = .warmReset :: [] ∧ (camp.pending = [] ∧ camp.ctu.refcount + 1 < 1966080) ∧
      1966080 ≤ (camp.setCtu { camp.ctu with refcount := 1966079 }).ctu.refcount + 1 := by decide

theorem witness_PowerOnResetStartsThePart :
    (∀ s0 s1 s2 s3 f, Instr.warmReset ≠ .powerOnReset s0 s1 s2 s3 f) ∧ exec .warmReset camp = .next (after .warmReset camp) :=
  ⟨fun _ _ _ _ _ h => (by cases h), rfl⟩

theorem witness_StepKeepsSupplyAndPortsLegal :
    (SupplyLegal { camp with pending := [.warmReset] } ∧ PortsLegal { camp with pending := [.warmReset] }) ∧
      step { camp with pending := [.warmReset] } = .next (after .warmReset camp) :=
  ⟨by decide +kernel, rfl⟩

theorem witness_StepKeepsClockAndZonesLegal :
    (ClockLegal { camp with pending := [.referenceMinuteExpiry] } ∧ ZonesLegal { camp with pending := [.referenceMinuteExpiry] }) ∧
      step { camp with pending := [.referenceMinuteExpiry] } = .next (after .referenceMinuteExpiry camp) :=
  ⟨by decide +kernel, rfl⟩

/-- A queue of 32 notices and a full EVBUF, at the bounds. -/
def full : State :=
  let n : Notice := { kind := .supply, date := ⟨0, 0⟩, booking := none, order := none, room := none, panel := none, detail := 0 }
  let c := { camp.ctx 0 5 with missed := 2, evbuf := [⟨1, .checkIn⟩, ⟨2, .endNow⟩, ⟨3, .void⟩, ⟨4, .checkIn⟩] }
  let s := camp.setNrt { camp.nrt with queues := put camp.nrt.queues 1 (List.replicate 32 n) }
  let s := s.setPsl { s.psl with usage := put s.psl.usage 0 65535 }
  s.setLine 0 { s.line 0 with ctx := put (s.line 0).ctx 5 c }

theorem witness_StepKeepsQueuesUsageAndPanelsLegal :
    (QueuesLegal full ∧ UsageLegal full ∧ PanelsLegal full) ∧ step full = .next (onePeriod full) :=
  ⟨by decide +kernel, rfl⟩

theorem witness_StepKeepsSchedulesOrdered :
    SchedulesOrdered (allocate 4 (meeting .held 2980 2) (met (meeting .confirmed 2990 4) camp)) ∧
      step (met (meeting .confirmed 2990 4) camp) = .next (onePeriod (met (meeting .confirmed 2990 4) camp)) :=
  ⟨by decide +kernel, rfl⟩

/-- A PRESENCE item presented and a GHOST item behind it, both of room 0. -/
def queued : State :=
  camp.setOcu { camp.ocu with
    presented := some (plainItem .presence 0 .panelCheckin), queue := [plainItem .ghost 0 .ghostRelease] }

theorem witness_StepKeepsItemsApart : ItemsApart queued ∧ step queued = .next (onePeriod queued) :=
  ⟨by simp [ItemsApart, allItems, queued, State.setOcu, Item.clash, plainItem], rfl⟩

/-- The CTU in a state and at a time. -/
def at_ (c : CState) (day minute slew : Nat) : State :=
  camp.setCtu { camp.ctu with cstate := c, clock := ⟨day, minute⟩, slew := slew }

theorem witness_ReferenceMinuteExpiryByCState :
    (camp.setCtu { camp.ctu with resync := some ⟨3, 1, ⟨60000, 1439⟩, false, false, false⟩ }).ctu.resync.isSome = true ∧
      ((at_ .unset 0 0 0).ctu.resync = none ∧ (at_ .unset 0 0 0).ctu.cstate = .unset) ∧
      ((at_ .running 65535 1439 0).ctu.clock = ⟨65535, 1439⟩) ∧
      ((at_ .running 65535 1438 0).ctu.clock ≠ ⟨65535, 1439⟩ ∧ (at_ .running 65535 1438 0).ctu.clock.minute ≠ 1439) ∧
      ((at_ .running 9 1439 0).ctu.clock ≠ ⟨65535, 1439⟩ ∧ (at_ .running 9 1439 0).ctu.clock.minute = 1439) ∧
      (at_ .slewing 9 0 1).ctu.cstate = .slewing := by decide

theorem witness_SetTimeSetsOrTrims :
    Waits (asked 3 (.setTime 60001 0) camp) 3 (.setTime 60001 0) ∧ Waits (asked 3 (.setTime 0 1440) camp) 3 (.setTime 0 1440) ∧
      Waits (asked 3 (.setTime 60000 1439) State.reset) 3 (.setTime 60000 1439) ∧ State.reset.ctu.cstate = .unset ∧
      (camp.ctu.cstate ≠ .unset ∧ camp.ctu.resync = none ∧ ClockLegal camp ∧ camp.ctu.clock.day * 1440 + camp.ctu.clock.minute = 14940) ∧
      Waits (asked 3 (.setTime 10 551) camp) 3 (.setTime 10 551) ∧ 14940 + 10 < 10 * 1440 + 551 ∧
      Waits (asked 3 (.setTime 10 550) camp) 3 (.setTime 10 550) ∧ 10 * 1440 + 550 ≤ 14940 + 10 ∧
      Waits (asked 3 (.setTime 10 541) camp) 3 (.setTime 10 541) ∧ 10 * 1440 + 541 = 14940 + 1 ∧
      Waits (asked 3 (.setTime 10 542) camp) 3 (.setTime 10 542) ∧ 10 * 1440 + 542 = 14940 + 2 ∧
      Waits (asked 3 (.setTime 10 540) camp) 3 (.setTime 10 540) ∧
      Waits (asked 3 (.setTime 10 530) camp) 3 (.setTime 10 530) ∧ 14940 ≤ 10 * 1440 + 530 + 10 ∧
      (let w (n : Nat) : TimeWait := ⟨3, 1, true, #v[0, 0, n, 0, 0, 0]⟩;
        let s := camp.setCtu { camp.ctu with waits := [w 0, w 1] };
        answered 3 (settleTime s) = some (.ok, ctuPayload camp.ctu) ∧ (settleTime s).ctu.waits = [w 1] ∧
          (popTime .psl s).ctu.waits = [w 0, w 0]) := by decide +kernel

theorem witness_ResyncEmptiesTheOwnersThenSets :
    Waits (asked 3 (.resync 60001 0) camp) 3 (.resync 60001 0) ∧ Waits (asked 3 (.resync 60000 1439) camp) 3 (.resync 60000 1439) ∧
      (camp.setCtu { camp.ctu with resync := some ⟨3, 1, ⟨7, 0⟩, true, true, true⟩ }).ctu.resync = some ⟨3, 1, ⟨7, 0⟩, true, true, true⟩ ∧
      (timed .rbk .empty camp).timeHead .rbk = some .empty ∧ (timed .kpl .empty camp).timeHead .kpl = some .empty ∧
      (let during (told : Bool) := timed .psl .empty (camp.setCtu { camp.ctu with resync := some ⟨3, 1, ⟨7, 0⟩, told, false, false⟩ });
        (during true).timeHead .psl = some .empty ∧ (during false).timeHead .psl = some .empty ∧
          (after .usageEmpty (during true)).psl.frozen = true ∧ (after .usageEmpty (during false)).psl.frozen = false) ∧
      (after .bookEmpty (timed .rbk .empty (met (meeting .confirmed 2990 4) camp))).wires.sched = [0, 0] ∧
      (after .resyncComplete (camp.setCtu { camp.ctu with resync := some ⟨3, 1, ⟨7, 0⟩, true, true, true⟩ })).ctu.clock = ⟨7, 0⟩ ∧
      (let s := timed .rbk .empty (handPlanner (.bookingLeft id3 ⟨4, 0⟩) camp);
        (after .bookEmpty s).wires.toPlanner = [.bookingLeft id3 ⟨4, 0⟩] ∧
          (after .bookEmpty (s.setKpl { s.kpl with frozen := true })).wires.toPlanner = []) ∧
      answered 3 (settleTime (camp.setCtu { camp.ctu with waits := [⟨3, 1, false, Vector.replicate 6 0⟩] })) = some (.ok, []) := by
  decide +kernel

theorem witness_TimeSetAndExpiryAreTaken :
    (timed .ocu (.timeSet ⟨7, 0⟩) camp).timeHead .ocu = some (.timeSet ⟨7, 0⟩) ∧ (timed .ocu .expiry camp).timeHead .ocu = some .expiry ∧
      (after (.timeSet .rzt) (timed .rzt (.timeSet ⟨7, 0⟩) camp)).timeOf .rzt = ⟨⟨7, 0⟩, .set⟩ ∧
      (after (.expiryIndication .rzt) (timed .rzt .expiry camp)).timeOf .rzt = ⟨⟨10, 540⟩, .expired⟩ ∧
      (let s := (camp.setPsl { camp.psl with frozen := true }).setBook { camp.book with frozen := true };
        (after (.timeSet .psl) (timed .psl (.timeSet ⟨7, 0⟩) s)).psl.frozen = false ∧ s.psl.frozen = true ∧ camp.psl.frozen = false ∧
          (timed .rbk (.timeSet ⟨7, 0⟩) s).timeHead .rbk = some (.timeSet ⟨7, 0⟩) ∧
          (after (.timeSet .rbk) (timed .rbk (.timeSet ⟨7, 0⟩) s)).book.frozen = true ∧
          (after (.timeSet .rbk) (timed .rbk (.timeSet ⟨7, 0⟩) (s.setPsl camp.psl))).book.frozen = false) ∧
      (let it : Item := { plainItem .panel 0 .endNow with source := some ⟨0, 5, 2, .endNow⟩ };
        let t := after (.expiryIndication .ocu) (timed .ocu .expiry (camp.setOcu { camp.ocu with queue := [it] }));
        t.ocu.feedback[(0 : Room)] = some (.notAvailable, 2990) ∧ t.ocu.feedback[(1 : Room)] = none ∧
          (5, .verdict 2 true) ∈ t.wires.toLine[(0 : Line)]) := by decide +kernel

/-- Two room records that name the panel of line 0, address 5, and one that does not. -/
def recP : RoomParam := ⟨8, 1, some 5, none, none, 0, 7⟩
def recQ : RoomParam := ⟨8, 1, none, none, none, 0, 7⟩
def recOf (p : Option PanelAddr) : RoomRec := ⟨8, 1, p, none, none, #v[0, 0, 0, 0], 7⟩
def zoneP : ZoneParam := ⟨0, 3, 2, 2, 0, 1, 0, 0, 0⟩

theorem witness_StagingWritesTheStagedCopies :
    let five := List.replicate 5 zoneP
    (Waits (asked 3 (.stageRooms 0 [recP, recP] 1) camp) 3 (.stageRooms 0 [recP, recP] 1) ∧
        [recP, recP].map RoomParam.judge = [recOf (some ⟨0, 5⟩), recOf (some ⟨0, 5⟩)].map some ∧ camp.clockSet .rzt = true ∧
        panelConflict (writeFrom camp.rzt.stagedRooms 0 [recOf (some ⟨0, 5⟩), recOf (some ⟨0, 5⟩)]) [0, 1] = some (0, 1)) ∧
      (Waits (asked 3 (.stageRooms 127 [recQ] 0) camp) 3 (.stageRooms 127 [recQ] 0) ∧
        [recQ].map RoomParam.judge = [recOf none].map some ∧ panelConflict (writeFrom camp.rzt.stagedRooms 127 [recOf none]) [127] = none) ∧
      (codeOf 3 (.stageRooms 0 [recQ] 1) (.stageRooms 3) State.reset = some .clockUnset ∧
        codeOf 3 (.stageRooms 127 [recQ, recQ] 2) (.stageRooms 3) camp = some .badParam ∧
        codeOf 3 (.stageRooms 0 [{ recQ with bldg := 16 }] 2) (.stageRooms 3) camp = some .badParam ∧
        codeOf 3 (.stageRooms 0 [recQ] 3) (.stageRooms 3) camp = some .badParam) ∧
      (five.map ZoneParam.judge = (List.replicate 5 (clampZone zoneP .pooled)).map some ∧
        (Vector.replicate 5 (clampZone zoneP .pooled).1).toList = (List.replicate 5 (clampZone zoneP .pooled)).map Prod.fst) ∧
      codeOf 3 (.stageZones 129 129 129 129 five 2) (.stageZones 3) camp = some .badParam ∧
      codeOf 3 (.stageZones 9 8 128 128 five 2) (.stageZones 3) camp = some .stageInvalid ∧
      codeOf 3 (.stageZones 8 8 128 128 five 2) (.stageZones 3) camp = some .ok ∧
      codeOf 3 (.stageZones 8 8 128 128 five 0) (.stageZones 3) camp = some .badParam ∧
      codeOf 3 (.stageZones 8 8 128 128 five 1) (.stageZones 3) State.reset = some .clockUnset ∧
      [KitchenParam.mk 255 8 12 1].map KitchenParam.judge = [(KitchenRec.mk 255 8 6 true, 1)].map some ∧
      codeOf 2 (.stageKitchen 3 [⟨255, 8, 12, 1⟩] 2) (.stageKitchen 2) camp = some .ok ∧
      codeOf 2 (.stageKitchen 3 [⟨255, 8, 12, 1⟩] 0) (.stageKitchen 2) camp = some .ok ∧
      codeOf 2 (.stageKitchen 3 [⟨255, 8, 12, 1⟩] 1) (.stageKitchen 2) State.reset = some .clockUnset ∧
      codeOf 2 (.stageKitchen 3 [⟨255, 8, 12, 2⟩] 0) (.stageKitchen 2) camp = some .badParam := by decide +kernel

/-- 02 R27: the clamps of E 7, G 0, H 1 and W 16. -/
theorem test_zone_attributes_are_clamped :
    ZoneParam.judge ⟨0, 3, 7, 0, 1, 1, 0, 0, 16⟩ = some (⟨.pooled, ⟨true, true, false⟩, 6, 1, 2, true, false, false, 15⟩, 4) := by decide

theorem witness_StageDiscardDoesR32 :
    Waits (asked 3 (.stageDiscard 3) camp) 3 (.stageDiscard 3) ∧ Waits (asked 3 (.stageDiscard 2) camp) 3 (.stageDiscard 2) := by
  decide +kernel

/-- Room 1 staged with CAP 7 under ROLLOVER. -/
def restaged : State :=
  camp.setRzt { camp.rzt with
    stagedRooms := put camp.rzt.rooms 1 { camp.roomRec 1 with cap := 7 }, stagedZones := camp.rzt.zones, roomMethod := .rollover }

theorem witness_StagedTablesBecomeActive :
    (applySignal true false restaged).changed = [1] ∧ (applySignal false true restaged).changed = [] ∧
      Waits (asked 3 (.apply 4) restaged) 3 (.apply 4) ∧ Waits (asked 3 (.apply 3) restaged) 3 (.apply 3) ∧
      Waits (asked 3 (.apply 2) restaged) 3 (.apply 2) ∧ (timed .rzt (.tick ⟨11, 0⟩) restaged).timeHead .rzt = some (.tick ⟨11, 0⟩) ∧
      (let s := camp.setKpl { camp.kpl with staged := put camp.kpl.kitchens 0 ⟨4, 4, 2, true⟩ };
        changedKitchens s = [0] ∧ (addLoads (some 0) [(1006, 5)] s).load 0 1006 = 5 ∧
          ((kitchenApply 10 996 (addLoads (some 0) [(1006, 5)] s)).wires.notices[producerIx .kpl].map (fun n => n.note.detail)) =
            [detail2 0 46]) ∧
      restaged.rzt.roomMethod = .rollover ∧ (timed .rzt (.tick ⟨11, 1⟩) restaged).timeHead .rzt = some (.tick ⟨11, 1⟩) ∧
      (let w (n : Nat) : ConfigWait := ⟨3, 1, [7#8], #v[0, 0, 0, 0, 0, n]⟩;
        let s := camp.setRzt { camp.rzt with waits := [w 0, w 1] };
        answered 3 (settleConfig s) = some (.ok, [7#8]) ∧ (settleConfig s).rzt.waits = [w 1] ∧ (popConfig 5 s).rzt.waits = [w 0, w 0]) := by
  decide +kernel

theorem witness_QueriesAnswerAndChangeNothing :
    (codeOf 0 .queryTime (.queryTime 0) camp = some .ok ∧ codeOf 0 (.queryRooms 1 127 1) (.queryRooms 0) camp = some .ok ∧
        codeOf 0 (.queryZones 1) (.queryZones 0) camp = some .ok ∧ codeOf 0 (.queryUsage 96 32) (.queryUsage 0) camp = some .ok ∧
        codeOf 0 (.queryLine 3) (.queryLine 0) camp = some .ok ∧ codeOf 0 (.queryKitchen 3 160 32) (.queryKitchen 0) camp = some .ok ∧
        NamedOrder (ordered (orderOf .placed 15000 [(1000, 5)]) camp) id4 (orderOf .placed 15000 [(1000, 5)]) ∧
        codeOf 0 .queryNotices (.queryNotices 0) camp = some .ok ∧ codeOf 0 .queryPower (.queryPower 0) camp = some .ok) ∧
      codeOf 0 (.queryRooms 2 0 1) (.queryRooms 0) camp = some .badParam ∧
      codeOf 0 (.queryRooms 1 127 2) (.queryRooms 0) camp = some .badParam ∧
      codeOf 0 (.queryZones 2) (.queryZones 0) camp = some .badParam ∧
      codeOf 0 (.queryUsage 97 32) (.queryUsage 0) camp = some .badParam ∧
      codeOf 0 (.queryLine 4) (.queryLine 0) camp = some .badParam ∧
      codeOf 0 (.queryKitchen 4 0 1) (.queryKitchen 0) camp = some .badParam ∧ resolveOrder ⟨4, 1⟩ camp = none ∧
      codeOf 0 (.queryOrder ⟨4, 1⟩) (.queryOrder 0) camp = some .unknown := by decide +kernel

theorem witness_SettingsReplaceTheirValues :
    codeOf 3 (.setQuiet 1440 0 0) (.setQuiet 3) camp = some .badParam ∧ codeOf 3 (.setQuiet 5 5 1) (.setQuiet 3) camp = some .badParam ∧
      codeOf 3 (.setQuiet 1439 0 1) (.setQuiet 3) camp = some .ok ∧
      codeOf 3 (.setLevellingDay 7) (.setLevellingDay 3) camp = some .badParam ∧
      codeOf 3 (.setLevellingDay 6) (.setLevellingDay 3) camp = some .ok ∧
      codeOf 3 (.routeSet 16 0 0 0 0) (.routeSet 3) camp = some .badParam ∧
      codeOf 3 (.routeSet 15 28 31 15 1) (.routeSet 3) camp = some .badParam ∧
      codeOf 3 (.routeSet 15 27 31 15 1) (.routeSet 3) camp = some .ok ∧
      codeOf 3 (.routeSet 15 255 31 15 1) (.routeSet 3) camp = some .ok := by decide +kernel

theorem witness_ChoiceFollowsR71AndR72 :
    candidate (pool 4 90) ⟨2, ⟨5880, 6⟩, 6, none⟩ 12 = true ∧ candidate (pool 4 90) ⟨2, ⟨5882, 4⟩, 6, none⟩ 8 = true ∧
      candidate (pool 4 90) ⟨2, ⟨5880, 6⟩, 6, none⟩ 8 = false ∧ candidate (pool 4 90) ⟨2, ⟨5880, 6⟩, 6, some 12⟩ 12 = false ∧
      choose (pool 4 90) ⟨2, ⟨5880, 6⟩, 15, none⟩ = none := by decide +kernel

/-- A confirmed meeting under way in room 0, which is said to be occupied. -/
def busy : State :=
  let s := met (meeting .active 2986 4) camp
  s.setOcu { s.ocu with presence := put s.ocu.presence 0 .occupied }

theorem witness_UsageIsHalvedThenCounted :
    (timed .psl (.tick ⟨14, 0⟩) busy).timeHead .psl = some (.tick ⟨14, 0⟩) ∧ 14 % 7 = busy.psl.levelDay ∧
      (timed .psl (.tick ⟨10, 541⟩) busy).timeHead .psl = some (.tick ⟨10, 541⟩) ∧
      (after .usageCount (timed .psl (.tick ⟨14, 0⟩) busy)).psl.usage[(0 : Room)] = 1 ∧
      (busy.ocu.presence[(0 : Room)] = .occupied) ∧
      ((met (meeting .active 2986 4) camp).ocu.presence[(1 : Room)] ≠ .occupied ∧ (camp.roomRec 1).panel = none) ∧
      (let s := met { meeting .active 2986 4 with room := 1, faults := 1 } camp;
        (s.schedule 1).find? (fun x => x.summary = .active) = some ⟨2986, 2990, 3, .port 0, .active⟩ ∧
          (after .usageCount (timed .psl (.tick ⟨10, 545⟩) s)).book.corrected = 1) ∧
      (camp.panelOnline 0 = true ∧ camp.panelOnline 2 = false) ∧
      ((met (meeting .active 2986 4) camp).schedule 0).find? (fun x => x.summary = .active) =
        some ⟨2986, 2990, 3, .port 0, .active⟩ := by decide +kernel

/-! ### The book -/

theorem witness_RecordsAreReadAllocatedAndFreed :
    (((met (meeting .confirmed 2990 4) camp).bookRec 3).body.faults = 0) ∧
      ((met { meeting .confirmed 2990 4 with faults := 1 } camp).bookRec 3).body.faults = 1 ∧
      2 ≤ ((met { meeting .confirmed 2990 4 with faults := 2 } camp).bookRec 3).body.faults ∧
      ((0 : Room) ≠ 1) ∧ ((camp.schedule 0).Pairwise (fun x y => x.start ≤ y.start)) ∧
      (met (meeting .confirmed 2990 4) camp).entryOf 3 = some (0, ⟨2990, 2994, 3, .port 0, .confirmed⟩) := by decide +kernel

theorem witness_GrantGoesRound :
    (camp.setBook { camp.book with frozen := true }).book.frozen = true ∧ camp.book.frozen = false ∧ camp.book.lastGrant = .ocu ∧
      granted camp = none ∧ granted (asked 0 .queryBookStats (asked 2 .queryBookStats camp)) = some (.port 0) ∧
      granted (asked 0 .queryBookStats (asked 2 .queryBookStats (setGrant (.port 0) camp))) = some (.port 2) := by decide +kernel

theorem witness_StaleDamagedAndBusyRecords :
    BookWaits (asked 0 (.confirm ⟨3, 1⟩) (met (meeting .held 2990 4) camp)) 0 (.confirm ⟨3, 1⟩) ∧
      ((met (meeting .held 2990 4) camp).bookRec 3).gen ≠ 1 ∧ (camp.bookRec 3).life = .free ∧
      (((linked (fun r => { r with life := .damaged }) (met (meeting .held 2990 4) camp)).bookRec 3).life = .damaged) ∧
      codeOf 0 (.confirm id3) (.confirm 0) camp = some .unknown ∧
      codeOf 0 (.modify id3 none none none) (.modify 0) (linked (fun r => { r with life := .damaged }) (met (meeting .held 2990 4) camp)) =
        some .damaged ∧
      codeOf 1 (.checkIn id3) (.checkIn 1) (linked (fun r => { r with pending := .move }) (met (meeting .confirmed 2990 4) camp)) =
        some .busyRecord ∧
      codeOf 0 (.order id3 ⟨5, 0, 255, 0, 0⟩) (.order 0) camp = some .unknown ∧
      codeOf 3 (.unblock id3) (.unblock 3) camp = some .unknown := by decide +kernel

theorem witness_HoldAndBookMakeRecords :
    let hold : Request := .hold ⟨1, 0⟩ ⟨7199, 96⟩ 1 7#32 9 (some 30)
    let book : Request := .book ⟨0, 2⟩ ⟨2980, 9⟩ 255 7#32 9
    (BookWaits (asked 0 hold camp) 0 hold ∧ camp.clockSet .rbk = true ∧ (TargetParam.mk 1 0).judge = some (.pool 0) ∧
        camp.bookSlot = 2988 ∧ 7199 / 288 ≤ (camp.now .rbk).day + 14 ∧ camp.kindOf 0 = .pooled ∧
        (camp.zoneAttr 0).bookers.admits (hand 0 hold).role = true ∧ choose camp ⟨0, ⟨7199, 96⟩, 1, none⟩ = some (1, 15) ∧
        camp.freeIndex = some 0) ∧
      (BookWaits (asked 0 book camp) 0 book ∧ (TargetParam.mk 0 2).judge = some (.room 2) ∧ (camp.roomRec 2).cap ≠ 0 ∧
        (camp.attrOf 2).bookers.admits (hand 0 book).role = true ∧ (camp.schedule 2).find? (fun e => decide (e.start < 2989 ∧ 2988 < e.stop)) = none ∧ 2980 + 9 = 2988 + 1) ∧
      codeOf 0 hold (.hold 0) camp = some .ok ∧ codeOf 0 book (.book 0) camp = some .ok := by decide +kernel

theorem witness_HoldAndBookRefuse :
    let ask (t : TargetParam) (start len : Nat) : Request := .book t ⟨start, len⟩ 1 7#32 9
    let full := camp.setBook { camp.book with records := Vector.replicate 2048 { BookRec.blank 0 with life := .live } }
    codeOf 0 (ask ⟨0, 0⟩ 2990 4) (.book 0) State.reset = some .clockUnset ∧ codeOf 0 (ask ⟨0, 128⟩ 2990 4) (.book 0) camp = some .badParam ∧
      codeOf 0 (ask ⟨0, 0⟩ 2990 97) (.book 0) camp = some .badParam ∧
      codeOf 0 (.hold ⟨0, 0⟩ ⟨2990, 4⟩ 1 7#32 9 (some 0)) (.hold 0) camp = some .badParam ∧
      codeOf 0 (ask ⟨0, 0⟩ 2984 4) (.book 0) camp = some .tooLate ∧ codeOf 0 (ask ⟨0, 0⟩ 7200 4) (.book 0) camp = some .horizon ∧
      codeOf 0 (ask ⟨0, 3⟩ 2990 4) (.book 0) camp = some .noRoom ∧ codeOf 2 (ask ⟨0, 0⟩ 2990 4) (.book 2) camp = some .denied ∧
      answered 0 (after (.book 0) (asked 0 (ask ⟨0, 0⟩ 2988 4) (met (meeting .held 2990 4) camp))) =
        some (.conflict, e4 2990 ++ e4 2994) ∧
      codeOf 0 (ask ⟨1, 1⟩ 2990 4) (.book 0) camp = some .noRoom ∧ codeOf 2 (ask ⟨1, 0⟩ 2990 4) (.book 2) camp = some .denied ∧
      codeOf 0 (.book ⟨1, 0⟩ ⟨2990, 4⟩ 11 7#32 9) (.book 0) camp = some .noRoom ∧
      codeOf 0 (ask ⟨0, 0⟩ 2990 4) (.book 0) full = some .bookFull := by decide +kernel

theorem witness_FindFreeAndBookQueriesReport :
    (BookWaits (asked 0 (.findFree 0 ⟨2985, 4⟩ 11) camp) 0 (.findFree 0 ⟨2985, 4⟩ 11) ∧ camp.kindOf 0 = .pooled ∧
        choose camp ⟨0, ⟨2988, 1⟩, 11, none⟩ = none ∧ choose camp ⟨0, ⟨2988, 1⟩, 10, none⟩ = some (0, 0) ∧ camp.kindOf 1 = .named) ∧
      (codeOf 0 (.findFree 0 ⟨2985, 4⟩ 10) (.findFree 0) State.reset = some .clockUnset ∧
        codeOf 0 (.findFree 5 ⟨2985, 4⟩ 10) (.findFree 0) camp = some .badParam ∧
        codeOf 0 (.findFree 0 ⟨2984, 4⟩ 10) (.findFree 0) camp = some .tooLate ∧
        codeOf 0 (.findFree 0 ⟨7200, 4⟩ 10) (.findFree 0) camp = some .horizon) ∧
      codeOf 0 (.findFree 1 ⟨2985, 4⟩ 10) (.findFree 0) camp = some .noRoom ∧
      codeOf 0 (.findFree 0 ⟨2985, 4⟩ 10) (.findFree 0) camp = some .ok ∧
      codeOf 2 (.findFree 0 ⟨2985, 4⟩ 10) (.findFree 2) camp = some .denied ∧
      codeOf 3 .clearBookStats (.clearBookStats 3) camp = some .ok ∧
      codeOf 0 (.queryRoom 127 65535 none) (.queryRoom 0) camp = some .ok ∧
      (NamedRecord (met (meeting .held 2990 4) camp) id3 (meeting .held 2990 4)) ∧
      codeOf 0 .queryBookStats (.queryBookStats 0) camp = some .ok ∧
      codeOf 0 (.queryRoom 128 0 none) (.queryRoom 0) camp = some .badParam ∧
      (let ask : Request := .queryBooking id3;
        let s := met (meeting .held 2990 4) camp;
        let standing := e4 2990 ++ e4 2994 ++ e1 0 ++ eRoom 0 ++ eOpt eOrderId none;
        codeOf 0 ask (.queryBooking 0) camp = some .unknown ∧
          answered 0 (after (.queryBooking 0) (asked 0 ask (linked (fun r => { r with life := .damaged }) s))) = some (.damaged, standing) ∧
          codeOf 0 ask (.queryBooking 0) (linked (fun r => { r with pending := .move }) s) = some .busyRecord ∧
          answered 0 (after (.queryBooking 0) (asked 0 ask (met { meeting .held 2990 4 with faults := 2 } camp))) =
            some (.damaged, standing) ∧
          codeOf 0 ask (.queryBooking 0) (met { meeting .held 2990 4 with faults := 1 } camp) = some .ok) := by decide +kernel

theorem witness_ConfirmCancelAndUnblock :
    NamedRecord (met (meeting .held 2990 4) camp) id3 (meeting .held 2990 4) ∧
      codeOf 0 (.confirm id3) (.confirm 0) (met (meeting .held 2990 4) camp) = some .ok ∧
      codeOf 0 (.confirm id3) (.confirm 0) (met (meeting .active 2986 4) camp) = some .badState ∧
      codeOf 0 (.confirm id3) (.confirm 0) (met { meeting .held 2990 4 with owner := .panel } camp) = some .denied ∧
      codeOf 0 (.cancel id3) (.cancel 0) (met (meeting .active 2986 4) camp) = some .ok ∧
      codeOf 3 (.cancel id3) (.cancel 3) (met (meeting .block 2986 4) camp) = some .badState ∧
      codeOf 0 (.cancel id3) (.cancel 0) (met { meeting .held 2990 4 with owner := .port 1 } camp) = some .denied ∧
      codeOf 1 (.cancel id3) (.cancel 1) (linked (fun r => { r with life := .damaged }) (met (meeting .held 2990 4) camp)) = some .ok ∧
      codeOf 0 (.cancel id3) (.cancel 0) (linked (fun r => { r with life := .damaged }) (met (meeting .held 2990 4) camp)) =
        some .damaged ∧
      codeOf 3 (.unblock id3) (.unblock 3) (met (meeting .block 2986 4) camp) = some .ok ∧
      codeOf 3 (.unblock id3) (.unblock 3) (met (meeting .held 2990 4) camp) = some .badState := by decide +kernel

theorem witness_ModifyChangesOrMoves :
    (modifyRefused ⟨id3, some 2992, some 4, some 5⟩ (meeting .confirmed 2991 4) (met (meeting .confirmed 2991 4) camp) = none) ∧
      codeOf 0 (.modify id3 (some 2992) (some 4) (some 5)) (.modify 0) (met (meeting .confirmed 2991 4) camp) = some .ok ∧
      (after (.modify 0) (asked 0 (.modify id3 (some 2992) none none)
        (linked (fun r => { r with order := some id4 }) (met (meeting .confirmed 2991 4) camp)))).wires.toPlanner =
        [.move 0 id3 id4 0 2992 2996 (some 4)] ∧
      codeOf 0 (.modify id3 (some 2992) none none) (.modify 0) (met (meeting .confirmed 2990 4) camp) = some .badState ∧
      codeOf 0 (.modify id3 (some 2987) none none) (.modify 0) (met (meeting .held 2991 4) camp) = some .tooLate ∧
      codeOf 0 (.modify id3 none none (some 256)) (.modify 0) (met (meeting .active 2986 4) camp) = some .badParam ∧
      codeOf 0 (.modify id3 none none (some 5)) (.modify 0) (met (meeting .active 2986 4) camp) = some .badState ∧
      codeOf 0 (.modify id3 none (some 2) none) (.modify 0) (met (meeting .active 2986 4) camp) = some .tooLate ∧
      (BookWaits (asked 0 (.modify id3 none none none) State.reset) 0 (.modify id3 none none none) ∧ State.reset.clockSet .rbk = false ∧
        codeOf 0 (.modify id3 none none none) (.modify 0) State.reset = some .clockUnset) := by decide +kernel

theorem witness_ModifyChangesOrMoves_last_checks :
    let s := met (meeting .confirmed 2991 4) camp
    codeOf 0 (.modify id3 (some 7200) none none) (.modify 0) s = some .horizon ∧ 7199 / 288 ≤ (s.now .rbk).day + 14 ∧
      codeOf 0 (.modify id3 (some 2992) none none) (.modify 0) (linked (fun r => { r with pending := .attach }) s) = some .busyRecord ∧
      answered 0 (after (.modify 0) (asked 0 (.modify id3 (some 2992) none none) (allocate 4 (meeting .held 2995 4) s))) =
        some (.conflict, e4 2995 ++ e4 2999) ∧
      codeOf 0 (.modify id3 (some 2992) none none) (.modify 0) (allocate 4 (meeting .held 2996 4) s) = some .ok := by decide +kernel

/-- Room 0 with E and G of 2: the window of a start is from 2 slots before it to the slot after it. -/
theorem witness_CheckInByRequest :
    ((camp.attrOf 0).e = 2 ∧ (camp.attrOf 0).g = 2) ∧
      codeOf 1 (.checkIn id3) (.checkIn 1) (met (meeting .held 2988 4) camp) = some .badState ∧
      codeOf 1 (.checkIn id3) (.checkIn 1) (met (meeting .confirmed 2991 4) camp) = some .badState ∧
      answered 1 (after (.checkIn 1) (asked 1 (.checkIn id3) (met (meeting .confirmed 2990 4) camp))) = some (.ok, [1#8]) ∧
      answered 1 (after (.checkIn 1) (asked 1 (.checkIn id3) (met (meeting .confirmed 2988 4) camp))) = some (.ok, [2#8]) ∧
      codeOf 1 (.checkIn id3) (.checkIn 1) (met (meeting .confirmed 2986 4) camp) = some .tooLate ∧
      answered 1 (after (.checkIn 1) (asked 1 (.checkIn id3) (met { meeting .confirmed 2990 4 with earlyIn := true } camp))) =
        some (.ok, []) ∧
      ((after (.checkIn 1) (asked 1 (.checkIn id3) (met { meeting .active 2986 4 with unverified := true } camp))).bookRec 3).body.unverified
        = false ∧
      answered 1 (after (.checkIn 1) (asked 1 (.checkIn id3) (met (meeting .active 2986 4) camp))) = some (.ok, []) ∧
      (BookWaits (asked 1 (.checkIn id3) State.reset) 1 (.checkIn id3) ∧ State.reset.clockSet .rbk = false ∧
        codeOf 1 (.checkIn id3) (.checkIn 1) State.reset = some .clockUnset) := by decide +kernel

/-- The exchange of an attach of port 0 about record 3. -/
def attaching (p : BPending) (m : PlanMsg) (s : State) : State :=
  let s := handBook m (linked (fun r => { r with pending := p }) s)
  s.setBook { s.book with exchanges := [⟨7, id3, some (0, 1), none⟩] }

theorem witness_OrdersAreAttachedAndEnded :
    let s := met (meeting .confirmed 2990 4) camp
    (after (.order 0) (asked 0 (.order id3 ⟨5, 0, 255, 0, 0⟩) s)).wires.toPlanner = [.attach 0 id3 0 2990 2994 ⟨5, 0, 255, 0, 0⟩ 0] ∧
      codeOf 0 (.order id3 ⟨5, 0, 255, 0, 0⟩) (.order 0) (linked (fun r => { r with order := some id4 }) s) = some .badState ∧
      codeOf 0 (.order id3 ⟨5, 0, 255, 0, 0⟩) (.order 0) (linked (fun r => { r with pending := .abandoned }) s) = some .busyRecord ∧
      codeOf 0 (.order id3 ⟨5, 0, 255, 0, 0⟩) (.order 0) (met (meeting .held 2990 4) camp) = some .badState ∧
      takeExchange (fun y => y.serial = 7 && y.move.isNone) (attaching .attach (.attachOk 7 id3 id4) s).book.exchanges =
        some (⟨7, id3, some (0, 1), none⟩, []) ∧
      (answered 0 (after .attachAnswer (attaching .attach (.attachOk 7 id3 id4) s))).map Prod.fst = some .ok ∧
      (answered 0 (after .attachAnswer (attaching .attach (.attachFailed 7 id3 .tooSoon) s))).map Prod.fst = some .tooSoon ∧
      (after .attachAnswer (attaching .abandoned (.attachOk 7 id3 id4) s)).wires.toPlanner = [.dropOrder id3 id4] ∧
      (answered 0 (after .attachAnswer (attaching .attach (.attachOk 7 ⟨3, 1⟩ id4) s))).map Prod.fst = some .unknown ∧
      (answered 0 (after .attachAnswer (attaching .attach (.attachOk 6 id3 id4) s))) = none ∧
      ((after .orderEnded (handBook (.orderEnded id3 id4 true) (linked (fun r => { r with order := some id4 }) s))).bookRec 3).body.cateringDelivered
        = true ∧
      (handBook (.reseatDone id3 id4) s).wires.toBook.head? = some (.reseatDone id3 id4) ∧
      (handBook (.notFound id3 id4) s).wires.toBook.head? = some (.notFound id3 id4) ∧
      (BookWaits (asked 0 (.order id3 ⟨5, 0, 255, 0, 0⟩) State.reset) 0 (.order id3 ⟨5, 0, 255, 0, 0⟩) ∧
        State.reset.clockSet .rbk = false ∧ codeOf 0 (.order id3 ⟨5, 0, 255, 0, 0⟩) (.order 0) State.reset = some .clockUnset) := by decide +kernel

theorem witness_BlockRoomDisplacesOrReseats :
    let ask : Request := .blockRoom 0 ⟨2988, 96⟩ 15 7 1
    let s := met (meeting .confirmed 2990 4) camp
    (BookWaits (asked 3 ask camp) 3 ask ∧ camp.clockSet .rbk = true ∧ (camp.roomRec 0).cap ≠ 0 ∧ camp.freeIndex = some 0 ∧
        blockRefused (overlapping camp 0 ⟨2988, 96⟩) true camp = none) ∧
      codeOf 3 ask (.blockRoom 3) camp = some .ok ∧
      codeOf 3 ask (.blockRoom 3) (linked (fun r => { r with pending := .attach }) s) = some .busyRecord ∧
      (choose s ⟨0, ⟨2990, 4⟩, 4, some 0⟩ = some (1, 6) ∧ s.zoneOf 0 = 0 ∧ s.kindOf 0 = .pooled) ∧
      ((after (.blockRoom 3) (asked 3 ask s)).bookRec 3).body.room = 1 ∧
      ((after (.blockRoom 3) (asked 3 ask (met (meeting .held 2990 4) camp))).bookRec 3).life = .free ∧
      choose s ⟨0, ⟨2990, 4⟩, 7, some 0⟩ = none ∧
      codeOf 3 ask (.blockRoom 3) (met { meeting .confirmed 2990 4 with faults := 2 } camp) = some .damaged ∧
      answered 3 (after (.blockRoom 3) (asked 3 ask (met (meeting .block 2990 4) camp))) = some (.conflict, e4 2990 ++ e4 2994) ∧
      codeOf 3 (.blockRoom 0 ⟨2988, 96⟩ 15 7 0) (.blockRoom 3) (met (meeting .active 2986 4) camp) = some .badState ∧
      codeOf 3 ask (.blockRoom 3) (camp.setBook { camp.book with
        records := Vector.replicate 2048 { BookRec.blank 0 with life := .live } }) = some .bookFull ∧
      (let refusal (room start cause force : Nat) := codeOf 3 (.blockRoom room ⟨start, 4⟩ cause 7 force) (.blockRoom 3) camp;
        codeOf 3 ask (.blockRoom 3) State.reset = some .clockUnset ∧ refusal 128 2990 15 1 = some .badParam ∧
          refusal 127 18874368 15 1 = some .badParam ∧ refusal 127 18874367 15 1 = some .horizon ∧ refusal 127 2990 16 1 = some .badParam ∧
          refusal 127 2990 15 2 = some .badParam ∧ refusal 127 2984 15 1 = some .tooLate ∧ refusal 127 2985 15 1 = some .noRoom) := by
  decide +kernel

/-- The clock put forward to a minute of day 10. -/
def clocked (minute : Nat) (s : State) : State := { s with times := Vector.replicate 6 ⟨⟨10, minute⟩, .set⟩ }

theorem witness_BookTakesATickByPasses :
    (timed .rbk (.tick ⟨10, 545⟩) camp).timeHead .rbk = some (.tick ⟨10, 545⟩) ∧
      (timed .rbk (.tick ⟨10, 541⟩) camp).timeHead .rbk = some (.tick ⟨10, 541⟩) ∧
      (SoundRecord (met { meeting .held 2990 4 with holdExpiry := some 14940 } camp) 3
        { meeting .held 2990 4 with holdExpiry := some 14940 } 0 ⟨2990, 2994, 3, .port 0, .held⟩) ∧
      ((after (.holdExpiry 3) (met { meeting .held 2990 4 with holdExpiry := some 14940 } camp)).bookRec 3).life = .free ∧
      ((after (.holdExpiry 3) (met { meeting .held 2990 4 with holdExpiry := some 14941 } camp)).bookRec 3).life = .live ∧
      ((camp.now .rbk).minute % 5 = 0) ∧
      ((after (.endBoundary 3) (met (meeting .active 2984 4) camp)).bookRec 3).life = .free ∧
      ((after (.endBoundary 3) (met (meeting .held 2984 4) camp)).bookRec 3).life = .free ∧
      ((after (.noShowBoundary 3) (met (meeting .confirmed 2986 4) camp)).bookRec 3).life = .free ∧
      ((after (.noShowBoundary 3) (camp.setPwc { camp.pwc with sstate := .retain } |> met
          { meeting .confirmed 2986 4 with checkinMinute := some 14900 })).bookRec 3).body =
        { meeting .active 2986 4 with unverified := true } ∧
      (let s := camp.setRzt { camp.rzt with rooms := put campRooms 0 { roomA with panel := none } };
        s.panelOnline 0 = false ∧ s.panelOnlineIn s.book.boundaryRooms 0 = true ∧
          ((after (.noShowBoundary 3) (met (meeting .confirmed 2986 4) s)).bookRec 3).life = .free) ∧
      ((after (.startBoundary 3) (met { meeting .confirmed 2988 4 with earlyIn := true } camp)).bookRec 3).body.state = .active ∧
      (linked (fun r => { r with pending := .move }) (met (meeting .confirmed 2984 4) camp)).entryOf 3 =
        some (0, ⟨2984, 2988, 3, .port 0, .confirmed⟩) ∧
      (let s (faults : Nat) (p : BookIx) := (met { meeting .held 2990 4 with faults := faults } camp).setBook
          { (met { meeting .held 2990 4 with faults := faults } camp).book with scrub := p };
        camp.book.scrub = 0 ∧ ((scrub (s 1 2036)).bookRec 3).body.faults = 0 ∧ ((scrub (s 1 2035)).bookRec 3).body.faults = 1 ∧
          ((scrub (s 2 3)).bookRec 3).life = .damaged ∧ ((scrub (s 2 4)).bookRec 3).life = .live) := by decide +kernel

/-- OCU presents an item for room 0. -/
def presents (r : OcuRequest) (room : Room) (s : State) : State :=
  s.setOcu { s.ocu with presented := some { plainItem .panel room r with slots := some 3 } }

theorem witness_PanelCheckInChoosesTheMeeting :
    let early := met (meeting .confirmed 2990 4) camp
    let begun := met (meeting .confirmed 2988 4) camp
    let ill (b : Body) := met { b with faults := 2 } camp
    granted (presents .panelCheckin 0 early) = some .ocu ∧ windowIxs early 0 = [3] ∧ windowIxs begun 0 = [3] ∧
      (firstSound [3] early).1 = some (3, meeting .confirmed 2990 4) ∧
      ((firstSound [3] (ill (meeting .confirmed 2990 4))).1 = none ∧
        ((after .panelCheckin (presents .panelCheckin 0 (ill (meeting .confirmed 2990 4)))).bookRec 3).life = .damaged ∧
        (after .panelCheckin (presents .panelCheckin 0 (ill (meeting .confirmed 2990 4)))).wires.outcome = some .nothing) ∧
      (after .panelCheckin (presents .panelCheckin 0 (linked (fun r => { r with pending := .move })
        (met (meeting .active 2986 4) camp)))).wires.outcome = some .busyRecord ∧
      (after .panelCheckin (presents .panelCheckin 0 early)).wires.outcome = some .checkedInEarly ∧
      (after .panelCheckin (presents .panelCheckin 0 begun)).wires.outcome = some .checkedIn ∧
      (after .panelCheckin (presents .panelCheckin 0 (met { meeting .confirmed 2990 4 with earlyIn := true } camp))).wires.outcome =
        some .already ∧
      (after .panelCheckin (presents .panelCheckin 0 (linked (fun r => { r with pending := .move }) early))).wires.outcome =
        some .busyRecord ∧
      (windowIxs (met { meeting .active 2986 4 with unverified := true } camp) 0 = [] ∧
        activeIxs (met { meeting .active 2986 4 with unverified := true } camp) 0 = [3]) ∧
      (after .panelCheckin (presents .panelCheckin 0 (met { meeting .active 2986 4 with unverified := true } camp))).wires.outcome =
        some .verified ∧
      (after .panelCheckin (presents .panelCheckin 0 (met (meeting .active 2986 4) camp))).wires.outcome = some .already ∧
      badgeCounts { camp.attrOf 0 with badgeOnly := true } none (meeting .confirmed 2990 4) = false ∧
      (after .panelCheckin (presents .panelCheckin 0 camp)).wires.outcome = some .nothing ∧
      (after .panelCheckin (presents .panelCheckin 0
        (camp.setBook { camp.book with releaseMarks := put camp.book.releaseMarks 0 (some 2989) }))).wires.outcome = some .tooLate := by
  decide +kernel

theorem witness_OcuRequestsActOnTheRoom :
    let s := met (meeting .active 2986 4) camp
    (firstSound (activeIxs camp 0) camp).1 = none ∧ (firstSound (activeIxs s 0) s).1 = some (3, meeting .active 2986 4) ∧ (after .endNow (presents .endNow 0 camp)).wires.outcome = some .nothing ∧
      (after .endNow (presents .endNow 0 s)).wires.outcome = some (.done none) ∧
      ((after .extend (presents .extend 0 s)).bookRec 3).body.span = ⟨2986, 7⟩ ∧
      (after .extend (presents .extend 0 (allocate 4 (meeting .held 2990 2) s))).wires.outcome = some .noGain ∧
      (after .ghostRelease (presents .ghostRelease 0 s)).wires.outcome = some (.done none) ∧
      (after .ghostRelease (presents .ghostRelease 0 (met { meeting .active 2986 4 with unverified := true } camp))).wires.outcome =
        some .nothing ∧
      (after .walkup (presents .walkup 3 camp)).wires.outcome = some .noRoom ∧
      (after .walkup (presents .walkup 0 camp)).wires.outcome = some .denied ∧
      (after .walkup (presents .walkup 2 (allocate 4 { meeting .held 2988 2 with room := 2 } camp))).wires.outcome = some .noGain ∧
      (after .walkup (presents .walkup 2 (camp.setBook { camp.book with
        records := Vector.replicate 2048 { BookRec.blank 0 with life := .live } }))).wires.outcome = some .bookFull ∧
      (after .walkup (presents .walkup 2 camp)).wires.outcome = some (.done (some ⟨0, 0⟩)) := by decide +kernel

/-- The move of record 3 to slot 2996, answered. -/
def moving (failure : Option Code) : State :=
  let s := linked (fun r => { r with order := some id4, pending := .move }) (met (meeting .confirmed 2990 4) camp)
  let s := setSchedule 0 (insertEntry ⟨2996, 3000, 3, .port 0, .claim⟩ (s.schedule 0)) s
  let s := s.setBook { s.book with exchanges := [⟨7, id3, some (0, 1), some (⟨2996, 4⟩, some 4)⟩] }
  handBook (.moveAnswer 7 id3 id4 failure) s

theorem witness_MoveAnswerCompletesTheMove :
    (moving none).wires.toBook.head? = some (.moveAnswer 7 id3 id4 none) ∧
      takeExchange (fun y => y.serial = 7 && y.move.isSome) (moving none).book.exchanges =
        some (⟨7, id3, some (0, 1), some (⟨2996, 4⟩, some 4)⟩, []) ∧
      ((moving none).bookRec 3).life = .live ∧ ((moving none).bookRec 3).body.faults = 0 ∧
      (answered 0 (after .moveAnswer (moving none)) = some (.ok, []) ∧
        (let s := linked (fun r => { r with life := .damaged }) (moving none);
          answered 0 (after .moveAnswer s) = some (.damaged, []) ∧
            (after .moveAnswer s).schedule 0 = [⟨2996, 3000, 3, .port 0, .damaged⟩]) ∧
        (let s := linked (fun r => { r with body := { r.body with faults := 2 } }) (moving none);
          ((readBody 3 s).1 = none ∧ answered 0 (after .moveAnswer s) = some (.damaged, [])))) ∧
      ((after .moveAnswer (moving none)).schedule 0) = [⟨2996, 3000, 3, .port 0, .confirmed⟩] ∧
      ((after .moveAnswer (moving (some .kitchenFull))).schedule 0) = [⟨2990, 2994, 3, .port 0, .confirmed⟩] ∧
      (⟨2996, 3000, 3, .port 0, .claim⟩ : Entry) ∈ (moving none).schedule 0 ∧
      (⟨2990, 2994, 3, .port 0, .confirmed⟩ : Entry) ∈ (moving none).schedule 0 ∧
      ((handBook (.moveAnswer 7 id3 id4 none) camp).book.exchanges = [] ∧ camp.book.emptied ≤ 7) ∧
      (let s := moving none;
        (after .moveAnswer (s.setWires { s.wires with toBook := [.moveAnswer 6 id3 id4 none] })).schedule 0 = s.schedule 0 ∧
          (after .moveAnswer (handBook (.moveAnswer 7 id3 id4 none) (camp.setBook { camp.book with emptied := 8 }))).wires.taken = [id4]) ∧
      SoundRecord (met (meeting .confirmed 2990 4) camp) 3 (meeting .confirmed 2990 4) 0 ⟨2990, 2994, 3, .port 0, .confirmed⟩ ∧
      ((heldDeadlines 2988 3 (met (meeting .confirmed 2984 4) camp)).bookRec 3).life = .free ∧
      ((heldDeadlines 2988 3 (met (meeting .held 2984 4) camp)).bookRec 3).life = .free := by decide +kernel

/-- The deadlines held back over a move that has ended: a no-show in RUN, in RETAIN, and a start with EARLY_IN (03 R49 to R51). -/
theorem witness_HeldDeadlinesAreTaken :
    let late := met (meeting .confirmed 2986 4) camp
    let dark := late.setPwc { late.pwc with sstate := .retain }
    let early := met { meeting .confirmed 2986 4 with earlyIn := true } camp
    let held := setPending 3 .move late
    let now := met (meeting .active 2986 4) camp
    (SoundRecord late 3 (meeting .confirmed 2986 4) 0 ⟨2986, 2990, 3, .port 0, .confirmed⟩ ∧ (late.bookRec 3).pending ≠ .move ∧
        (late.attrOf 0).g = 2 ∧ (late.attrOf 0).autorelease = true ∧ late.panelOnline 0 = true ∧ late.pwc.sstate ≠ .retain ∧
        (heldDeadlines 2988 3 late).book.releaseMarks[(0 : Room)] = some 2990 ∧
        (heldDeadlines 2987 3 late).bookRec 3 = late.bookRec 3) ∧
      (SoundRecord dark 3 (meeting .confirmed 2986 4) 0 ⟨2986, 2990, 3, .port 0, .confirmed⟩ ∧ dark.pwc.sstate = .retain ∧
        ((heldDeadlines 2988 3 dark).bookRec 3).body.unverified = true ∧
        (heldDeadlines 2988 3 dark).schedule 0 = [⟨2986, 2990, 3, .port 0, .active⟩]) ∧
      (SoundRecord early 3 { meeting .confirmed 2986 4 with earlyIn := true } 0 ⟨2986, 2990, 3, .port 0, .confirmed⟩ ∧
        ((heldDeadlines 2986 3 early).bookRec 3).body.state = .active ∧
        (heldDeadlines 2985 3 early).bookRec 3 = early.bookRec 3) ∧
      (SoundRecord held 3 (meeting .confirmed 2986 4) 0 ⟨2986, 2990, 3, .port 0, .confirmed⟩ ∧ (held.bookRec 3).pending = .move ∧
        (heldDeadlines 2990 3 held).bookRec 3 = held.bookRec 3) ∧
      (SoundRecord now 3 (meeting .active 2986 4) 0 ⟨2986, 2990, 3, .port 0, .active⟩ ∧
        (heldDeadlines 2989 3 now).bookRec 3 = now.bookRec 3) := by decide +kernel

theorem witness_BookFollowsTablesAndStops :
    let s := met { meeting .confirmed 2990 4 with attendees := some 11 } camp
    (handConfig ⟨[0], [], true, false⟩ s).wires.config[rbkCfg].head? = some ⟨[0], [], true, false⟩ ∧
      ((after .bookConfigApplied (handConfig ⟨[0], [], true, false⟩ s)).bookRec 3).body.overCapacity = true ∧
      ((s.bookRec 3).body.attendees.any (fun n => decide ((s.roomRec 0).cap < n)) ≠ (s.bookRec 3).body.overCapacity) ∧
      ((reevaluate (met { meeting .confirmed 2990 4 with overCapacity := true } camp) 3).bookRec 3).body.overCapacity = false ∧
      (supplied rbkIx .stop (attaching .attach (.attachOk 7 id3 id4) s)).wires.supply[rbkIx].head? = some .stop ∧
      ((after .bookStop (supplied rbkIx .stop (attaching .attach (.attachOk 7 id3 id4) s))).bookRec 3).pending = .abandoned ∧
      ((after .bookStop (supplied rbkIx .stop (moving none))).bookRec 3).pending = .none ∧
      (after .bookStop (supplied rbkIx .stop (moving none))).schedule 0 = [⟨2990, 2994, 3, .port 0, .confirmed⟩] ∧
      (after .bookStop (supplied rbkIx .stop (moving none))).wires.answers[(0 : Port)] = [] ∧
      (camp.setPort 0 { camp.ports[(0 : Port)] with link := .stopped }).ports[(0 : Port)].link = .stopped := by decide +kernel

/-! ### Panel lines -/

def anEvent (q : Seq) (k : EvKind) : PEvent := ⟨q, k⟩

theorem witness_ReferenceAndDistanceFollowR91 :
    (∃ c : PanelCtx, c.evbuf = [anEvent 1 .checkIn] ++ [anEvent 2 .endNow]) ∧
      (PanelCtx.reset.evbuf = [] ∧ { PanelCtx.reset with outstanding := some (anEvent 3 .checkIn, none) }.outstanding =
        some (anEvent 3 .checkIn, none)) ∧
      (PanelCtx.reset.evbuf = [] ∧ PanelCtx.reset.outstanding = none) ∧
      distance (some 15) 7 = 8 ∧ isRepeat (some 15) 7 = false ∧ isRepeat (some 15) 8 = true ∧ isRepeat (some 15) 15 = true :=
  ⟨⟨{ PanelCtx.reset with evbuf := [anEvent 1 .checkIn, anEvent 2 .endNow] }, rfl⟩, by decide⟩

/-- The frame a panel at address 5 answers with: reading, version applied and events. -/
def statusFrame (raw : Nat) (events : List Byte) : List Byte :=
  panelFrame 5#8 2 (e1 raw ++ e1 0 ++ e1 (events.length / 5) ++ events)

/-- Line 0 in a poll turn at address 5. -/
def polling (c : PanelCtx) (s : State) : State :=
  s.setLine 0 { s.line 0 with ctx := put (s.line 0).ctx 5 c, phase := .turn 5 false }

def online : PanelCtx := { PanelCtx.reset with pstate := .online, room := some 0 }

theorem witness_EventsAreWalkedHandedAndSettled :
    let e := anEvent 4 .checkIn
    (walkEvents (some 3) false 4 [anEvent 9 .checkIn, anEvent 3 .void, anEvent 10 .endNow, anEvent 12 .endNow] =
        [anEvent 9 .checkIn, anEvent 10 .endNow] ∧ walkEvents (some 3) false 1 [e, anEvent 5 .void] = [e] ∧
        ((handNext 0 5 (polling { online with evbuf := [anEvent 3 .void] } camp)).ctx 0 5) = { online with ackSeq := some 3 }) ∧
      (walkEvents (some 3) false 4 [anEvent 2 .endNow, e] = [e] ∧ isRepeat (some 3) 2 = true ∧ isRepeat (some 3) 4 = false) ∧
      (({ online with evbuf := [anEvent 3 .void] ++ e :: [] } : PanelCtx).outstanding = none ∧ (anEvent 3 .void).kind = .void ∧
        e.kind ≠ .void) ∧
      takeAddr 5 (handLine 0 5 (.verdict 4 true) camp).wires.toLine[(0 : Line)] = some (.verdict 4 true, []) ∧
      takeAddr 5 (handLine 0 5 (.verdict 4 false) camp).wires.toLine[(0 : Line)] = some (.verdict 4 false, []) ∧
      ((after (.verdict 0 5) (handLine 0 5 (.verdict 4 true) (polling { online with outstanding := some (e, some 0) } camp))).ctx 0 5) =
        { online with ackSeq := some 4 } ∧
      ((after (.verdict 0 5) (handLine 0 5 (.verdict 4 false) (polling { online with outstanding := some (e, some 0) } camp))).ctx 0 5) =
        online ∧
      (camp.ctx 0 6).pstate = .unconfigured ∧
      takeAddr 5 (handLine 0 5 (.display (compose camp 0)) camp).wires.toLine[(0 : Line)] = some (.display (compose camp 0), []) := by
  decide +kernel

theorem witness_LineStatisticsAndResets :
    codeOf 3 (.clearLineStats 16) (.clearLineStats 3) camp = some .badParam ∧
      codeOf 3 (.clearLineStats 15) (.clearLineStats 3) camp = some .ok ∧ (1 : Nat).testBit 0 = true ∧ (1 : Nat).testBit 1 = false ∧
      codeOf 3 (.lineReset 0) (.lineReset 3) camp = some .badParam ∧ codeOf 3 (.lineReset 15) (.lineReset 3) camp = some .ok ∧
      ((polling online camp).line 0).phase = .turn 5 false ∧
      codeOf 3 (.lineReset 1) (.lineReset 3) (polling online camp) = none ∧
      (let s := after (.answerTimeout 0) (after (.lineReset 3) (asked 3 (.lineReset 1) (polling online camp)));
        (s.ctx 0 5).pstate = .offline ∧ (answered 3 s).map Prod.fst = some .ok ∧ s.wires.fromLine[(0 : Line)] = [(5, .down 0)] ∧
          (s.wires.notices[producerIx (.plu 0)]).map (fun n => n.note.kind) = [.panelOffline] ∧ (s.line 0).timeoutCount = 0) := by
  decide +kernel

/-- Line 0 in its claim window. -/
def windowed : State := camp.setLine 0 { camp.line 0 with phase := .window }

theorem witness_CyclesPollAndClaimsGetTurns :
    (camp.ctu.refcount + 16384 < 1966080 ∧ (camp.line 0).phase = .idle ∧ camp.pwc.sstate ≠ .retain ∧
        configuredAddrs (camp.line 0) = [5] ∧ (camp.line 0).cycleStart = none) ∧
      ((after (.cycleStart 0 0) camp).line 0).phase = .turn 5 false ∧
      ((after (.cycleStart 0 16383) (camp.setLine 0 { camp.line 0 with cycleStart := some 0 })).line 0).phase = .idle ∧
      ((after (.cycleStart 0 16384) (camp.setLine 0 { camp.line 0 with cycleStart := some 0 })).line 0).phase = .turn 5 false ∧
      (camp.line 0).annSlot = none ∧ ((camp.setLine 0 { camp.line 0 with annSlot := some ⟨3, 1, 0, 31, 1, 1⟩ }).line 0).annSlot ≠ none ∧
      (windowed.line 0).phase = .window ∧ (windowed.ctx 0 5).pstate ≠ .unconfigured ∧ (windowed.ctx 0 31).pstate = .unconfigured ∧
      ((after (.claimWindow 0 5#6) windowed).line 0).phase = .turn 5 true ∧
      ((after (.claimWindow 0 31#6) windowed).line 0).phase = .idle ∧ ((after (.claimWindow 0 32#6) windowed).line 0).phase = .idle ∧
      (let idle := camp.setLine 0 { camp.line 0 with cycleStart := some 0 };
        let ph (x : LinePhase) := camp.setLine 0 { camp.line 0 with phase := x };
        ((after (.cycleStart 0 16383) idle).ctu.periods = 16383 ∧ (after (.cycleStart 0 16383) idle).line 0 = idle.line 0 ∧
            0 + 16383 < 0 + (if idle.pwc.sstate = .run then 16384 else 131072)) ∧
          ((after (.cycleStart 0 1966080) camp).ctu = camp.ctu ∧ (after (.cycleStart 0 1966080) camp).line 0 = camp.line 0 ∧
            1966080 ≤ camp.ctu.refcount + 1966080) ∧
          (configuredAddrs (camp.line 2) = [] ∧ (after (.cycleStart 2 0) camp).line 2 = camp.line 2) ∧
          (let dark := camp.setPwc { camp.pwc with sstate := .retain };
            dark.pwc.sstate = .retain ∧ (after (.cycleStart 0 7) dark).line 0 = dark.line 0) ∧
          ((ph (.turn 5 true)).line 0).phase = .turn 5 true ∧ (after (.cycleStart 0 7) (ph .window)).line 0 = (ph .window).line 0 ∧
          ((ph .window).line 0).phase = .window ∧ ((ph .stopped).line 0).phase = .stopped ∧
          (let starting := (ph .restarted).setPwc { camp.pwc with phase := .starting };
            (starting.line 0).phase = .restarted ∧ starting.pwc.phase ≠ .open ∧
              (after (.cycleStart 0 7) starting).line 0 = starting.line 0)) := by decide +kernel

theorem witness_TurnsEndInOneOfThreeWays :
    let s := polling online camp
    (s.line 0).phase = .turn 5 false ∧ (s.ctx 0 5).pstate ≠ .unconfigured ∧ ((polling PanelCtx.reset camp).ctx 0 5).pstate = .unconfigured ∧
      (judgeStatus 5 (statusFrame 1 [])).isSome = true ∧ judgeStatus 5 (statusFrame 3 []) = none ∧
      judgeStatus 6 (statusFrame 1 []) = none ∧
      ((after (.goodStatus 0 (statusFrame 1 [0x81#8, 7#8, 0#8, 1#8, 2#8])) s).ctx 0 5).outstanding = some (anEvent 1 (.badge 258), some 0) ∧
      ((after (.frameError 0 (statusFrame 3 [])) s).line 0).crcCount = 1 ∧ ((after (.answerTimeout 0) s).line 0).timeoutCount = 1 ∧
      ((finishTurn 0 false s).line 0).phase = .window ∧ ((finishTurn 0 true s).line 0).phase = .idle ∧
      ((finishTurn 0 false (s.setLine 0 { s.line 0 with rest := [4, 5] })).line 0).phase = .turn 5 false ∧
      ((finishTurn 0 false (polling PanelCtx.reset camp)).line 0).phase = .idle ∧
      (∀ a : Addr, ((polling PanelCtx.reset camp).ctx 0 a).pstate = .unconfigured) := by
  decide +kernel

theorem witness_TurnsUpdateTheirContexts :
    ((camp.ctx 0 5).pstate ≠ .offline ∧ (camp.ctx 1 0).pstate = .offline ∧ (camp.ctx 1 0).room = some 2) ∧
      ((0, 5) : Line × Addr) ≠ (1, 0) ∧ ((camp.ctx 0 5).pstate = .online ∧ min ((camp.ctx 0 5).missed + 1) 3 ≠ 3) ∧
      (((polling { online with missed := 2 } camp).ctx 0 5) = { online with missed := 2 } ∧ min (2 + 1) 3 = 3) := by decide +kernel

theorem witness_TurnsUpdateTheirContexts_displays :
    let d := compose camp 0
    let sent := { online with dvSent := some 15, dentry := some (.sent d 15) }
    let ctxOf (f : State → State) (c : PanelCtx) := (f (polling c camp)).ctx 0 5
    ctxOf (takeApplied 0 5 15) sent = { online with dvSent := some 15, dvAck := some 15 } ∧
      ctxOf (takeApplied 0 5 3) { online with dvSent := some 15 } = { online with dvSent := some 15, dentry := some .awaiting } ∧
      (takeApplied 0 5 3 (polling online camp)).wires.fromLine[(0 : Line)] = [(5, .loss 0)] ∧
      ctxOf (takeApplied 0 5 3) { online with room := none } = { online with room := none, dentry := some .awaiting } ∧
      ctxOf (pushDisplay 0 5 15) { online with dentry := some (.unsent d) } =
        { online with dvSent := some 0, dentry := some (.sent d 0) } ∧
      ((pushDisplay 0 5 3 (polling sent camp)).line 0).sent = [displayFrame 5 15 d] ∧
      ctxOf (pushDisplay 0 5 3) online = online ∧
      ctxOf (handNext 0 5) { online with evbuf := [anEvent 3 .void, anEvent 4 .void] } = { online with ackSeq := some 4 } ∧
      ctxOf (eventWalk 0 5 [anEvent 4 .checkIn]) online = { online with outstanding := some (anEvent 4 .checkIn, some 0) } := by
  decide +kernel

theorem witness_AnnounceIsPlacedOnEachLine :
    codeOf 3 (.announce 0 0 31 1 1) (.announce 3) camp = some .badParam ∧
      codeOf 3 (.announce 1 32 31 1 1) (.announce 3) camp = some .badParam ∧
      ((after (.announce 3) (asked 3 (.announce 15 31 31 255 255) camp)).line 0).annSlot = some ⟨3, 1, 31, 31, 255, 255⟩ ∧
      configuredAddrs (camp.line 0) ≠ [] ∧ (camp.line 0).annSlot = none ∧
      (configuredAddrs (camp.line 3) = [] ∧ (camp.line 3).phase = .idle ∧ (camp.line 3).annSlot = none ∧ (camp.line 3).annWait = []) ∧
      answered 3 (after (.announce 3) (asked 3 (.announce 8 31 31 255 255) camp)) = some (.ok, [0#8, 1#8, 0#8]) ∧
      (let j : LineJob := { port := 3, reqno := 1, announce := true, left := [0, 1], counts := [] };
        let s := camp.setJobs [j];
        s.jobs = [] ++ j :: [] ∧ (lineDone 1 3 1 true 2 s).jobs = [{ j with left := [0], counts := [(1, 2)] }] ∧
          answered 3 (lineDone 0 3 1 true 5 (lineDone 1 3 1 true 2 s)) = some (.ok, [0#8, 2#8, 5#8, 2#8])) ∧
      (Announcement.mk 3 1 4 1 0 0).hits 5 = true ∧ (Announcement.mk 3 1 4 1 0 0).hits 6 = false := by decide +kernel

theorem witness_LinesFollowTablesAndSupply :
    (handConfig ⟨[0], [], true, false⟩ camp).wires.config[lineCfg 0].head? = some ⟨[0], [], true, false⟩ ∧
      (namingRoom camp 0 5 = some 0 ∧ namingRoom camp 0 6 = none ∧ namingRoom camp 1 0 = some 2) ∧
      ((camp.ctx 0 5).pstate ≠ .unconfigured ∧ (camp.ctx 0 5).room = some 0 ∧ (camp.ctx 0 6).pstate = .unconfigured) ∧
      ((polling { online with room := some 1 } camp).ctx 0 5).room = some 1 ∧
      ((polling PanelCtx.reset camp).ctx 0 5).pstate = .unconfigured ∧ namingRoom State.reset 0 5 = none ∧
      ((supplied (lineIx 0) (.state .quiet) camp).wires.supply[lineIx 0].head? = some (.state .quiet) ∧ (camp.line 0).resetWait = []) ∧
      ((after (.lineSupplyChange 0) (supplied (lineIx 0) (.state .retain) camp)).line 0).phase = .stopped ∧
      ((after (.lineWarmStart 0) (supplied (lineIx 0) .warmStart camp)).ctx 0 5).pstate = .offline ∧
      (after (.lineWarmStart 0) (supplied (lineIx 0) .warmStart camp)).wires.fromLine[(0 : Line)] = [(5, .loss 0)] ∧
      (let waits := camp.setLine 0 { camp.line 0 with resetWait := [(3, 1)] };
        (after (.lineWarmStart 0) (supplied (lineIx 0) .warmStart waits)).wires.fromLine[(0 : Line)] = [(5, .down 0), (5, .loss 0)]) ∧
      (let jobs : List LineJob := [⟨1, 1, true, [0, 1], []⟩, ⟨1, 2, true, [1], []⟩];
        (after (.lineWarmStart 0) (supplied (lineIx 0) .warmStart (camp.setJobs jobs))).jobs = [⟨1, 2, true, [1], []⟩]) := by decide +kernel

/-! ### The occupancy unit -/

/-- A line unit's message about address 5 of line 0. -/
def told (m : LineMsg) (s : State) : State := handOcu 0 5 m s

theorem witness_PresenceIsConfirmedByPairs :
    takeAddr 5 (told (.presence 0 0 .occupied (some .occupied)) camp).wires.fromLine[(0 : Line)] =
        some (.presence 0 0 .occupied (some .occupied), []) ∧ camp.ocu.era ≤ 0 ∧
      (after (.presenceReport 0 5) (told (.presence 0 0 .occupied (some .occupied)) camp)).ocu.presence[(0 : Room)] = .occupied ∧
      (after (.presenceReport 0 5) (told (.presence 0 0 .occupied none) camp)).ocu.presence[(0 : Room)] = .unknown ∧
      (after (.presenceReport 0 5) (told (.presence 0 0 .vacant (some .vacant)) busy)).ocu.presence[(0 : Room)] = .vacant ∧
      (after (.presenceReport 0 5) (told (.presence 0 0 .fault (some .fault)) busy)).ocu.presence[(0 : Room)] = .unknown ∧
      busy.ocu.presence[(0 : Room)] = .occupied ∧
      (after (.panelDown 0 5) (told (.down 0) busy)).ocu.presence[(0 : Room)] = .unknown ∧
      (after (.panelUp 0 5) (told (.up 0) busy)).ocu.presence[(0 : Room)] = .occupied ∧
      (queued.ocu.queue.any (fun x => x.origin = .ghost && x.room = 0) = true ∧ (withdrawGhost 0 queued).ocu.queue = [] ∧
        queued.ocu.queue.any (fun x => x.origin = .ghost && x.room = 1) = false) ∧
      allItems (testPresence 0 (met (meeting .confirmed 2987 4) camp)) = [plainItem .presence 0 .panelCheckin] ∧
      allItems (testPresence 0 (testPresence 0 (met (meeting .confirmed 2987 4) camp))) = [plainItem .presence 0 .panelCheckin] ∧
      (readForPresence 0 (met { meeting .confirmed 2987 4 with faults := 1 } camp)).book.corrected = 1 ∧
      presenceTest (met (meeting .confirmed 2987 4) camp) 0 = true ∧ presenceTest (met (meeting .confirmed 2986 4) camp) 0 = false := by
  decide +kernel

/-- 06 R110: a report handed before the stop leaves PRESENCE UNKNOWN once OCU has taken its indication of RETAIN. -/
theorem test_report_of_before_the_stop_has_no_effect :
    (after (.presenceReport 0 5) (after .ocuSupplyChange
      (supplied ocuIx (.state .retain) (told (.presence 0 0 .occupied (some .occupied)) busy)))).ocu.presence[(0 : Room)] = .unknown := by
  decide +kernel

/-- A panel's check-in, presented to the book. -/
def checkItem : Item :=
  { origin := .panel, room := 0, request := .panelCheckin, badge := none, slots := none, source := some ⟨0, 5, 2, .checkIn⟩ }

def awaiting : State := camp.setOcu { camp.ocu with presented := some checkItem }

theorem witness_PanelEventsAndTheirOutcomes :
    takeAddr 5 (told (.event 0 (anEvent 3 .checkIn)) camp).wires.fromLine[(0 : Line)] = some (.event 0 (anEvent 3 .checkIn), []) ∧
      (after (.panelEvent 0 5) (told (.event 0 (anEvent 3 (.reportIssue 15))) camp)).wires.toLine[(0 : Line)] = [(5, .verdict 3 true)] ∧
      EvKind.request .checkIn = some (.panelCheckin, none, none) ∧ State.reset.clockSet .ocu = false ∧ camp.clockSet .ocu = true ∧
      (after (.panelEvent 0 5) (told (.event 0 (anEvent 3 .checkIn)) camp)).ocu.presented.isSome = true ∧
      (awaiting.ocu.presented = some checkItem ∧ checkItem.fromPanel 0 5 = true) ∧
      (after (.panelEvent 0 5) (told (.event 0 (anEvent 3 .checkIn)) awaiting)).wires.toLine[(0 : Line)] = [(5, .verdict 3 false)] ∧
      ((handOutcome .nothing awaiting).wires.outcome = some .nothing ∧
        feedbackOf checkItem.request .nothing = some (.nothingToCheckIn, true)) ∧
      (5, .verdict 2 true) ∈ (after .bookOutcome (handOutcome .nothing awaiting)).wires.toLine[(0 : Line)] ∧
      (after .bookOutcome (handOutcome .nothing awaiting)).ocu.feedback[(0 : Room)] = some (.nothingToCheckIn, 2990) ∧
      (handOutcome .checkedIn queued).wires.outcome = some .checkedIn ∧ (plainItem .presence 0 .panelCheckin).origin = .presence ∧
      (plainItem .ghost 0 .ghostRelease).origin = .ghost := by decide +kernel

/-- An unpresented item of the panel, replaced by a new event of it, and an issue report's notice (06 R111, R114). -/
theorem witness_PanelItemIsReplaced :
    let s := told (.event 0 (anEvent 3 .endNow)) (camp.setOcu
      { camp.ocu with presented := some (plainItem .presence 0 .panelCheckin), queue := [checkItem] })
    let t := after (.panelEvent 0 5) s
    let issue := told (.event 0 (anEvent 3 (.reportIssue 15))) camp
    takeAddr 5 s.wires.fromLine[(0 : Line)] = some (.event 0 (anEvent 3 .endNow), []) ∧
      s.ocu.presented = some (plainItem .presence 0 .panelCheckin) ∧ (plainItem .presence 0 .panelCheckin).fromPanel 0 5 = false ∧
      s.clockSet .ocu = true ∧ checkItem ∈ s.ocu.queue ∧ checkItem.fromPanel 0 5 = true ∧
      t.wires.toLine[(0 : Line)] = [(5, .verdict 2 false)] ∧
      t.ocu.queue = [{ checkItem with request := .endNow, source := some ⟨0, 5, 3, .endNow⟩ }] ∧
      takeAddr 5 issue.wires.fromLine[(0 : Line)] = some (.event 0 (anEvent 3 (.reportIssue 15)), []) ∧
      (after (.panelEvent 0 5) issue).wires.notices[producerIx .ocu] =
        [⟨⟨.issueReport, ⟨10, 540⟩, none, none, some 0, some ⟨0, 5⟩, 15⟩, true, none, none⟩] := by decide +kernel

theorem witness_DisplayRecordsAreComposedAndHanded :
    (State.reset.clockSet .ocu = false ∧ (camp.roomRec 9).cap = 0) ∧
      (shown (met (meeting .active 2986 4) camp) 0).roomState = .inUse ∧ (shown (met (meeting .held 2986 4) camp) 0).roomState = .heldNext ∧
      (shown (met (meeting .block 2986 4) camp) 0).roomState = .outOfService ∧
      (shown (met (meeting .confirmed 2990 4) camp) 0).roomState = .checkinOpen ∧
      (shown (met (meeting .confirmed 2999 4) camp) 0).roomState = .bookedNext ∧
      (shown (met (meeting .confirmed 3000 4) camp) 0).roomState = .freeUntil ∧ (shown (met (meeting .confirmed 3168 4) camp) 0).roomState = .free ∧
      (shown camp 0).roomState = .free ∧ (camp.roomRec 1).panel = none ∧ (camp.roomRec 0).panel = some ⟨0, 5⟩ ∧
      camp.ocu.lastDisplay[(0 : Room)] ≠ some (compose camp 0) ∧
      (handDisplay 0 ⟨0, 5⟩ (compose camp 0) camp).ocu.lastDisplay[(0 : Room)] = some (compose camp 0) := by decide +kernel

theorem witness_DisplayRecordsAreComposedAndHanded_fields :
    let s := linked (fun r => { r with order := some id4 }) (met (meeting .active 2986 4) camp)
    let shows (o : OrderRec) := (compose (ordered o s) 0).catering
    ((compose s 0).label = 100 ∧ (compose s 0).meeting = some 1 ∧ (compose s 0).catering = .none ∧ (compose camp 0).meeting = none) ∧
      shows (orderOf .due 15120 []) = .onWay ∧ shows (orderOf .committed 15120 []) = .preparing ∧
      shows (orderOf .placed 15120 []) = .none ∧ shows { orderOf .due 15120 [] with late := true } = .late ∧
      (compose (met { meeting .active 2986 4 with cateringDelivered := true } camp) 0).catering = .delivered := by decide +kernel

theorem witness_OcuFollowsIndicationsAndSupply :
    (handSched 0 camp).wires.sched = 0 :: [] ∧ (handOrderInd 0 camp).wires.orders = 0 :: [] ∧
      takeAddr 5 (told (.loss 0) camp).wires.fromLine[(0 : Line)] = some (.loss 0, []) ∧
      (after (.displayLoss 0 5) (told (.loss 0) camp)).wires.toLine[(0 : Line)] = [(5, .display (compose camp 0))] ∧
      ((setFeedback 0 .ok camp).ocu.feedback[(0 : Room)] = some (.ok, 2990) ∧ ¬2990 ≤ camp.ocuSlot ∧
        2990 ≤ (clocked 550 camp).ocuSlot ∧ ((clocked 550 camp).now .ocu).minute % 5 = 0) ∧
      (handConfig ⟨[0], [0], true, false⟩ camp).wires.config[ocuCfg].head? = some ⟨[0], [0], true, false⟩ ∧
      (supplied ocuIx (.state .retain) busy).wires.supply[ocuIx].head? = some (.state .retain) ∧
      (after .ocuSupplyChange (supplied ocuIx (.state .retain) busy)).ocu.presence[(0 : Room)] = .unknown ∧
      (supplied ocuIx .stop queued).wires.supply[ocuIx].head? = some .stop ∧ (after .ocuStop (supplied ocuIx .stop queued)).ocu.presented = none ∧
      (supplied ocuIx .warmStart busy).wires.supply[ocuIx].head? = some .warmStart ∧
      (let s := setFeedback 0 .ok (camp.setOcu { camp.ocu with ghostRec := put camp.ocu.ghostRec 0 (some id3) });
        let t := after .ocuWarmStart (supplied ocuIx .warmStart s);
        t.ocu.feedback[(0 : Room)] = none ∧ t.ocu.ghostRec[(0 : Room)] = some id3) := by decide +kernel

/-- A meeting under way in room 0, the room VACANT at one boundary so far. -/
def ghostly : State :=
  let s := met (meeting .active 2986 4) camp
  s.setOcu { s.ocu with
    presence := put s.ocu.presence 0 .vacant, ghostCount := put s.ocu.ghostCount 0 1, ghostRec := put s.ocu.ghostRec 0 (some id3) }

theorem witness_OcuTakesASlotBoundary :
    (timed .ocu (.tick ⟨10, 541⟩) camp).timeHead .ocu = some (.tick ⟨10, 541⟩) ∧
      (timed .ocu (.tick ⟨10, 545⟩) camp).timeHead .ocu = some (.tick ⟨10, 545⟩) ∧ countedRecord camp 2988 0 = none ∧
      (countedRecord ghostly 2988 0 = some id3 ∧ (ghostly.attrOf 0).h = 2) ∧
      (ghostCountOne 2988 ghostly 0).ocu.ghostCount[(0 : Room)] = 2 ∧
      allItems (ghostCountOne 2988 ghostly 0) = [plainItem .ghost 0 .ghostRelease] ∧
      allItems (ghostCountOne 2988 (met (meeting .active 2986 4) camp) 0) = [] ∧
      allItems (ghostCountOne 2988 (ghostly.setOcu { ghostly.ocu with queue := [plainItem .ghost 0 .ghostRelease] }) 0) =
        [plainItem .ghost 0 .ghostRelease] ∧
      (readForGhost 2988 0 (met { meeting .active 2986 4 with faults := 1 } camp)).book.corrected = 1 ∧
      (ghostly.schedule 0 = [⟨2986, 2990, 3, .port 0, .active⟩] ∧ (ghostly.bookRec 3).body.unverified = false ∧ ghostly.handle 3 = id3 ∧
        countedRecord ghostly 2986 0 = some id3 ∧ countedRecord ghostly 2989 0 = some id3 ∧ countedRecord ghostly 2990 0 = none ∧
        countedRecord (met { meeting .active 2986 4 with unverified := true } camp) 2988 0 = none) := by decide +kernel

/-! ### The kitchen planner -/

/-- Order parameters: 5 light covers from the room's primary kitchen at the start of the meeting. -/
def prm5 : OrderParam := ⟨5, 0, 0, 0, 0⟩

/-- A booking message at the head of the planner's lane. -/
def toPlan (m : BookMsg) (s : State) : State := handPlanner m s

/-- A day-12 minute (today + 2), a minute of today that a kitchen can still make, and one that leaves no bucket. -/
def farMinute : Int := 17280
def nearMinute : Int := 15120
def soonMinute : Int := 14970

theorem witness_PlacementsKeepWithinCapacity :
    (camp.kpl.kitchens[(2 : Kitchen)]).enabled = false ∧ trial camp 0 5 nearMinute 2 = .error .kitchenFull ∧
      trial camp 0 5 soonMinute 0 = .error .tooSoon ∧ trial camp 0 5 nearMinute 0 = .ok ⟨0, 1007, [(1006, 5)]⟩ ∧
      trial camp 0 80 nearMinute 0 = .ok ⟨0, 1007, [(1003, 20), (1004, 20), (1005, 20), (1006, 20)]⟩ ∧
      trial camp 0 81 nearMinute 0 = .error .kitchenFull ∧
      placement camp 0 .primary false 81 nearMinute = .error .kitchenFull ∧ (camp.roomRec 1).k2 = none ∧
      (camp.roomRec 0).k2 = some 1 ∧ placement camp 0 (.kitchen 2) true 5 nearMinute = .ok ⟨1, 1007, [(1006, 5)]⟩ ∧
      (ordered (orderOf .placed nearMinute [(1006, 5)]) camp).load 0 1006 = 5 ∧
      (freeOrderRec 4 (ordered (orderOf .placed nearMinute [(1006, 5)]) camp)).load 0 1006 = 0 ∧
      (orderOf .deferred farMinute []).contribs = [] ∧ (OrderRec.blank 0).kitchen = none ∧
      (orderOf .placed nearMinute [(1006, 5)]).kitchen = some 0 := by decide +kernel

theorem witness_OrderRequests :
    let un := ordered { orderOf .unplaced nearMinute [] with kitchen := none } camp
    let placed := ordered (orderOf .placed nearMinute [(1006, 5)]) camp
    let due := ordered (orderOf .due nearMinute []) camp
    un.clockSet .kpl = true ∧ Waits (asked 0 (.orderRetry id4) un) 0 (.orderRetry id4) ∧
      NamedOrder (asked 0 (.orderRetry id4) un) id4 (un.orderRec 4) ∧ codeOf 0 (.orderRetry id4) (.orderRetry 0) un = some .ok ∧
      (codeOf 0 (.orderRetry id4) (.orderRetry 0) State.reset = some .clockUnset ∧ resolveOrder id4 camp = none ∧
        codeOf 0 (.orderRetry id4) (.orderRetry 0) camp = some .unknown ∧ codeOf 0 (.orderCancel id4) (.orderCancel 0) camp = some .unknown ∧
        codeOf 2 (.markDelivered id4) (.markDelivered 2) camp = some .unknown) ∧
      codeOf 0 (.orderRetry id4) (.orderRetry 0) placed = some .badState ∧
      codeOf 0 (.orderRetry id4) (.orderRetry 0) (setOrder 4 { un.orderRec 4 with owner := 1 } un) = some .denied ∧
      codeOf 0 (.orderRetry id4) (.orderRetry 0) (setOrder 4 { un.orderRec 4 with kreq := .kitchen 2 } un) = some .kitchenFull ∧
      codeOf 0 (.orderCancel id4) (.orderCancel 0) (setOrder 4 { un.orderRec 4 with owner := 1 } un) = some .denied ∧
      codeOf 0 (.orderCancel id4) (.orderCancel 0) placed = some .ok ∧
      (after (.orderCancel 0) (asked 0 (.orderCancel id4) placed)).wires.toBook = [.orderEnded id3 id4 false] ∧
      codeOf 0 (.orderCancel id4) (.orderCancel 0) due = some .cateringCommitted ∧
      codeOf 2 (.markDelivered id4) (.markDelivered 2) due = some .ok ∧
      codeOf 2 (.markDelivered id4) (.markDelivered 2) placed = some .badState := by decide +kernel

theorem witness_PlannerTakesATick :
    let placed := ordered (orderOf .placed nearMinute [(996, 5)]) camp
    let committed := ordered { orderOf .committed nearMinute [] with departure := some 996 } camp
    camp.kpl.deferred = [] ∧ (timed .kpl (.tick ⟨10, 555⟩) camp).timeHead .kpl = some (.tick ⟨10, 555⟩) ∧
      (timed .kpl (.tick ⟨11, 0⟩) camp).timeHead .kpl = some (.tick ⟨11, 0⟩) ∧
      ((placed.orderRec 4).live = true ∧ (camp.now .kpl).minute % 15 = 0) ∧
      ((after (.orderCommit 4) placed).orderRec 4).state = .committed ∧
      ((after (.orderCommit 4) (ordered (orderOf .placed nearMinute [(997, 5)]) camp)).orderRec 4).state = .placed ∧
      ((after (.orderDispatch 4) committed).orderRec 4).state = .due ∧
      ((after (.orderDispatch 4) (ordered { orderOf .committed nearMinute [] with departure := some 997 } camp)).orderRec 4).state =
        .committed ∧
      ((after (.lateMarking 4) (ordered (orderOf .committed 14930 []) camp)).orderRec 4).late = true ∧
      ((after (.lateMarking 4) (ordered (orderOf .committed 14931 []) camp)).orderRec 4).late = false ∧
      (let s := ordered (orderOf .placed nearMinute [(1006, 5), (1007, 2)]) camp;
        ((dropPassed 1007 4 s).orderRec 4).contribs = [(1007, 2)] ∧ (dropPassed 1007 4 s).load 0 1006 = 0 ∧
          (dropPassed 1007 4 s).load 0 1007 = 2) ∧
      (let s := setOrder 4 (orderOf .deferred nearMinute []) camp;
        ((placeDeferred s 4).orderRec 4).contribs = [(1006, 5)] ∧
          ((placeDeferred (setOrder 4 { s.orderRec 4 with units := 81 } s) 4).orderRec 4).state = .unplaced) ∧
      (let stale := setOrder 4 { orderOf .committed 15839 [] with orphaned := true, booking := none } camp;
        ((plannerRollover 11 stale).orderRec 4).live = false ∧
          ((plannerRollover 11 (setOrder 4 { stale.orderRec 4 with delivery := 15840 } stale)).orderRec 4).live = true) ∧
      camp.kpl.method ≠ .rollover ∧ dueBefore 13 farMinute = true ∧ dueBefore 12 farMinute = false := by
  decide +kernel

theorem witness_AttachCreatesAnOrder :
    ((toPlan (.attach 7 id3 0 3024 3028 prm5 0) camp).wires.toPlanner.head? = some (.attach 7 id3 0 3024 3028 prm5 0) ∧
        camp.kpl.frozen = false ∧ camp.clockSet .kpl = true ∧ prm5.judge = some ⟨5, .light, .primary, 0, false⟩) ∧
      State.reset.clockSet .kpl = false ∧ State.reset.kpl.frozen = false ∧ (OrderParam.mk 201 0 0 0 0).judge = none ∧
      (OrderParam.mk 200 0 0 (-6) 1).judge = some ⟨200, .light, .primary, -6, true⟩ ∧
      ((after .attach (toPlan (.attach 7 id3 0 3024 3028 prm5 0) (camp.setKpl { camp.kpl with frozen := true }))).wires.toPlanner = [] ∧
        (after .attach (toPlan (.attach 7 id3 0 3024 3028 prm5 0) (camp.setKpl { camp.kpl with frozen := true }))).wires.toBook = []) ∧
      (let s := setOrder 4 (orderOf .deferred 17280 []) (setOrder 2 (orderOf .deferred 17285 []) (setOrder 6 (orderOf .deferred 17280 []) camp));
        (joinDeferred 4 (joinDeferred 6 (joinDeferred 2 s))).kpl.deferred = [4, 6, 2]) ∧
      ((3024 * 5 : Nat) : Int) + 0 * 5 = nearMinute ∧ nearMinute < ((3028 * 5 : Nat) : Int) ∧
      ((3028 * 5 : Nat) : Int) ≤ ((3024 * 5 : Nat) : Int) + 4 * 5 ∧ camp.freeOrder = some 0 ∧
      (camp.setKpl { camp.kpl with orders := Vector.replicate 512 { OrderRec.blank 0 with live := true } }).freeOrder = none ∧
      dueBefore (camp.kplDay + 2) nearMinute = true ∧ dueBefore (camp.kplDay + 2) (3456 * 5) = false ∧
      (after .attach (toPlan (.attach 7 id3 0 3024 3028 prm5 0) camp)).wires.toBook = [.attachOk 7 id3 ⟨0, 0⟩] ∧
      ((after .attach (toPlan (.attach 7 id3 0 3456 3460 prm5 0) camp)).orderRec 0).state = .deferred ∧
      (after .attach (toPlan (.attach 7 id3 0 2994 2998 prm5 0) camp)).wires.toBook = [.attachFailed 7 id3 .tooSoon] := by decide +kernel

theorem witness_MoveReplacesTheOrder :
    let near := BookMsg.move 7 id3 id4 0 3036 3040 (some 4)
    let far := BookMsg.move 7 id3 id4 0 3456 3460 (some 4)
    let soon := BookMsg.move 7 id3 id4 0 2994 2998 (some 4)
    let of_ (o : OrderRec) (m : BookMsg) := (after .move (toPlan m (ordered o camp)))
    let placed := orderOf .placed nearMinute [(1006, 5)]
    let un := { orderOf .unplaced nearMinute [] with kitchen := none }
    camp.kpl.frozen = false ∧ (toPlan near camp).wires.toPlanner.head? = some near ∧ resolveOrder id4 camp = none ∧
      (NamedOrder (toPlan near (ordered placed camp)) id4 placed ∧ placed.booking = some id3) ∧
      (of_ { placed with booking := some ⟨5, 0⟩ } near).wires.toBook = [.moveAnswer 7 id3 id4 none] ∧
      (of_ { placed with offset := 4 } near).wires.toBook = [.moveAnswer 7 id3 id4 (some .badParam)] ∧
      (of_ (orderOf .committed nearMinute []) near).wires.toBook = [.moveAnswer 7 id3 id4 (some .cateringCommitted)] ∧
      ((of_ un far).orderRec 4).state = .deferred ∧ ((of_ un near).orderRec 4).delivery = 15180 ∧
      ((of_ { un with state := .deferred } far).orderRec 4).delivery = farMinute ∧
      ((of_ { un with state := .deferred } near).orderRec 4).contribs = [(1010, 5)] ∧
      (of_ { un with state := .deferred } soon).wires.toBook = [.moveAnswer 7 id3 id4 (some .kitchenFull)] ∧
      ((of_ placed far).orderRec 4).state = .deferred ∧ ((of_ placed near).orderRec 4).contribs = [(1010, 5)] ∧
      (of_ placed soon).wires.toBook = [.moveAnswer 7 id3 id4 (some .kitchenFull)] ∧
      (after .move (toPlan near (handBook (.moveAnswer 6 id3 id4 none) (ordered placed camp)))).wires.toPlanner = [near] ∧
      ((of_ placed near).orderRec 4).undo = some ⟨.placed, some 0, nearMinute, 1008, some 1005, [(1006, 5)], false⟩ ∧
      (after .move (toPlan near (camp.setKpl { camp.kpl with frozen := true }))).wires.toBook = [] := by decide +kernel

/-- A placed order that a move took to the far days. -/
def undone : OrderRec :=
  { orderOf .deferred farMinute [] with
    kitchen := none, departure := none, undo := some ⟨.placed, some 0, nearMinute, 1008, some 1007, [(1006, 5)], false⟩ }

theorem witness_BookingMessagesAndThePath :
    let placed := orderOf .placed nearMinute [(1006, 5)]
    let due := orderOf .due nearMinute []
    let s := ordered undone camp
    placed.booking = some id3 ∧ (toPlan (.bookingLeft id3 id4) (ordered placed camp)).wires.toPlanner.head? = some (.bookingLeft id3 id4) ∧
      NamedOrder (toPlan (.bookingLeft id3 id4) (ordered placed camp)) id4 placed ∧
      (after .bookingLeft (toPlan (.bookingLeft id3 id4) camp)).wires.toBook = [.notFound id3 id4] ∧
      ((after .bookingLeft (toPlan (.bookingLeft id3 id4) (ordered placed camp))).orderRec 4).live = false ∧
      ((after .bookingLeft (toPlan (.bookingLeft id3 id4) (ordered due camp))).orderRec 4).orphaned = true ∧
      resolveOrder id4 camp = none ∧ ((after .dropOrder (toPlan (.dropOrder id3 id4) (ordered placed camp))).orderRec 4).live = false ∧
      (after .bookingLeft (toPlan (.bookingLeft id3 id4) (camp.setKpl { camp.kpl with frozen := true }))).wires.toBook = [] ∧
      (after .reseat (toPlan (.reseat id3 id4 1) camp)).wires.toBook = [.notFound id3 id4] ∧
      ((after .reseat (toPlan (.reseat id3 id4 1) (ordered placed camp))).orderRec 4).room = 1 ∧
      (supplied pathIx .stop (handBook (.moveAnswer 7 id3 id4 none) s)).wires.supply[pathIx].head? = some .stop ∧
      ((after .pathStop (supplied pathIx .stop (handBook (.moveAnswer 7 id3 id4 none) s))).orderRec 4).state = .placed ∧
      (let open_ := supplied pathIx .stop (handBook (.moveAnswer 7 id3 id4 none)
          (s.setBook { s.book with exchanges := [⟨7, id3, some (0, 1), some (⟨2996, 4⟩, none)⟩] }));
        (after .pathStop open_).wires.toBook = [.moveAnswer 7 id3 id4 none] ∧
          (after .pathStop (supplied rbkIx .stop open_)).wires.toBook = []) ∧
      (NamedOrder s id4 undone ∧ undone.undo.isSome = true ∧ placed.undo = none ∧ s.kplBucket < 1006) ∧
      ((restoreOrder id4 s).load 0 1006 = 5 ∧ ((restoreOrder id4 s).orderRec 4).contribs = [(1006, 5)]) ∧
      (let reached (d : Nat) := ordered { undone with undo := some ⟨.placed, some 0, 14985, 999, some d, [(996, 5)], false⟩ } camp;
        ((restoreOrder id4 (reached 997)).orderRec 4).state = .committed ∧ ((restoreOrder id4 (reached 996)).orderRec 4).state = .due) ∧
      ((after .moveAnswerTaken (s.setWires { s.wires with taken := [id4] })).orderRec 4).undo = none ∧
      ((after .moveAnswerTaken ((handBook (.moveAnswer 7 id3 id4 none) s).setWires
        { (handBook (.moveAnswer 7 id3 id4 none) s).wires with taken := [id4] })).orderRec 4).undo.isSome = true := by decide +kernel

/-! ### Notices, ports and the supply -/

/-- A notice of room 0 from the book, owned by port 0. -/
def aNotice (k : NoticeKind) (owner cause : Option Port) : HandedNotice :=
  ⟨{ kind := k, date := ⟨0, 0⟩, booking := none, order := none, room := some 0, panel := none, detail := 0 }, false, owner, cause⟩

def noticed (n : HandedNotice) (s : State) : State :=
  s.setWires { s.wires with notices := put s.wires.notices (producerIx .rbk) [n] }

/-- One notice of a producer waits that was handed before the warm start began. -/
def noticedBefore (i : Fin 9) (s : State) : State :=
  s.setWires { s.wires with noticesBefore := put s.wires.noticesBefore i 1 }

/-- Every port is STOPPED. -/
def stoppedPorts (s : State) : State := s.setPorts (mapV (fun r => { r with link := .stopped }) s.ports)

/-- The queue of port 1 holds that many notices. -/
def holding (n : Nat) : State :=
  camp.setNrt { camp.nrt with queues := put camp.nrt.queues 1 (List.replicate n (aNotice .changed none none).note) }

theorem witness_NoticesAreRoutedAndFetched :
    (noticed (aNotice .changed (some 1) none) camp).wires.notices[producerIx .rbk] = aNotice .changed (some 1) none :: [] ∧
      ((after (.notice .rbk) (noticed (aNotice .changed (some 1) none) (holding 31))).nrt.queues[(1 : Port)]).length = 32 ∧
      (after (.notice .rbk) (noticed (aNotice .changed (some 1) none) (holding 32))).nrt.lost[(1 : Port)] = true ∧
      (after (.notice .rbk) (noticed (aNotice .changed (some 1) (some 1)) (holding 0))).nrt.queues[(1 : Port)] = [] ∧
      ((after (.notice .rbk) (noticed (aNotice .recordDamaged none none) (holding 0))).nrt.queues[(3 : Port)]).length = 1 ∧
      Waits (asked 1 (.fetchNotices 0) (holding 9)) 1 (.fetchNotices 0) ∧
      codeOf 1 (.fetchNotices 9) (.fetchNotices 1) (holding 9) = some .badParam ∧
      ((after (.fetchNotices 1) (asked 1 (.fetchNotices 8) (holding 9))).nrt.queues[(1 : Port)]).length = 1 ∧
      (let s := stoppedPorts (holding 9);
        (supplied nrtIx .warmStart s).wires.supply[nrtIx].head? = some .warmStart ∧ (∀ i : Fin 9, s.wires.noticesBefore[i] = 0) ∧
          (∀ p : Port, (s.ports[p]).link = .stopped ∧ SupplyMsg.complete ∉ s.wires.supply[portIx p]) ∧
          (let early := supplied nrtIx .warmStart (noticedBefore (producerIx .rbk) (noticed (aNotice .changed none none) s));
            (after .noticeWarmStart early).nrt.lost[(0 : Port)] = false ∧
              (after .noticeWarmStart (after (.notice .rbk) early)).nrt.lost[(0 : Port)] = true) ∧
          (after .noticeWarmStart (supplied nrtIx .warmStart (noticed (aNotice .changed none none) s))).nrt.lost[(0 : Port)] = true ∧
          (after .noticeWarmStart (supplied nrtIx .warmStart (supplied (portIx 3) .complete s))).nrt.lost[(0 : Port)] = false ∧
          (let t := after .noticeWarmStart (supplied nrtIx .warmStart s);
            t.nrt.lost[(0 : Port)] = true ∧ t.wires.qlens[(0 : Port)] = [] ∧ t.wires.qlens[(1 : Port)] = [0])) ∧
      (after .noticeWarmStart (supplied nrtIx .warmStart (holding 9))).nrt.lost[(0 : Port)] = false := by decide +kernel

/-- Port 3 after a change of its record. -/
def port3 (f : PortRec → PortRec) : State := camp.setPort 3 (f (camp.ports[(3 : Port)]))

/-- CONFIRM of record 7, SET_POWER QUIET and CLEAR_LINE_STATS of no line, as frames. -/
def confirmOctets : List Byte := [6#8, 41#8, 12#8, 0x00#8, 0xE0#8, 229#8]
def powerOctets : List Byte := [5#8, 9#8, 39#8, 1#8, 202#8]

theorem witness_PortsTakeTransactions :
    ((port3 (fun r => { r with link := .stopped })).ports[(3 : Port)]).link = .stopped ∧
      (let s := port3 (fun r => { r with link := .stopped, state := .ready });
        (after (.responseTransaction 3 6) s).ports[(3 : Port)] = s.ports[(3 : Port)]) ∧ (camp.ports[(3 : Port)]).link = .open ∧
      (camp.ports[(3 : Port)]).state = .idle ∧ ((port3 (fun r => { r with state := .pending })).ports[(3 : Port)]).state ≠ .idle ∧
      readFrame [] = none ∧ confirmOctets ≠ [] ∧ readFrame powerOctets = some (.setPower 1) ∧
      (requestFrame 41#8 (.confirm ⟨7, 0⟩) = confirmOctets ∧ requestFrame 9#8 (.setPower 1) = powerOctets ∧
        (Request.confirm ⟨7, 0⟩).fits = true ∧ (Request.setPower 256).fits = false) ∧
      (Request.setPower 1).permitted .gateway = false ∧ (Request.setPower 1).permitted .facilities = true ∧
      (Request.setPower 1).badLines = false ∧ (Request.clearLineStats 0).permitted .facilities = true ∧
      (Request.clearLineStats 0).badLines = true ∧
      ((after (.requestTransaction 0 powerOctets) camp).ports[(0 : Port)]).response = some ⟨9#8, .denied, []⟩ ∧
      ((after (.requestTransaction 3 powerOctets) camp).ports[(3 : Port)]).state = .pending ∧
      (let s := port3 (fun r => { r with state := .ready, response := some ⟨9#8, .ok, [1#8]⟩ });
        (s.ports[(3 : Port)]).response = some ⟨9#8, .ok, [1#8]⟩ ∧ (eResponse ⟨9#8, .ok, [1#8]⟩ false).length = 6 ∧
          ((after (.responseTransaction 3 6) s).ports[(3 : Port)]).state = .idle ∧
          ((after (.responseTransaction 3 5) s).ports[(3 : Port)]).state = .ready) := by decide +kernel

theorem witness_PortsTakeAnswersAndStops :
    let s := port3 (fun r => { r with state := .pending, reqno := 7 })
    let answering (n : Fin 256) := s.setWires { s.wires with answers := put s.wires.answers 3 [⟨n, .ok, []⟩] }
    s.wires.answers[(3 : Port)] = [] ∧ (answering 7).wires.answers[(3 : Port)] = ⟨7, .ok, []⟩ :: [] ∧
      ((after (.ownerAnswer 3) (answering 7)).ports[(3 : Port)]).state = .ready ∧
      ((after (.ownerAnswer 3) (answering 8)).ports[(3 : Port)]).state = .pending ∧
      (s.setWires { s.wires with qlens := put s.wires.qlens 3 [32] }).wires.qlens[(3 : Port)] = 32 :: [] ∧
      (supplied (portIx 3) .stop s).wires.supply[portIx 3].head? = some .stop ∧
      ((after (.portStop 3) (supplied (portIx 3) .stop s)).ports[(3 : Port)]).link = .stopped ∧
      (supplied (portIx 3) .stop (port3 (fun r => { r with link := .stopped }))).wires.supply[portIx 3].head? = some .stop ∧
      (after (.portStop 3) (supplied (portIx 3) .stop (asked 3 (.setQuiet 0 1 1) s))).wires.requests[(3 : Port)] = [] ∧
      (supplied (portIx 3) .complete s).wires.supply[portIx 3].head? = some .complete ∧
      (let u := supplied (portIx 3) .complete
          (s.setWires { s.wires with qlens := put s.wires.qlens 3 [2, 0] } |>.setPort 3 { s.ports[(3 : Port)] with qlen := 1 });
        let t := after (.portWarmStartComplete 3) u;
        (t.ports[(3 : Port)]).state = .idle ∧ (t.ports[(3 : Port)]).attention = false ∧ t.wires.qlens[(3 : Port)] = []) := by
  decide +kernel

/-- The supply unit with a quiet schedule from 20:00 to 07:00, in a state. -/
def quieting (x : SState) (auto : Bool) : State :=
  camp.setPwc { camp.pwc with qStart := 1200, qEnd := 420, auto := auto, sstate := x }

theorem witness_SupplyMovesAreHandedOn :
    (Waits (asked 3 (.setPower 2) camp) 3 (.setPower 2) ∧ Waits (asked 3 (.setPower 1) camp) 3 (.setPower 1) ∧ camp.pwc.phase = .open ∧
        camp.pwc.sstate = .run) ∧
      codeOf 3 (.setPower 2) (.setPower 3) camp = some .badParam ∧ codeOf 3 (.setPower 0) (.setPower 3) camp = some .ok ∧
      (after (.setPower 3) (asked 3 (.setPower 1) camp)).pwc.sstate = .quiet ∧
      (timed .pwc (.tick ⟨10, 1200⟩) (quieting .run true)).timeHead .pwc = some (.tick ⟨10, 1200⟩) ∧
      (after .quietStart (timed .pwc (.tick ⟨10, 1200⟩) (quieting .run true))).pwc.sstate = .quiet ∧
      (after .quietStart (timed .pwc (.tick ⟨10, 1200⟩) (quieting .retain true))).pwc.sstate = .retain ∧
      (after .quietEnd (timed .pwc (.tick ⟨11, 420⟩) (quieting .quiet true))).pwc.sstate = .run ∧
      (after .quietEnd (timed .pwc (.tick ⟨11, 420⟩) (quieting .retain true))).pwc.sstate = .retain ∧
      (after .quietStart (timed .pwc (.tick ⟨10, 1200⟩) (quieting .run false))).pwc.sstate = .run ∧
      (after .quietStart (timed .pwc (.tick ⟨10, 1199⟩) (quieting .run true))).pwc.sstate = .run ∧
      (let w (n : Nat) : SupplyWait := ⟨3, 1, #v[0, 0, 0, 0, n]⟩;
        let s := camp.setPwc { camp.pwc with waits := [w 0, w 1] };
        answered 3 (settleSupply s) = some (.ok, []) ∧ (settleSupply s).pwc.waits = [w 1] ∧
          (popSupply ocuIx s).pwc.waits = [w 0, w 0] ∧ (popSupply nrtIx s).pwc.waits = [w 0, w 1]) := by decide +kernel

/-- The supply unit in a phase. -/
def phased (x : Phase) (c : Option StartCause) : State := camp.setPwc { camp.pwc with phase := x, startCause := c }

theorem witness_PowerFailAndWarmStarts :
    ((phased .stopped none).pwc.phase = .stopped ∧ camp.pwc.phase ≠ .stopped ∧ camp.pwc.sstate ≠ .retain ∧
        (quieting .retain true).pwc.phase ≠ .stopped) ∧
      (after .powerFailAssert camp).pwc.sstate = .retain ∧ (after .powerFailAssert (quieting .retain true)).pwc.lastCause = none ∧
      (after .powerFailRelease (phased .stopped none)).pwc.phase = .starting ∧ (after .warmReset camp).pwc.phase = .starting ∧
      ((after .warmReset (noticed (aNotice .changed none none) camp)).wires.noticesBefore[producerIx .rbk] = 1 ∧
        (after .warmReset camp).wires.noticesBefore[producerIx .pwc] = 0) ∧
      (after .powerFailRelease camp).pwc.phase = .open ∧ (after .warmReset (phased .starting (some .warmReset))).pwc.phase = .starting ∧
      (after .warmStartComplete (after .warmReset camp)).pwc.phase = .starting ∧
      (∀ i : Fin 12, i ∈ warmTakers → SupplyMsg.warmStart ∉ (phased .starting (some .powerReturn)).wires.supply[i]) ∧
      (after .warmStartComplete (phased .starting (some .powerReturn))).pwc.phase = .open := by decide +kernel

end Sys2Proof.Tests
end

/-! PROOFS. STAGE_DISCARD (02 R32). -/

namespace Sys2Proof.Machine

@[simp] theorem State.took_rzt (s : State) (p : Port) (rest : List HandedRequest) : (s.took p rest).rzt = s.rzt := rfl

/-- STAGE_DISCARD belongs to FACILITIES in the permission columns (09 R184). -/
theorem permitted_stageDiscard {role : Role} {table : Nat} :
    (Request.stageDiscard table).permitted role = true ↔ role = .facilities := by
  simp only [Request.permitted, decide_eq_true_eq]

theorem exec_stageDiscard (p : Port) (s : State) : exec (.stageDiscard p) s = execStageDiscard p s := rfl

/-- RZT takes a STAGE_DISCARD that is at the front of a port's list. -/
theorem exec_stageDiscard_of_asks {p : Port} {h : HandedRequest} {rest : List HandedRequest} {s : State} {table : Nat}
    (asks : s.asks p h rest) (req : h.req = .stageDiscard table) :
    exec (.stageDiscard p) s = .next (stageDiscardWork (h.asker p) table (s.took p rest)) := by
  rw [exec_stageDiscard, execStageDiscard, onRequest_of_front asks (a := table) (by rw [req])]
  rfl

theorem stageDiscardWork_of_two_lt {q : Asker} {table : Nat} {s : State} (unnamed : 2 < table) :
    stageDiscardWork q table s = reply q .badParam [] s := if_pos unnamed

/-- The staged copies that the codes 0 ROOMS, 1 ZONES and 2 BOTH name fall back to the active ones, and the others stay. -/
theorem stageDiscardWork_of_le_two {q : Asker} {table : Nat} {s : State} (named : table ≤ 2) :
    stageDiscardWork q table s = reply q .ok [] (s.setRzt
      { s.rzt with
        stagedRooms := if table = 0 ∨ table = 2 then s.rzt.rooms else s.rzt.stagedRooms
        roomMethod := if table = 0 ∨ table = 2 then .none else s.rzt.roomMethod
        stagedZones := if table = 1 ∨ table = 2 then s.rzt.zones else s.rzt.stagedZones
        zoneMethod := if table = 1 ∨ table = 2 then .none else s.rzt.zoneMethod }) := by
  have codes : table = 0 ∨ table = 1 ∨ table = 2 := by omega
  obtain rooms | zones | both := codes
  · subst rooms; rfl
  · subst zones; rfl
  · subst both; rfl

/-- Settles O16: RZT takes the request whole, and its work is given by the code of the table. -/
theorem stageDiscardDoesR32 : Obligations.StageDiscardDoesR32 := by
  intro p h rest s table asks req
  refine ⟨fun _ => permitted_stageDiscard, fun unnamed => ?_, fun named => ?_⟩
  · rw [exec_stageDiscard_of_asks asks req, stageDiscardWork_of_two_lt unnamed]
    rfl
  · rw [exec_stageDiscard_of_asks asks req, stageDiscardWork_of_le_two named, State.took_rzt]
    rfl

end Sys2Proof.Machine

/-! PROOFS. The choice of the pool selector (04 R71, R72). -/

namespace Sys2Proof.Machine

/-! ## Candidates -/

/-- Two spans that do not overlap lie one after the other (03 R39). -/
theorem overlaps_eq_false {e : Entry} {sp : Span} :
    e.overlaps sp = false ↔ e.stop ≤ sp.start ∨ sp.start + sp.len ≤ e.start := by
  simp only [Entry.overlaps, Bool.and_eq_false_iff, decide_eq_false_iff_not, not_lt]
  exact or_comm

theorem busy_eq_false {s : State} {r : Room} {sp : Span} :
    s.busy r sp = false ↔ ∀ e ∈ s.schedule r, e.stop ≤ sp.start ∨ sp.start + sp.len ≤ e.start := by
  simp only [State.busy, List.any_eq_false, Bool.not_eq_true, overlaps_eq_false]

theorem candidate_iff {s : State} {c : Choice} {r : Room} :
    candidate s c r = true ↔
      s.zoneOf r = c.zone ∧ c.attendees ≤ (s.roomRec r).cap ∧
        (∀ e ∈ s.schedule r, e.stop ≤ c.span.start ∨ c.span.start + c.span.len ≤ e.start) ∧ c.excluded ≠ some r := by
  simp only [candidate, Bool.and_eq_true, decide_eq_true_eq, Bool.not_eq_true', busy_eq_false, bne_iff_ne, and_assoc]

theorem cap_of_candidate {s : State} {c : Choice} {r : Room} (fits : candidate s c r = true) :
    c.attendees ≤ (s.roomRec r).cap := by
  obtain ⟨_, large, _, _⟩ := candidate_iff.mp fits
  exact large

/-! ## The score -/

/-- The bound of a score (04 R72): the highest usage, and the highest weight on the most empty places, 65535 + 15 * 254. -/
theorem score_le {s : State} {c : Choice} {r : Room} (usage : s.psl.usage[r] ≤ 65535) (weight : (s.zoneAttr c.zone).w ≤ 15)
    (cap : (s.roomRec r).cap ≤ 255) (someone : 1 ≤ c.attendees) : score s c r ≤ 69345 := by
  have places : (s.roomRec r).cap - c.attendees ≤ 254 := by omega
  calc score s c r
      ≤ 65535 + 15 * 254 := Nat.add_le_add usage (Nat.mul_le_mul weight places)
    _ = 69345 := rfl

/-! ## The choice -/

/-- In a strictly ascending list the place of an element follows its order. -/
theorem idxOf_le_idxOf_iff_of_sortedLT {α : Type} [LinearOrder α] {l : List α} (asc : l.SortedLT) {a b : α} (ha : a ∈ l) (hb : b ∈ l) :
    l.idxOf a ≤ l.idxOf b ↔ a ≤ b :=
  (asc.getIso l).symm.le_iff_le (x := ⟨a, ha⟩) (y := ⟨b, hb⟩)

/-- Over a strictly ascending list the minimum is the least element of those with the lowest value. -/
theorem argmin_eq_some_iff_of_sortedLT {α : Type} [LinearOrder α] {f : α → Nat} {l : List α} (asc : l.SortedLT) {m : α} :
    l.argmin f = some m ↔ m ∈ l ∧ ∀ a ∈ l, f m < f a ∨ (f m = f a ∧ m ≤ a) := by
  rw [← Option.mem_def, List.mem_argmin_iff, ← forall₂_and]
  refine and_congr_right fun hm => forall₂_congr fun a ha => ?_
  rw [idxOf_le_idxOf_iff_of_sortedLT asc hm ha]
  constructor
  · rintro ⟨lowest, first⟩
    exact lowest.lt_or_eq.imp_right fun tie => ⟨tie, first tie.ge⟩
  · rintro (lower | ⟨tie, first⟩)
    · exact ⟨lower.le, fun higher => absurd lower higher.not_gt⟩
    · exact ⟨tie.le, fun _ => first⟩

/-- Keeping the better room with its score is keeping the first room of the lowest score. -/
theorem better_map (f : Room → Nat) (best : Option Room) (r : Room) :
    better (best.map fun b => (b, f b)) r (f r) = (List.argAux (fun x y => f x < f y) best r).map fun b => (b, f b) := by
  cases best with
  | none => rfl
  | some b => by_cases lower : f r < f b <;> simp [better, List.argAux, lower]

/-- The candidates, in the order in which they are looked at: by ascending index. -/
def candidates (s : State) (c : Choice) : List Room := (List.finRange 128).filter (candidate s c)

@[simp] theorem mem_candidates {s : State} {c : Choice} {r : Room} : r ∈ candidates s c ↔ candidate s c r = true := by
  simp only [candidates, List.mem_filter, List.mem_finRange, true_and]

theorem sortedLT_candidates (s : State) (c : Choice) : (candidates s c).SortedLT :=
  ((List.sortedLT_finRange 128).pairwise.filter _).sortedLT

/-- The choice is the library's `argmin` over the candidates, given with its score. -/
theorem choose_eq_argmin (s : State) (c : Choice) :
    choose s c = ((candidates s c).argmin (score s c)).map fun r => (r, score s c r) :=
  List.foldl_hom (Option.map fun r => (r, score s c r)) (init := none) (better_map (score s c))

theorem choose_eq_none_iff {s : State} {c : Choice} : choose s c = none ↔ ∀ r, candidate s c r = false := by
  rw [choose_eq_argmin, Option.map_eq_none_iff, List.argmin_eq_none, List.eq_nil_iff_forall_not_mem]
  simp only [mem_candidates, Bool.not_eq_true]

theorem choose_eq_some_iff {s : State} {c : Choice} {r : Room} {n : Nat} :
    choose s c = some (r, n) ↔
      candidate s c r = true ∧ n = score s c r ∧
        ∀ r', candidate s c r' = true → score s c r < score s c r' ∨ (score s c r = score s c r' ∧ r.val ≤ r'.val) := by
  simp only [choose_eq_argmin, Option.map_eq_some_iff, Prod.mk.injEq,
    argmin_eq_some_iff_of_sortedLT (sortedLT_candidates s c), mem_candidates]
  constructor
  · rintro ⟨_, ⟨fits, best⟩, rfl, rfl⟩
    exact ⟨fits, rfl, best⟩
  · rintro ⟨fits, rfl, best⟩
    exact ⟨r, ⟨fits, best⟩, rfl, rfl⟩

/-- Settles O20: the choice is the first minimum of the score over the candidates in ascending order. -/
theorem choiceFollowsR71AndR72 : Obligations.ChoiceFollowsR71AndR72 :=
  ⟨fun _ _ _ => candidate_iff, fun _ _ =>
    ⟨fun _ fits => ⟨cap_of_candidate fits, rfl, score_le⟩, fun _ _ => choose_eq_some_iff, choose_eq_none_iff⟩⟩

end Sys2Proof.Machine

/-! PROOFS. The reference and the distance of an event (05 R91). -/

namespace Sys2Proof.Machine

/-! ## The reference -/

/-- The last event of EVBUF comes before OUTSTANDING and the acknowledged sequence. -/
theorem reference_of_evbuf_concat {c : PanelCtx} {es : List PEvent} {e : PEvent} (buffered : c.evbuf = es ++ [e]) :
    c.reference = some e.seq := by
  simp only [PanelCtx.reference, buffered, List.getLast?_concat]

theorem reference_of_evbuf_nil {c : PanelCtx} (empty : c.evbuf = []) :
    c.reference = (c.outstanding.map fun o => o.1.seq).or c.ackSeq := by
  simp only [PanelCtx.reference, empty, List.getLast?_nil]

/-! ## The distance -/

@[simp] theorem distance_none (q : Seq) : distance none q = 1 := rfl

/-- Sequences count modulo 16, so the distance is the difference wrapped into 0..15. -/
theorem distance_some (r q : Seq) : distance (some r) q = (q.val + 16 - r.val) % 16 :=
  calc distance (some r) q
      = (16 - r.val + q.val) % 16 := Fin.val_sub q r
    _ = (q.val + 16 - r.val) % 16 := by rw [add_comm, Nat.add_sub_assoc r.isLt.le q.val]

theorem distance_some_le (r q : Seq) : distance (some r) q ≤ 15 := Nat.le_of_lt_succ (q - r).isLt

/-! ## New events and repeats -/

theorem isRepeat_eq_true {ref : Option Seq} {q : Seq} :
    isRepeat ref q = true ↔ distance ref q = 0 ∨ 9 ≤ distance ref q := by
  simp only [isRepeat, Bool.or_eq_true, decide_eq_true_eq]

/-- New is what is no repeat: the distances 1 to 8 are those left between 0 and 9. -/
theorem isRepeat_eq_false {ref : Option Seq} {q : Seq} :
    isRepeat ref q = false ↔ 1 ≤ distance ref q ∧ distance ref q ≤ 8 := by
  rw [← Bool.not_eq_true, isRepeat_eq_true]
  omega

/-- With no reference every event is new, since its distance is then 1. -/
@[simp] theorem isRepeat_none (q : Seq) : isRepeat none q = false :=
  isRepeat_eq_false.mpr (by rw [distance_none]; decide)

/-- Settles O37: the reference by what the context holds, and new events and repeats by the distance modulo 16. -/
theorem referenceAndDistanceFollowR91 : Obligations.ReferenceAndDistanceFollowR91 := by
  refine ⟨fun c => ⟨fun _ _ => reference_of_evbuf_concat, fun empty o out => ?_, fun empty out => ?_⟩,
    fun r q => ⟨distance_some r q, distance_some_le r q, isRepeat_eq_false, isRepeat_eq_true⟩,
    fun q => ⟨isRepeat_none q, distance_none q⟩⟩
  · rw [reference_of_evbuf_nil empty, out]
    rfl
  · rw [reference_of_evbuf_nil empty, out]
    rfl

end Sys2Proof.Machine

/-! PROOFS. Every command goes on, within the parts listed for it (00, How the blocks work together). -/

namespace Sys2Proof.Machine

/-- What a block does with its time-set stays within the parts listed for that block's command. -/
theorem only_onTimeSet {b : TimedBlock} {s t : State} :
    Only (touches (.timeSet b)) s (onTimeSet b t) ↔ Only (touches (.timeSet b)) s t := by
  cases b <;> simp [touches, onTimeSet]

theorem only_onExpiry {b : TimedBlock} {s t : State} :
    Only (touches (.expiryIndication b)) s (onExpiry b t) ↔ Only (touches (.expiryIndication b)) s t := by
  cases b <;> simp [touches, onExpiry]

/-- Taking a time-set or the expiry indication is within the parts of every command that a block's time message gives. -/
theorem parts_of_time (b : TimedBlock) :
    (.times ∈ touches (.timeSet b) ∧ .ctu ∈ touches (.timeSet b) ∧ .wires ∈ touches (.timeSet b)) ∧
      .times ∈ touches (.expiryIndication b) ∧ .ctu ∈ touches (.expiryIndication b) ∧ .wires ∈ touches (.expiryIndication b) := by
  cases b <;> decide

theorem only_execTimeSet (b : TimedBlock) (s : State) :
    ∃ t, exec (.timeSet b) s = .next t ∧ Only (touches (.timeSet b)) s t := by
  obtain ⟨⟨ht, hc, hw⟩, _⟩ := parts_of_time b
  refine ⟨_, rfl, ?_⟩
  repeat' split
  all_goals simp [only_onTimeSet, ht, hc, hw]

theorem only_execExpiryIndication (b : TimedBlock) (s : State) :
    ∃ t, exec (.expiryIndication b) s = .next t ∧ Only (touches (.expiryIndication b)) s t := by
  obtain ⟨_, ht, hc, hw⟩ := parts_of_time b
  refine ⟨_, rfl, ?_⟩
  split
  all_goals simp [only_onExpiry, ht, hc, hw]

/-- Power-on reset replaces every part but the queue of waiting commands. -/
theorem only_execPowerOnReset (s0 s1 s2 s3 : BitVec 2) (powerFail : Bool) (s : State) :
    ∃ t, exec (.powerOnReset s0 s1 s2 s3 powerFail) s = .next t ∧ Only (touches (.powerOnReset s0 s1 s2 s3 powerFail)) s t := by
  have fresh (t : State) (queue : t.pending = s.pending) : Only (touches (.powerOnReset s0 s1 s2 s3 powerFail)) s t := by
    intro part other
    cases part
    case pending => exact queue
    all_goals exact absurd (by simp [touches]) other
  refine ⟨_, rfl, ?_⟩
  dsimp only
  split
  · exact (only_powerFailWork (by simp [touches]) (by simp [touches])).mpr (fresh _ rfl)
  · exact fresh _ rfl

/-- Every command has one next state, reached within its parts. Those that take nothing but the front of a list do the work named for it,
and their frame is that of the work; the others first ask for their occasion. -/
theorem exec_within_parts (c : Instr) (s : State) : ∃ t, exec c s = .next t ∧ Only (touches c) s t := by
  cases c with
  | powerOnReset s0 s1 s2 s3 powerFail => exact only_execPowerOnReset s0 s1 s2 s3 powerFail s
  | timeSet b => exact only_execTimeSet b s
  | expiryIndication b => exact only_execExpiryIndication b s
  | panelCheckin | endNow | extend | walkup | ghostRelease =>
    refine ⟨_, rfl, (only_onOcuRequest (by simp [touches]) fun _ _ => only_giveOutcome (by simp [touches]) fun _ => ?_).mpr (.refl _ _)⟩
    simp [touches]
  | bookConfigApplied =>
    exact ⟨_, rfl, (only_takeConfig (by simp [touches]) (by simp [touches]) fun _ _ =>
      only_foldl _ (fun _ _ => only_reevaluate (by simp [touches]) (by simp [touches])) _ _).mpr (.refl _ _)⟩
  | ocuConfigApplied =>
    exact ⟨_, rfl, (only_takeConfig (by simp [touches]) (by simp [touches]) fun _ _ =>
      only_foldl _ (fun _ _ => only_configRoom (by simp [touches]) (by simp [touches]) (by simp [touches])) _ _).mpr (.refl _ _)⟩
  | lineConfigApplied =>
    refine ⟨_, rfl, (only_takeConfig (by simp [touches]) (by simp [touches]) fun _ u => ?_).mpr (.refl _ _)⟩
    simp [touches, only_foldl]
  | verdict | displayRecord =>
    refine ⟨_, rfl, (only_takeFromOcu (by simp [touches]) fun _ u => ?_).mpr (.refl _ _)⟩
    split <;> simp [touches]
  | lineSupplyChange | ocuSupplyChange | portStop =>
    refine ⟨_, rfl, (only_takeSupply (by simp [touches]) (by simp [touches]) fun _ u => ?_).mpr (.refl _ _)⟩
    split <;> simp [touches]
  | noticeWarmStart =>
    refine ⟨_, rfl, ?_⟩
    split
    · exact (only_takeSupply (by simp [touches]) (by simp [touches]) fun _ _ =>
        only_foldl _ (fun _ _ => only_emptyQueue (by simp [touches]) (by simp [touches])) _ _).mpr (.refl _ _)
    · exact .refl _ _
  | _ =>
    refine ⟨_, rfl, ?_⟩
    try dsimp only
    repeat' split
    all_goals simp [touches, only_takeTick, only_takeSupply, only_onRequest, only_onBookRequest, only_takeFromLine, only_takePlan,
      only_takeBookMsg, only_foldl]

/-- Settles O2: the frame of each command, from the frames of the operations it is made of. -/
theorem everyCommandGoesOnWithinItsParts : Obligations.EveryCommandGoesOnWithinItsParts := exec_within_parts

/-- A command leaves alone each part that is not listed for it. -/
theorem agree_of_exec {c : Instr} {s t : State} {part : Part} (run : exec c s = .next t) (other : part ∉ touches c) : agree part s t := by
  obtain ⟨u, goes, only⟩ := exec_within_parts c s
  cases goes.symm.trans run
  exact only part other

end Sys2Proof.Machine

/-! PROOFS. What is taken from the front of a list, once for each kind of list: what holds with nothing taken, and with something taken,
holds of the state reached. And what every step keeps, from what every command and every idle period keep. -/

namespace Sys2Proof.Machine

variable {I : State → Prop} {α : Type} {s : State}

/-! ## Taking -/

theorem takeTick_cases {b : TimedBlock} {want : Clock → Bool} {work : Clock → State → State} (stay : I s)
    (take : ∀ c, s.timeHead b = some (.tick c) → want c = true → I (settleTime (work c (s.ticked b c)))) :
    I (takeTick b want work s) := by
  unfold takeTick
  split
  · split
    · exact take _ ‹_› ‹_›
    · exact stay
  · exact stay

theorem takeConfig_cases {i : Fin 6} {work : ConfigSignal → State → State} (stay : I s)
    (take : ∀ g, s.wires.config[i].head? = some g → I (settleConfig (work g (popConfig i s)))) : I (takeConfig i work s) := by
  unfold takeConfig
  split
  · exact take _ ‹_›
  · exact stay

theorem takeSupply_cases {i : Fin 12} {sel : SupplyMsg → Option α} {work : α → State → State} (stay : I s)
    (take : ∀ m a, s.wires.supply[i].head? = some m → sel m = some a → I (settleSupply (work a (popSupply i s)))) :
    I (takeSupply i sel work s) := by
  unfold takeSupply
  split
  · next a selected =>
    obtain ⟨m, head, chosen⟩ := Option.bind_eq_some_iff.mp selected
    exact take m a head chosen
  · exact stay

theorem onRequest_cases {p : Port} {sel : Request → Option α} {work : Asker → α → State → State} (stay : I s)
    (take : ∀ (h : HandedRequest) a rest, sel h.req = some a → I (work (h.asker p) a (s.took p rest))) : I (onRequest p sel work s) := by
  have selected : ∀ (l : List HandedRequest) x, takeHanded sel l = some x → sel x.1.1.req = some x.1.2 := by
    intro l
    induction l with
    | nil => exact fun _ none => nomatch none
    | cons h t ih =>
      intro x taken
      simp only [takeHanded] at taken
      split at taken
      · cases taken
        assumption
      · obtain ⟨y, found, rfl⟩ := Option.map_eq_some_iff.mp taken
        exact ih y found
  unfold onRequest
  split
  · exact take _ _ _ (selected _ _ ‹_›)
  · exact stay

theorem onBookRequest_cases {p : Port} {sel : Request → Option α} {work : Asker → α → State → State} (stay : I s)
    (take : ∀ (h : HandedRequest) q a rest, sel q = some a → I (work (h.asker p) a (s.bookTook p rest))) : I (onBookRequest p sel work s) := by
  unfold onBookRequest
  repeat' split
  · exact take _ _ _ _ ‹_›
  all_goals exact stay

theorem onOcuRequest_cases {req : OcuRequest} {work : Item → State → State} (stay : I s)
    (take : ∀ it, s.ocu.presented = some it → it.request = req → I (work it (setGrant .ocu s))) : I (onOcuRequest req work s) := by
  unfold onOcuRequest
  repeat' split
  · exact take _ ‹_› ‹_›
  all_goals exact stay

theorem takeFromOcu_cases {l : Line} {a : Addr} {sel : OcuMsg → Option α} {work : α → State → State} (stay : I s)
    (take : ∀ x rest, I (work x (s.setWires { s.wires with toLine := put s.wires.toLine l rest }))) : I (takeFromOcu l a sel work s) := by
  unfold takeFromOcu
  repeat' split
  · exact take _ _
  all_goals exact stay

theorem takeFromLine_cases {l : Line} {a : Addr} {sel : LineMsg → Option α} {work : α → State → State} (stay : I s)
    (take : ∀ x rest, I (work x (s.setWires { s.wires with fromLine := put s.wires.fromLine l rest }))) :
    I (takeFromLine l a sel work s) := by
  unfold takeFromLine
  repeat' split
  · exact take _ _
  all_goals exact stay

/-! ## Steps -/

/-- An agreement on a part that a frame gives. -/
theorem Only.agree {ps : List Part} {s t : State} (h : Only ps s t) (part : Part) (other : part ∉ ps) : agree part s t := h part other

/-- A property that no waiting command has a part in, and that an idle period and every command keep, is kept by every step. -/
theorem step_keeps (queue : ∀ (s : State) (rest : List Instr), I s → I { s with pending := rest })
    (idle : ∀ s, I s → I (onePeriod s)) (command : ∀ c s t, I s → exec c s = .next t → I t) :
    ∀ s t : State, I s → step s = .next t → I t := by
  intro s t holds run
  unfold step at run
  split at run
  · exact command _ _ _ (queue _ _ holds) run
  · cases run
    exact idle s holds

/-- Of a command the idle period is no more than its clock and what it hands on. -/
theorem only_idle (s : State) : Only [.ctu, .wires] s (onePeriod s) :=
  (only_onePeriod (by decide) (by decide)).mpr (.refl _ _)

end Sys2Proof.Machine

/-! PROOFS. What a command makes of the port records (09, The port record; R183). -/

namespace Sys2Proof.Machine

open Host

/-- RESPONSE is present in READY, and only there; a stopped port may have lost it. -/
def PortRec.legal (r : PortRec) : Prop :=
  (r.response.isSome = true → r.state = .ready) ∧ (r.link = .open → r.state = .ready → r.response.isSome = true)

theorem portsLegal_iff {s : State} : PortsLegal s ↔ ∀ p : Port, (s.ports[p]).legal := .rfl

/-- The second record has the role of the first, and is legal if the first is. -/
def PortRec.Follows (r r' : PortRec) : Prop := r'.role = r.role ∧ (r.legal → r'.legal)

theorem PortRec.Follows.refl (r : PortRec) : r.Follows r := ⟨rfl, id⟩

theorem PortRec.Follows.trans {a b c : PortRec} (h : a.Follows b) (k : b.Follows c) : a.Follows c :=
  ⟨k.1.trans h.1, fun legal => k.2 (h.2 legal)⟩

/-- Every port record follows the one before. -/
def PortsFollow (s t : State) : Prop := ∀ p : Port, (s.ports[p]).Follows t.ports[p]

theorem PortsFollow.of_eq {s t : State} (same : t.ports = s.ports) : PortsFollow s t := fun p => by
  rw [same]
  exact .refl _

theorem PortsFollow.trans {s t u : State} (h : PortsFollow s t) (k : PortsFollow t u) : PortsFollow s u :=
  fun p => (h p).trans (k p)

theorem PortsFollow.setPort {s t : State} {p : Port} {r : PortRec} (same : t.ports = s.ports) (follows : (s.ports[p]).Follows r) :
    PortsFollow s (t.setPort p r) := fun j => by
  rw [State.setPort_ports, same, put_get]
  split
  · next e => exact e ▸ follows
  · exact .refl _

/-! ## The records that the operations write -/

section
variable {r : PortRec}

/-- A record that keeps PORT_STATE, RESPONSE and LINK is as legal as it was. -/
theorem PortRec.Follows.of_same {r' : PortRec} (role : r'.role = r.role) (state : r'.state = r.state)
    (response : r'.response = r.response) (link : r'.link = r.link) : r.Follows r' := by
  refine ⟨role, fun legal => ?_⟩
  unfold PortRec.legal at *
  rwa [state, response, link]

theorem PortRec.Follows.of_ready {r' : PortRec} {x : Response} (role : r'.role = r.role) (state : r'.state = .ready)
    (response : r'.response = some x) : r.Follows r' :=
  ⟨role, fun _ => ⟨fun _ => state, fun _ _ => by rw [response]; rfl⟩⟩

theorem PortRec.Follows.of_no_response {r' : PortRec} (role : r'.role = r.role) (response : r'.response = none)
    (quiet : r'.state ≠ .ready ∨ r'.link = .stopped) : r.Follows r' := by
  refine ⟨role, fun _ => ⟨fun some => ?_, fun link state => ?_⟩⟩
  · rw [response] at some
    cases some
  · obtain other | stopped := quiet
    · exact absurd state other
    · rw [stopped] at link
      cases link

/-- In IDLE a legal record has no response, so a request may make it PENDING as it is. -/
theorem PortRec.Follows.of_idle {r' : PortRec} (role : r'.role = r.role) (idle : r.state = .idle) (state : r'.state = .pending)
    (response : r'.response = r.response) : r.Follows r' := by
  refine ⟨role, fun legal => ⟨fun some => ?_, fun _ ready => ?_⟩⟩
  · have ready := legal.1 (response ▸ some)
    rw [idle] at ready
    cases ready
  · rw [state] at ready
    cases ready

end

/-! ## The operations -/

section
variable (p : Port) (s : State)

theorem clockOut_follows (octets : List Byte) : PortsFollow s (clockOut p octets s) :=
  .setPort rfl (.of_same rfl rfl rfl rfl)

theorem answerItself_follows (tag : Byte) (code : Code) : PortsFollow s (answerItself p tag code s) :=
  .setPort rfl (.of_ready rfl rfl rfl)

theorem handRequest_follows (tag : Byte) (req : Request) (idle : (s.ports[p]).state = .idle) :
    PortsFollow s (handRequest p tag req s) :=
  .setPort (t := s) rfl (.of_idle rfl idle rfl rfl)

theorem judgeFrame_follows (octets : List Byte) (idle : (s.ports[p]).state = .idle) : PortsFollow s (judgeFrame p octets s) := by
  unfold judgeFrame
  dsimp only
  repeat' split
  · exact answerItself_follows _ _ _ _
  · exact answerItself_follows _ _ _ _
  · exact answerItself_follows _ _ _ _
  · exact handRequest_follows _ _ _ _ idle

theorem portStop_follows : PortsFollow s (portStop p s) :=
  .setPort (t := s) rfl (.of_no_response rfl rfl (.inr rfl))

theorem portOpen_follows : PortsFollow s (portOpen p s) :=
  .setPort (t := s) rfl (.of_no_response rfl rfl (.inl (by simp)))

end

/-! ## The commands -/

section
variable {p : Port} {s t : State}

theorem requestTransaction_follows {octets : List Byte} (run : exec (.requestTransaction p octets) s = .next t) : PortsFollow s t := by
  cases run
  dsimp only
  have word := clockOut_follows p s (statusWord s.ports[p])
  split
  · split
    · next idle =>
      split
      · exact word
      · exact word.trans (judgeFrame_follows _ _ _ (by simpa [clockOut] using idle))
    · exact word.trans (.setPort rfl (.of_same rfl rfl rfl rfl))
    · exact word.trans (.setPort rfl (.of_same rfl rfl rfl rfl))
  · exact .of_eq rfl

theorem responseTransaction_follows {clocked : Nat} (run : exec (.responseTransaction p clocked) s = .next t) : PortsFollow s t := by
  cases run
  dsimp only
  split
  · split
    · split
      · exact (clockOut_follows _ _ _).trans (.setPort rfl (.of_no_response rfl rfl (.inl (by simp))))
      · exact clockOut_follows _ _ _
    · exact clockOut_follows _ _ _
  · exact .of_eq rfl

theorem ownerAnswer_follows (run : exec (.ownerAnswer p) s = .next t) : PortsFollow s t := by
  cases run
  split
  · dsimp only
    split
    · exact .setPort rfl (.of_ready rfl rfl rfl)
    · exact .of_eq rfl
  · exact .of_eq rfl

theorem portStopCommand_follows (run : exec (.portStop p) s = .next t) : PortsFollow s t := by
  cases run
  refine takeSupply_cases (.of_eq rfl) fun _ _ _ _ => ?_
  split
  · exact (PortsFollow.of_eq (popSupply_ports _ _)).trans ((portStop_follows _ _).trans (.of_eq (settleSupply_ports _)))
  · exact .of_eq ((settleSupply_ports _).trans (popSupply_ports _ _))

theorem portWarmStartComplete_follows (run : exec (.portWarmStartComplete p) s = .next t) : PortsFollow s t := by
  cases run
  refine takeSupply_cases (.of_eq rfl) fun _ _ _ _ => ?_
  exact (PortsFollow.of_eq (popSupply_ports _ _)).trans ((portOpen_follows _ _).trans (.of_eq (settleSupply_ports _)))

/-- Every command but power-on reset leaves the roles, and legal records legal. -/
theorem exec_portsFollow {c : Instr} (started : ∀ s0 s1 s2 s3 f, c ≠ .powerOnReset s0 s1 s2 s3 f) (run : exec c s = .next t) :
    PortsFollow s t := by
  cases c with
  | powerOnReset s0 s1 s2 s3 f => exact absurd rfl (started s0 s1 s2 s3 f)
  | statusTransaction p code =>
    cases run
    split
    · exact clockOut_follows _ _ _
    · exact .of_eq rfl
  | requestTransaction p octets => exact requestTransaction_follows run
  | responseTransaction p clocked => exact responseTransaction_follows run
  | ownerAnswer p => exact ownerAnswer_follows run
  | queueLengthReport p =>
    cases run
    split
    · exact .setPort rfl (.of_same rfl rfl rfl rfl)
    · exact .of_eq rfl
  | portStop p => exact portStopCommand_follows run
  | portWarmStartComplete p => exact portWarmStartComplete_follows run
  | timeSet b | expiryIndication b =>
    have same := agree_of_exec (part := .ports) run (by cases b <;> simp [touches])
    exact .of_eq same
  | _ =>
    have same := agree_of_exec (part := .ports) run (by simp [touches])
    exact .of_eq same

end

end Sys2Proof.Machine

/-! PROOFS. What a command makes of SSTATE, PHASE and START_CAUSE (10, What the controller holds), and what power-on reset starts. -/

namespace Sys2Proof.Machine

open Host

/-! ## Handing on leaves the controller -/

section
variable (is : List (Fin 12)) (m : SupplyMsg) (s : State)

/-- A message handed to several receivers: those named get it once for each time they are named, in order. -/
theorem handSupplyTo_supply (i : Fin 12) :
    (handSupplyTo is m s).wires.supply[i] = s.wires.supply[i] ++ List.replicate (is.count i) m := by
  induction is generalizing s with
  | nil => simp [handSupplyTo]
  | cons j is ih =>
    have rest := ih (handSupply j m s)
    unfold handSupplyTo at rest ⊢
    rw [List.foldl_cons, rest]
    by_cases here : j = i
    · subst here
      simp [handSupply, List.replicate_succ]
    · have other := modAt_get_other s.wires.supply (f := (· ++ [m])) here
      simp_all [handSupply]

@[simp] theorem handSupplyTo_pwc : (handSupplyTo is m s).pwc = s.pwc := by
  obtain ⟨x, e⟩ := handSupplyTo_eq (m := m) (s := s) is
  rw [e, State.setWires_pwc]

@[simp] theorem handSupplyTo_times : (handSupplyTo is m s).times = s.times := by
  obtain ⟨x, e⟩ := handSupplyTo_eq (m := m) (s := s) is
  rw [e, State.setWires_times]

@[simp] theorem handStop_pwc : (handStop s).pwc = s.pwc := handSupplyTo_pwc _ _ _

@[simp] theorem supplyNotice_pwc (x : SState) (c : Cause) (p : Option Port) : (supplyNotice x c p s).pwc = s.pwc := rfl

@[simp] theorem enterState_pwc (x : SState) (c : Cause) :
    (enterState x c s).pwc = { s.pwc with sstate := x, lastCause := some c, lastChange := some (s.now .pwc) } :=
  handSupplyTo_pwc _ _ _

@[simp] theorem changeState_pwc (x : SState) (c : Cause) (p : Option Port) :
    (changeState x c p s).pwc = { s.pwc with sstate := x, lastCause := some c, lastChange := some (s.now .pwc) } := by
  rw [changeState, supplyNotice_pwc, enterState_pwc]

@[simp] theorem beginWarmStart_pwc (c : StartCause) :
    (beginWarmStart c s).pwc = { s.pwc with phase := .starting, startCause := some c } :=
  handSupplyTo_pwc _ _ _

end

/-! ## The condition -/

theorem SupplyLegal.of_eq {s t : State} (legal : SupplyLegal s) (phase : t.pwc.phase = s.pwc.phase)
    (sstate : t.pwc.sstate = s.pwc.sstate) (cause : t.pwc.startCause = s.pwc.startCause) : SupplyLegal t := by
  unfold SupplyLegal at *
  rwa [phase, sstate, cause]

theorem SupplyLegal.of_pwc {s t : State} (legal : SupplyLegal s) (same : t.pwc = s.pwc) : SupplyLegal t :=
  legal.of_eq (by rw [same]) (by rw [same]) (by rw [same])

theorem SupplyLegal.popSupply {s : State} (legal : SupplyLegal s) (i : Fin 12) : SupplyLegal (popSupply i s) := by
  obtain ⟨ws, e⟩ := popSupply_pwc i s
  exact legal.of_eq (by rw [e]) (by rw [e]) (by rw [e])

theorem SupplyLegal.settleSupply {s : State} (legal : SupplyLegal s) : SupplyLegal (settleSupply s) :=
  legal.of_eq (by rw [settleSupply_pwc]) (by rw [settleSupply_pwc]) (by rw [settleSupply_pwc])

/-- While PHASE is OPEN a change between RUN and QUIET keeps the three agreeing. -/
theorem SupplyLegal.changeState {s : State} (legal : SupplyLegal s) (x : SState) (c : Cause) (p : Option Port)
    (inOpen : s.pwc.phase = .open) (powered : x ≠ .retain) : SupplyLegal (changeState x c p s) := by
  obtain ⟨_, _, starting⟩ := legal
  rw [inOpen] at starting
  refine ⟨fun stopped => ?_, fun _ => ?_, ?_⟩
  · rw [changeState_pwc, inOpen] at stopped
    cases stopped
  · simpa using powered
  · simpa [inOpen] using starting

theorem SupplyLegal.pwcTick {s : State} (legal : SupplyLegal s) (c : Clock) : SupplyLegal (pwcTick c s) := by
  unfold Machine.pwcTick
  split
  · next due =>
    have inOpen : s.pwc.phase = .open := by simp_all
    repeat' split
    · exact legal.changeState _ _ _ inOpen (by simp)
    · exact legal.changeState _ _ _ inOpen (by simp)
    · exact legal
  · exact legal

theorem powerTarget_ne_retain {n : Nat} {x : SState} (target : powerTarget n = some x) : x ≠ .retain := by
  unfold powerTarget at target
  split at target <;> cases target <;> simp

theorem SupplyLegal.waitSupply {s : State} (legal : SupplyLegal s) (q : Asker) : SupplyLegal (waitSupply q s) :=
  legal.of_eq rfl rfl rfl

theorem SupplyLegal.setPowerWork {s : State} (legal : SupplyLegal s) (q : Asker) (n : Nat) (inOpen : s.pwc.phase = .open) :
    SupplyLegal (setPowerWork q n s) := by
  unfold Machine.setPowerWork
  split
  · exact legal.of_pwc rfl
  · next target =>
    split
    · exact legal.of_pwc rfl
    · exact (legal.changeState _ _ _ inOpen (powerTarget_ne_retain target)).waitSupply q

theorem supplyLegal_powerFailWork (s : State) : SupplyLegal (powerFailWork s) := by
  unfold powerFailWork SupplyLegal
  split <;> simp_all

theorem supplyLegal_beginWarmStart (c : StartCause) (s : State) : SupplyLegal (beginWarmStart c s) := by
  simp [SupplyLegal]

theorem supplyLegal_completeWarmStart (c : StartCause) (s : State) : SupplyLegal (completeWarmStart c s) := by
  simp [SupplyLegal, completeWarmStart]

/-! ## The commands -/

/-- A command of a receiver of the supply messages leaves SSTATE, PHASE and START_CAUSE. -/
theorem SupplyLegal.takeSupply {s : State} {α : Type} {i : Fin 12} {sel : SupplyMsg → Option α} {work : α → State → State}
    (legal : SupplyLegal s) (leaves : ∀ a u, agree .pwc u (work a u)) : SupplyLegal (takeSupply i sel work s) :=
  takeSupply_cases legal fun _ _ _ _ => ((legal.popSupply i).of_pwc (leaves _ _)).settleSupply

theorem exec_supplyLegal {c : Instr} {s t : State} (legal : SupplyLegal s) (run : exec c s = .next t) : SupplyLegal t := by
  have tick (want : Clock → Bool) : SupplyLegal (takeTick .pwc want Machine.pwcTick s) :=
    takeTick_cases legal fun c _ _ => by
      have ticked : SupplyLegal (s.ticked .pwc c) := legal.of_pwc rfl
      exact (ticked.pwcTick c).of_pwc (settleTime_pwc _)
  cases c with
  | powerOnReset =>
    cases run
    dsimp only
    split
    · exact supplyLegal_powerFailWork _
    · simp [SupplyLegal, State.powerOn, Pwc.reset]
  | quietStart | quietEnd =>
    cases run
    exact tick _
  | setPower p =>
    cases run
    split
    · next inOpen =>
      refine onRequest_cases legal fun h n rest _ => ?_
      have took : SupplyLegal (s.took p rest) := legal.of_pwc rfl
      exact took.setPowerWork _ _ inOpen
    · exact legal
  | setQuiet p =>
    cases run
    refine onRequest_cases legal fun _ _ _ _ => ?_
    unfold setQuietWork
    split
    · exact legal.of_pwc rfl
    · exact legal.of_eq rfl rfl rfl
  | powerFailAssert =>
    cases run
    split
    · exact legal
    · exact supplyLegal_powerFailWork _
  | powerFailRelease | warmReset =>
    cases run
    split
    · exact supplyLegal_beginWarmStart _ _
    · exact legal
  | warmStartComplete =>
    cases run
    repeat' split
    · exact supplyLegal_completeWarmStart _ _
    all_goals exact legal
  | bookStop =>
    cases run
    exact legal.takeSupply fun _ u => (only_bookStop (ps := [.book, .wires]) (by decide) (by decide)).mpr (.refl _ _) .pwc (by decide)
  | pathStop =>
    cases run
    exact legal.takeSupply fun _ u => (only_pathStop (ps := [.kpl, .wires]) (by decide) (by decide)).mpr (.refl _ _) .pwc (by decide)
  | lineSupplyChange l =>
    cases run
    refine legal.takeSupply fun _ u => ?_
    split
    · exact (only_abandonTurn (ps := [.lines, .jobs, .wires]) (by decide) (by decide) (by decide)).mpr (.refl _ _) .pwc (by decide)
    · rfl
  | lineWarmStart l =>
    cases run
    exact legal.takeSupply fun _ u =>
      (only_warmLine (ps := [.lines, .jobs, .wires]) (by decide) (by decide) (by decide)).mpr (.refl _ _) .pwc (by decide)
  | ocuSupplyChange =>
    cases run
    refine legal.takeSupply fun _ u => ?_
    refine ((only_recomposeAll (ps := [.ocu, .book, .wires]) (by decide) (by decide) (by decide)).mpr ?_) .pwc (by decide)
    split <;> simp
  | ocuStop =>
    cases run
    exact legal.takeSupply fun _ u => (only_ocuStop (ps := [.ocu, .wires]) (by decide) (by decide)).mpr (.refl _ _) .pwc (by decide)
  | ocuWarmStart =>
    cases run
    exact legal.takeSupply fun _ u =>
      (only_ocuWarmStart (ps := [.ocu, .book, .wires]) (by decide) (by decide) (by decide)).mpr (.refl _ _) .pwc (by decide)
  | noticeWarmStart =>
    cases run
    split
    · exact legal.takeSupply fun _ u =>
        (only_foldl _ (fun _ _ => only_emptyQueue (ps := [.nrt, .wires]) (by decide) (by decide)) _ _).mpr (.refl _ _) .pwc (by decide)
    · exact legal
  | portStop p =>
    cases run
    refine legal.takeSupply fun _ u => ?_
    split <;> rfl
  | portWarmStartComplete p =>
    cases run
    exact legal.takeSupply fun _ _ => rfl
  | timeSet b | expiryIndication b => exact legal.of_pwc (agree_of_exec (part := .pwc) run (by cases b <;> simp [touches]))
  | _ => exact legal.of_pwc (agree_of_exec (part := .pwc) run (by simp [touches]))

theorem exec_portsLegal {c : Instr} {s t : State} (legal : PortsLegal s) (run : exec c s = .next t) : PortsLegal t := by
  by_cases reset : ∃ s0 s1 s2 s3 f, c = .powerOnReset s0 s1 s2 s3 f
  · obtain ⟨s0, s1, s2, s3, f, rfl⟩ := reset
    have idle : ∀ p : Port, (t.ports[p]).response = none ∧ (t.ports[p]).state = .idle := by
      have same : t.ports = (State.powerOn #v[Role.ofStraps s0, Role.ofStraps s1, Role.ofStraps s2, Role.ofStraps s3]).ports := by
        cases run
        dsimp only
        split
        · exact (only_powerFailWork (ps := [.pwc, .wires]) (by decide) (by decide)).mpr (.refl _ _) .ports (by decide)
        · rfl
      rw [same]
      intro p
      fin_cases p <;> exact ⟨rfl, rfl⟩
    intro p
    obtain ⟨none, state⟩ := idle p
    constructor
    · intro some
      rw [none] at some
      cases some
    · intro _ ready
      rw [state] at ready
      cases ready
  · exact fun p => (exec_portsFollow (fun s0 s1 s2 s3 f e => reset ⟨s0, s1, s2, s3, f, e⟩) run p).2 (legal p)

/-- Settles O6: no command breaks the agreement of the supply's fields or of a port's, and an idle period reaches neither. -/
theorem stepKeepsSupplyAndPortsLegal : Obligations.StepKeepsSupplyAndPortsLegal :=
  ⟨step_keeps (fun _ _ legal => legal) (fun s legal => legal.of_pwc (only_idle s .pwc (by decide)))
      (fun _ _ _ => exec_supplyLegal),
    step_keeps (fun _ _ legal => legal) (fun s legal => by
      have same : (onePeriod s).ports = s.ports := only_idle s .ports (by decide)
      unfold PortsLegal
      rwa [same]) (fun _ _ _ => exec_portsLegal)⟩

end Sys2Proof.Machine

/-! PROOFS. What a command makes of the clock (01 R1 to R13). -/

namespace Sys2Proof.Machine

open Host

/-! ## Advancing -/

section
variable {c d : Clock}

/-- A minute later is a minute later, also across midnight (01 R3, R7). -/
theorem Clock.minutes_next : c.next.minutes = c.minutes + 1 := by
  unfold Clock.next Clock.minutes
  split
  · next last => simp only; omega
  · simp only; omega

theorem Clock.minute_next_le (valid : c.minute ≤ 1439) : c.next.minute ≤ 1439 := by
  unfold Clock.next
  split <;> simp only <;> omega

/-- A campus time is told by its absolute minute. -/
theorem Clock.ext_minutes (hc : c.minute ≤ 1439) (hd : d.minute ≤ 1439) (same : c.minutes = d.minutes) : c = d := by
  unfold Clock.minutes at same
  obtain ⟨cd, cm⟩ := c
  obtain ⟨dd, dm⟩ := d
  simp only at *
  obtain rfl : cd = dd := by omega
  obtain rfl : cm = dm := by omega
  rfl

/-- `n` advances take a campus time to the one `n` minutes later. -/
theorem Clock.iterate_next (valid : c.minute ≤ 1439) (n : Nat) :
    (Clock.next^[n] c).minute ≤ 1439 ∧ (Clock.next^[n] c).minutes = c.minutes + n := by
  induction n generalizing c with
  | zero => exact ⟨valid, (Nat.add_zero _).symm⟩
  | succ n ih =>
    obtain ⟨minute, minutes⟩ := ih (c := c.next) (Clock.minute_next_le valid)
    rw [Function.iterate_succ_apply]
    refine ⟨minute, ?_⟩
    rw [minutes, Clock.minutes_next]
    omega

theorem Clock.iterate_next_eq (hc : c.minute ≤ 1439) (hd : d.minute ≤ 1439) (order : c.minutes ≤ d.minutes) :
    Clock.next^[d.minutes - c.minutes] c = d := by
  obtain ⟨minute, minutes⟩ := Clock.iterate_next hc (d.minutes - c.minutes)
  exact Clock.ext_minutes minute hd (by omega)

end

/-! ## The Campus Time Unit at an advance -/

section
variable (s : State)

@[simp] theorem ctuAdvance_ctu : (ctuAdvance s).ctu = { s.ctu with clock := s.ctu.clock.next } := by
  unfold ctuAdvance
  dsimp only
  split <;> rfl

/-- Within a trim NRT may take notices, and the CTU counts the minute; its clock stands meanwhile (log 52). -/
theorem noticesInTrim_ctu : (noticesInTrim s).ctu = { s.ctu with trimmed := s.ctu.trimmed + 1 } :=
  (only_foldl _ (fun _ _ => only_takeNotice (ps := [.nrt, .wires]) (by decide) (by decide)) _ _).mpr (.refl _ _) .ctu (by decide)

theorem ctuAdvances_ctu (n : Nat) : ∃ k, (ctuAdvances n s).ctu = { s.ctu with clock := Clock.next^[n] s.ctu.clock, trimmed := k } := by
  induction n generalizing s with
  | zero => exact ⟨s.ctu.trimmed, rfl⟩
  | succ n ih =>
    match n with
    | 0 => exact ⟨s.ctu.trimmed, ctuAdvance_ctu s⟩
    | n + 1 =>
      obtain ⟨k, e⟩ := ih (noticesInTrim (ctuAdvance s))
      refine ⟨k, ?_⟩
      rw [ctuAdvances_succ_succ, e, noticesInTrim_ctu, ctuAdvance_ctu, Function.iterate_succ_apply (n := n + 1)]

@[simp] theorem waitTime_ctu (q : Asker) (b : Bool) :
    (waitTime q b s).ctu = { s.ctu with waits := s.ctu.waits ++ [⟨q.port, q.reqno, b, mapV List.length s.wires.time⟩] } := rfl

@[simp] theorem setClock_ctu (c : Clock) :
    (setClock c s).ctu = { s.ctu with clock := c, cstate := .running, slew := 0, refcount := 0 } := rfl

@[simp] theorem popTime_ctu (b : TimedBlock) :
    (popTime b s).ctu =
      { s.ctu with waits := s.ctu.waits.map (fun w => { w with left := modAt w.left (blockIx b) (· - 1) }) } := rfl

end

/-! ## The condition -/

/-- The condition on the clock reads five of the CTU's fields. -/
theorem ClockLegal.of_eq {s t : State} (legal : ClockLegal s) (clock : t.ctu.clock = s.ctu.clock)
    (cstate : t.ctu.cstate = s.ctu.cstate) (slew : t.ctu.slew = s.ctu.slew) (refcount : t.ctu.refcount = s.ctu.refcount)
    (resync : t.ctu.resync = s.ctu.resync) : ClockLegal t := by
  unfold ClockLegal at *
  rwa [clock, cstate, slew, refcount, resync]

theorem ClockLegal.of_ctu {s t : State} (legal : ClockLegal s) (same : t.ctu = s.ctu) : ClockLegal t :=
  legal.of_eq (by rw [same]) (by rw [same]) (by rw [same]) (by rw [same]) (by rw [same])

theorem ClockLegal.settleTime {s : State} (legal : ClockLegal s) : ClockLegal (settleTime s) := by
  apply legal.of_eq <;> rw [settleTime_ctu]

theorem ClockLegal.popTime {s : State} (legal : ClockLegal s) (b : TimedBlock) : ClockLegal (popTime b s) := by
  apply legal.of_eq <;> rw [popTime_ctu]

theorem ClockLegal.waitTime {s : State} (legal : ClockLegal s) (q : Asker) (b : Bool) : ClockLegal (waitTime q b s) := by
  apply legal.of_eq <;> rw [waitTime_ctu]

/-- An owner's report that it is emptied leaves the clock to be set. -/
theorem ClockLegal.reported {s t : State} (legal : ClockLegal s) (f : Resync → Resync) (target : ∀ r, (f r).target = r.target)
    (ctu : t.ctu = { s.ctu with waits := t.ctu.waits, resync := s.ctu.resync.map f }) : ClockLegal t := by
  obtain ⟨minute, day, refcount, slew, slewing, unset, expired, resync⟩ := legal
  unfold ClockLegal
  rw [ctu]
  refine ⟨minute, day, refcount, slew, slewing, unset, expired, ?_⟩
  rw [Option.all_map]
  simpa only [Function.comp_def, target] using resync

/-- A clock that runs, at a campus time. -/
theorem ClockLegal.running {s t : State} (legal : ClockLegal s) (minute : t.ctu.clock.minute ≤ 1439) (day : t.ctu.clock.day ≤ 65535)
    (cstate : t.ctu.cstate = .running) (slew : t.ctu.slew = 0) (refcount : t.ctu.refcount < Config.refMinute)
    (resync : t.ctu.resync = s.ctu.resync) : ClockLegal t := by
  obtain ⟨_, _, _, _, _, _, _, targets⟩ := legal
  exact ⟨minute, day, refcount, by omega, by simp [cstate, slew], by simp [cstate], by simp [cstate], resync ▸ targets⟩

theorem refMinute_pos : 0 < Config.refMinute := by decide

/-- A clock short of the last minute of the day count advances to a campus time (01 R3). -/
theorem next_of_ne_lastClock {c : Clock} (minute : c.minute ≤ 1439) (day : c.day ≤ 65535) (more : c ≠ lastClock) :
    c.next.minute ≤ 1439 ∧ c.next.day ≤ 65535 := by
  refine ⟨Clock.minute_next_le minute, ?_⟩
  unfold Clock.next
  split
  · next last =>
    have : c.day ≠ 65535 := fun e => more (by
      obtain ⟨_, _⟩ := c
      simp only at e last
      rw [e, last]
      rfl)
    simp only
    omega
  · exact day

theorem ClockLegal.minuteExpiry {s : State} (legal : ClockLegal s) : ClockLegal (minuteExpiry s) := by
  obtain ⟨minute, day, refcount, slew, slewing, unset, expired, resync⟩ := id legal
  unfold Machine.minuteExpiry
  split
  · exact legal
  split
  · exact legal
  · next run =>
    split
    · next last =>
      refine ⟨minute, day, refcount, slew, ?_, by simp, fun _ => last, resync⟩
      simp only [handTimeAll_ctu, State.setCtu_ctu]
      simp_all
    · next more =>
      obtain ⟨minute', day'⟩ := next_of_ne_lastClock minute day more
      apply legal.running <;> rw [ctuAdvance_ctu]
      · exact minute'
      · exact day'
      · exact run
      · simpa [run] using slewing
      · exact refcount
  · next slews =>
    refine ⟨minute, day, refcount, ?_, ?_, ?_, ?_, resync⟩
    · simp only [State.setCtu_ctu]
      omega
    all_goals simp only [State.setCtu_ctu]
    all_goals split <;> simp_all
    omega
  · exact legal

theorem ClockLegal.wrapRefcount {s : State} (legal : ClockLegal s) : ClockLegal (wrapRefcount s) := by
  obtain ⟨minute, day, _, slew, slewing, unset, expired, resync⟩ := legal
  exact ⟨minute, day, refMinute_pos, slew, slewing, unset, expired, resync⟩

theorem ClockLegal.passPeriods {s : State} (legal : ClockLegal s) {n : Nat} (fit : s.ctu.refcount + n < Config.refMinute) :
    ClockLegal (passPeriods n s) := by
  obtain ⟨minute, day, _, slew, slewing, unset, expired, resync⟩ := legal
  exact ⟨minute, day, fit, slew, slewing, unset, expired, resync⟩

theorem ClockLegal.onePeriod {s : State} (legal : ClockLegal s) : ClockLegal (onePeriod s) := by
  unfold Machine.onePeriod
  split
  · next fit => exact legal.passPeriods (n := 1) fit
  · exact legal.wrapRefcount.minuteExpiry

theorem ClockLegal.setClock {s : State} (legal : ClockLegal s) {c : Clock} (minute : c.minute ≤ 1439) (day : c.day ≤ 60000) :
    ClockLegal (setClock c s) := by
  apply legal.running <;> rw [setClock_ctu]
  · exact minute
  · exact day.trans (by omega)
  · exact refMinute_pos

theorem badSetTime_eq_false {day minute : Nat} : badSetTime day minute = false ↔ day ≤ 60000 ∧ minute ≤ 1439 := by
  simp only [badSetTime, Bool.or_eq_false_iff, decide_eq_false_iff_not, not_lt]
  rfl

theorem ClockLegal.trim {s : State} (legal : ClockLegal s) (q : Asker) {c : Clock} (minute : c.minute ≤ 1439) (day : c.day ≤ 60000) :
    ClockLegal (trim q c s) := by
  obtain ⟨minute', day', refcount, _, _, _, _, resync⟩ := id legal
  unfold Machine.trim
  dsimp only
  split
  · exact legal.of_ctu rfl
  · next near =>
    split
    · next forward =>
      obtain ⟨k, e⟩ := ctuAdvances_ctu (s.setCtu { s.ctu with slew := 0, cstate := .running }) (c.minutes - s.ctu.clock.minutes)
      rw [State.setCtu_ctu, Clock.iterate_next_eq minute' minute forward.le] at e
      refine ClockLegal.waitTime ?_ q true
      apply legal.running <;> rw [e]
      · exact minute
      · exact day.trans (by omega)
      · exact refcount
    · next notForward =>
      split
      · apply legal.running <;> rw [reply_ctu, State.setCtu_ctu]
        · exact minute'
        · exact day'
        · exact refcount
      · next notEqual =>
        simp only [Bool.or_eq_true, decide_eq_true_eq, not_or, not_lt] at near
        refine ⟨minute', day', refcount, ?_, ?_, by simp, by simp, resync⟩
        · simp only [reply_ctu, State.setCtu_ctu]
          omega
        · simp only [reply_ctu, State.setCtu_ctu, iff_true]
          omega

theorem ClockLegal.setTimeWork {s : State} (legal : ClockLegal s) (q : Asker) (arg : Nat × Nat) : ClockLegal (setTimeWork q arg s) := by
  unfold Machine.setTimeWork
  split
  · exact legal.of_ctu rfl
  · next good =>
    obtain ⟨day, minute⟩ := badSetTime_eq_false.mp (Bool.eq_false_iff.mpr good)
    split
    · exact (legal.setClock minute day).waitTime q true
    all_goals exact legal.trim q minute day

theorem ClockLegal.resyncWork {s : State} (legal : ClockLegal s) (q : Asker) (arg : Nat × Nat) : ClockLegal (resyncWork q arg s) := by
  unfold Machine.resyncWork
  split
  · exact legal.of_ctu rfl
  · next good =>
    obtain ⟨day, minute⟩ := badSetTime_eq_false.mp (Bool.eq_false_iff.mpr good)
    obtain ⟨minute', day', refcount, slew, slewing, unset, expired, _⟩ := legal
    exact ⟨minute', day', refcount, slew, slewing, unset, expired, by simp [minute, day]⟩

theorem ClockLegal.resyncSetting {s : State} (legal : ClockLegal s) {r : Resync} (asked : s.ctu.resync = some r) :
    ClockLegal (resyncSetting r s) := by
  obtain ⟨minute, day, refcount, slew, slewing, unset, expired, resync⟩ := legal
  rw [asked] at resync
  simp only [Option.all_some, Bool.and_eq_true, decide_eq_true_eq] at resync
  obtain ⟨minute', day'⟩ := resync
  have dropped : ClockLegal (s.setCtu { s.ctu with resync := none }) := ⟨minute, day, refcount, slew, slewing, unset, expired, rfl⟩
  exact (dropped.setClock minute' day').waitTime _ _

/-- Taking a tick leaves the clock: the CTU's own clock moved as it handed the tick. -/
theorem ClockLegal.takeTick {s : State} (legal : ClockLegal s) {b : TimedBlock} {want : Clock → Bool} {work : Clock → State → State}
    (leaves : ∀ c u, agree .ctu u (work c u)) : ClockLegal (takeTick b want work s) :=
  takeTick_cases legal fun c _ _ => by
    have ticked : ClockLegal (s.ticked b c) := (legal.popTime b).of_ctu rfl
    exact (ticked.of_ctu (leaves c _)).settleTime

/-! ## The commands -/

theorem beginCycle_ctu (l : Line) (s : State) : (beginCycle l s).ctu = s.ctu :=
  (only_beginCycle (ps := [.lines, .jobs, .wires]) (by decide) (by decide) (by decide)).mpr (.refl _ _) .ctu (by decide)

theorem foldl_answerExchange_ctu (xs : List Exchange) (s : State) :
    (xs.foldl (fun s x => answerExchange x .unknown [] s) s).ctu = s.ctu :=
  (only_foldl _ (fun _ _ => only_answerExchange (ps := [.wires]) (by decide)) _ _).mpr (.refl _ _) .ctu (by decide)

theorem indicateEmptied_ctu (v : Vector (List Entry) 128) (s : State) : (indicateEmptied v s).ctu = s.ctu :=
  (only_indicateEmptied (ps := [.wires]) (by decide)).mpr (.refl _ _) .ctu (by decide)

theorem dropUntaken_ctu (s : State) : (dropUntaken s).ctu = s.ctu :=
  (only_dropUntaken (ps := [.wires]) (by decide)).mpr (.refl _ _) .ctu (by decide)

theorem indicateFreed_ctu (v : Vector OrderRec 512) (s : State) : (indicateFreed v s).ctu = s.ctu :=
  (only_indicateFreed (ps := [.wires]) (by decide)).mpr (.refl _ _) .ctu (by decide)

theorem onTimeSet_ctu (b : TimedBlock) (s : State) : (onTimeSet b s).ctu = s.ctu := by
  cases b with
  | ocu => exact (only_ocuTimeSet (ps := [.ocu, .book, .wires]) (by decide) (by decide) (by decide)).mpr (.refl _ _) .ctu (by decide)
  | _ => rfl

theorem onExpiry_ctu (b : TimedBlock) (s : State) : (onExpiry b s).ctu = s.ctu := by
  cases b with
  | ocu => exact (only_ocuExpiry (ps := [.ocu, .book, .wires]) (by decide) (by decide) (by decide)).mpr (.refl _ _) .ctu (by decide)
  | _ => rfl

theorem ClockLegal.bookEmpty {s t : State} (legal : ClockLegal s) (run : exec .bookEmpty s = .next t) : ClockLegal t := by
  cases run
  split
  · refine legal.reported (fun r => { r with rbk := true }) (fun _ => rfl) ?_
    rw [settleTime_ctu, State.setCtu_ctu, indicateEmptied_ctu, State.setBook_ctu, foldl_answerExchange_ctu, dropUntaken_ctu, popTime_ctu]
  · exact legal

theorem ClockLegal.plannerEmpty {s t : State} (legal : ClockLegal s) (run : exec .plannerEmpty s = .next t) : ClockLegal t := by
  cases run
  split
  · refine legal.reported (fun r => { r with kpl := true }) (fun _ => rfl) ?_
    rw [settleTime_ctu, State.setCtu_ctu, State.setWires_ctu, indicateFreed_ctu, State.setKpl_ctu, popTime_ctu]
  · exact legal

theorem ClockLegal.usageEmpty {s t : State} (legal : ClockLegal s) (run : exec .usageEmpty s = .next t) : ClockLegal t := by
  cases run
  split
  · split
    · refine legal.reported (fun r => { r with psl := true }) (fun _ => rfl) ?_
      rw [settleTime_ctu, State.setCtu_ctu, State.setPsl_ctu, popTime_ctu]
    · exact legal
  · exact legal

theorem clockLegal_reset : ClockLegal State.reset :=
  ⟨by decide, by decide, refMinute_pos, by decide, by decide, fun _ => rfl, by decide, rfl⟩

theorem exec_clockLegal {c : Instr} {s t : State} (legal : ClockLegal s) (run : exec c s = .next t) : ClockLegal t := by
  cases c with
  | powerOnReset =>
    refine clockLegal_reset.of_ctu ?_
    cases run
    dsimp only
    split
    · exact (only_powerFailWork (ps := [.pwc, .wires]) (by decide) (by decide)).mpr (.refl _ _) .ctu (by decide)
    · rfl
  | referenceMinuteExpiry =>
    cases run
    exact legal.wrapRefcount.minuteExpiry
  | timeSet b =>
    cases run
    split
    · split
      · exact ClockLegal.settleTime ((legal.popTime b).of_ctu (onTimeSet_ctu _ _))
      · exact legal
    · exact legal
  | expiryIndication b =>
    cases run
    split
    · exact ClockLegal.settleTime ((legal.popTime b).of_ctu (onExpiry_ctu _ _))
    · exact legal
  | setTime p =>
    cases run
    split
    · exact legal
    · refine onRequest_cases legal fun h arg rest _ => ?_
      have took : ClockLegal (s.took p rest) := legal.of_ctu rfl
      exact took.setTimeWork _ _
  | resync p =>
    cases run
    split
    · exact legal
    · refine onRequest_cases legal fun h arg rest _ => ?_
      have took : ClockLegal (s.took p rest) := legal.of_ctu rfl
      exact took.resyncWork _ _
  | resyncComplete =>
    cases run
    split
    · split
      · exact legal.resyncSetting ‹_›
      · exact legal
    · exact legal
  | bookEmpty => exact legal.bookEmpty run
  | plannerEmpty => exact legal.plannerEmpty run
  | usageEmpty => exact legal.usageEmpty run
  | cycleStart l n =>
    cases run
    split
    · next fit =>
      have passed := legal.passPeriods (n := n) (by simpa [periodsFit] using fit)
      dsimp only
      split
      · exact passed.of_ctu (beginCycle_ctu _ _)
      · exact passed
    · exact legal
  | bookMinuteTick =>
    cases run
    exact legal.takeTick fun _ _ => (only_bookTick (ps := [.book, .wires]) (by decide) (by decide)).mpr (.refl _ _) .ctu (by decide)
  | usageCount | levellingHalving =>
    cases run
    exact legal.takeTick fun _ _ =>
      (only_pslTick (ps := [.psl, .book, .wires]) (by decide) (by decide) (by decide)).mpr (.refl _ _) .ctu (by decide)
  | ocuSlotBoundary =>
    cases run
    exact legal.takeTick fun _ _ =>
      (only_ocuTick (ps := [.ocu, .book, .wires]) (by decide) (by decide) (by decide)).mpr (.refl _ _) .ctu (by decide)
  | plannerTick | plannerRollover =>
    cases run
    exact legal.takeTick fun _ _ => (only_plannerTick (ps := [.kpl, .wires]) (by decide) (by decide)).mpr (.refl _ _) .ctu (by decide)
  | tableRolloverApply =>
    cases run
    exact legal.takeTick fun _ _ => (only_rztTick (ps := [.rzt, .wires]) (by decide) (by decide)).mpr (.refl _ _) .ctu (by decide)
  | quietStart | quietEnd =>
    cases run
    exact legal.takeTick fun _ _ => (only_pwcTick (ps := [.pwc, .wires]) (by decide) (by decide)).mpr (.refl _ _) .ctu (by decide)
  | _ => exact legal.of_ctu (agree_of_exec (part := .ctu) run (by simp [touches]))

end Sys2Proof.Machine

/-! PROOFS. What a command makes of the zone tables (02 R18, R27). -/

namespace Sys2Proof.Machine

open Host

/-! ## The attributes that STAGE_ZONES carries -/

theorem legal_clampZone (q : ZoneParam) (kind : ZoneKind) : (clampZone q kind).1.legal := by
  unfold ZoneAttr.legal clampZone
  dsimp only
  refine ⟨min_le_right _ _, ?_, ?_, ?_, min_le_right _ _⟩
  all_goals split <;> omega

theorem legal_of_judge {q : ZoneParam} {x : ZoneAttr × Nat} (judged : q.judge = some x) : x.1.legal := by
  unfold ZoneParam.judge at judged
  split at judged
  · cases judged
  · cases judged
    exact legal_clampZone _ _

/-- What is true of each record that `f` accepts is true of all that are carried. -/
theorem forall_of_judgeAll {α β : Type} {f : α → Option β} {P : β → Prop} (holds : ∀ a b, f a = some b → P b) :
    ∀ {as : List α} {bs : List β}, judgeAll f as = some bs → ∀ b ∈ bs, P b
  | [], bs, judged, b, mem => by
    cases judged
    cases mem
  | a :: as, bs, judged, b, mem => by
    unfold judgeAll at judged
    split at judged
    · next x xs head tail =>
      cases judged
      obtain rfl | rest := List.mem_cons.mp mem
      · exact holds a b head
      · exact forall_of_judgeAll holds tail b rest
    · cases judged

theorem legal_of_fiveAttrs {l : List (ZoneAttr × Nat)} {x : Vector ZoneAttr 5 × Nat} (legal : ∀ a ∈ l, a.1.legal)
    (five : fiveAttrs l = some x) (k : Zone) : (x.1[k]).legal := by
  unfold fiveAttrs at five
  split at five
  · cases five
    fin_cases k <;> exact legal _ (by simp)
  · cases five

/-! ## The condition -/

theorem ZonesLegal.of_eq {s t : State} (legal : ZonesLegal s) (zones : t.rzt.zones = s.rzt.zones)
    (staged : t.rzt.stagedZones = s.rzt.stagedZones) : ZonesLegal t := by
  unfold ZonesLegal at *
  rwa [zones, staged]

theorem ZonesLegal.of_rzt {s t : State} (legal : ZonesLegal s) (same : t.rzt = s.rzt) : ZonesLegal t :=
  legal.of_eq (by rw [same]) (by rw [same])

theorem ZonesLegal.settleConfig {s : State} (legal : ZonesLegal s) : ZonesLegal (settleConfig s) := by
  apply legal.of_eq <;> rw [settleConfig_rzt]

theorem ZonesLegal.popConfig {s : State} (legal : ZonesLegal s) (i : Fin 6) : ZonesLegal (popConfig i s) := legal.of_eq rfl rfl

/-- Tables that become active are staged ones, which are as legal as they were when they were staged. -/
theorem ZonesLegal.makeActive {s : State} (legal : ZonesLegal s) (rooms zones : Bool) : ZonesLegal (makeActive rooms zones s) := by
  refine ⟨?_, legal.2⟩
  cases zones
  · exact legal.1
  · exact legal.2

theorem ZonesLegal.waitConfig {s : State} (legal : ZonesLegal s) (q : Asker) (x : List Byte) : ZonesLegal (waitConfig q x s) :=
  legal.of_eq rfl rfl

theorem ZonesLegal.rztTick {s : State} (legal : ZonesLegal s) (c : Clock) : ZonesLegal (rztTick c s) := by
  unfold Machine.rztTick
  dsimp only
  split
  · exact (legal.makeActive _ _).of_rzt rfl
  · exact legal

theorem ZonesLegal.stageRoomsWork {s : State} (legal : ZonesLegal s) (q : Asker) (arg : Nat × List RoomParam × Nat) :
    ZonesLegal (stageRoomsWork q arg s) := by
  unfold Machine.stageRoomsWork
  dsimp only
  split
  · exact legal.of_rzt rfl
  split
  · exact legal.of_rzt rfl
  split
  · split
    · exact legal.of_rzt rfl
    · have stored (v : Vector RoomRec 128) (m : PendMethod) :
          ZonesLegal (s.setRzt { s.rzt with stagedRooms := v, roomMethod := m }) := legal.of_eq rfl rfl
      split
      · refine ZonesLegal.waitConfig ?_ _ _
        exact ((stored _ _).makeActive true false).of_rzt rfl
      · exact (stored _ _).of_rzt rfl
  · exact legal.of_rzt rfl

/-- STAGE_ZONES stores a table only with its pointers in order and its attributes clamped into their ranges. -/
theorem ZonesLegal.stageZonesWork {s : State} (legal : ZonesLegal s) (q : Asker) (arg : ZonesArg) :
    ZonesLegal (stageZonesWork q arg s) := by
  unfold Machine.stageZonesWork
  dsimp only
  split
  · exact legal.of_rzt rfl
  split
  · next attrs clamped _ judged =>
    split
    · exact legal.of_rzt rfl
    next inRange =>
    split
    · exact legal.of_rzt rfl
    next order =>
    obtain ⟨l, carried, five⟩ := Option.bind_eq_some_iff.mp judged
    have attrsLegal := legal_of_fiveAttrs (forall_of_judgeAll (fun _ _ => legal_of_judge) carried) five
    simp only [Bool.or_eq_true, decide_eq_true_eq, not_or, not_lt] at inRange
    simp only [Bool.not_eq_true', Bool.not_eq_false, Bool.and_eq_true, decide_eq_true_eq] at order
    obtain ⟨_, b4⟩ := inRange
    obtain ⟨⟨b12, b23⟩, b34⟩ := order
    exact ⟨legal.1, b12, b23, b34, b4, attrsLegal⟩
  · exact legal.of_rzt rfl

theorem ZonesLegal.stageDiscardWork {s : State} (legal : ZonesLegal s) (q : Asker) (table : Nat) :
    ZonesLegal (stageDiscardWork q table s) := by
  obtain unnamed | named := Nat.lt_or_ge 2 table
  · rw [stageDiscardWork_of_two_lt unnamed]
    exact legal.of_rzt rfl
  · rw [stageDiscardWork_of_le_two named]
    refine ⟨legal.1, ?_⟩
    rw [reply_rzt, State.setRzt_rzt]
    dsimp only
    split
    · exact legal.1
    · exact legal.2

theorem kitchenApply_rzt (b c : Nat) (s : State) : (kitchenApply b c s).rzt = s.rzt :=
  (only_kitchenApply (ps := [.kpl, .wires]) (by decide) (by decide)).mpr (.refl _ _) .rzt (by decide)

theorem ZonesLegal.applyWork {s : State} (legal : ZonesLegal s) (q : Asker) (table : Nat) : ZonesLegal (applyWork q table s) := by
  unfold Machine.applyWork rztApplyWork
  split
  · exact legal.of_rzt (kitchenApply_rzt _ _ s)
  split
  · exact legal.of_rzt rfl
  · dsimp only
    have active := legal.makeActive (table != 1) (table != 0)
    split
    · exact active.of_rzt rfl
    · exact (active.of_rzt (t := handConfig _ _) rfl).waitConfig _ _

/-- Taking a configuration-applied signal leaves the tables. -/
theorem ZonesLegal.takeConfig {s : State} (legal : ZonesLegal s) {i : Fin 6} {work : ConfigSignal → State → State}
    (leaves : ∀ g u, agree .rzt u (work g u)) : ZonesLegal (takeConfig i work s) :=
  takeConfig_cases legal fun g _ => ((legal.popConfig i).of_rzt (leaves g _)).settleConfig

/-! ## The commands -/

theorem zonesLegal_reset : ZonesLegal State.reset := by
  have attrs (k : Zone) : ((Vector.replicate 5 ZoneAttr.reset)[k]).legal := by
    rw [Fin.getElem_fin, Vector.getElem_replicate]
    decide
  exact ⟨⟨le_rfl, le_rfl, le_rfl, le_rfl, attrs⟩, le_rfl, le_rfl, le_rfl, le_rfl, attrs⟩

theorem exec_zonesLegal {c : Instr} {s t : State} (legal : ZonesLegal s) (run : exec c s = .next t) : ZonesLegal t := by
  cases c with
  | powerOnReset =>
    refine zonesLegal_reset.of_rzt ?_
    cases run
    dsimp only
    split
    · exact (only_powerFailWork (ps := [.pwc, .wires]) (by decide) (by decide)).mpr (.refl _ _) .rzt (by decide)
    · rfl
  | tableRolloverApply =>
    cases run
    refine takeTick_cases legal fun c _ _ => ?_
    have ticked : ZonesLegal (s.ticked .rzt c) := legal.of_rzt rfl
    exact (ticked.rztTick c).of_rzt (settleTime_rzt _)
  | stageRooms p =>
    cases run
    refine onRequest_cases legal fun h arg rest _ => ?_
    have took : ZonesLegal (s.took p rest) := legal.of_rzt rfl
    exact took.stageRoomsWork _ _
  | stageZones p =>
    cases run
    refine onRequest_cases legal fun h arg rest _ => ?_
    have took : ZonesLegal (s.took p rest) := legal.of_rzt rfl
    exact took.stageZonesWork _ _
  | stageDiscard p =>
    cases run
    refine onRequest_cases legal fun h arg rest _ => ?_
    have took : ZonesLegal (s.took p rest) := legal.of_rzt rfl
    exact took.stageDiscardWork _ _
  | apply p =>
    cases run
    refine onRequest_cases legal fun h arg rest _ => ?_
    have took : ZonesLegal (s.took p rest) := legal.of_rzt rfl
    exact took.applyWork _ _
  | bookConfigApplied =>
    cases run
    exact legal.takeConfig fun _ _ =>
      (only_foldl _ (fun _ _ => only_reevaluate (ps := [.book, .wires]) (by decide) (by decide)) _ _).mpr (.refl _ _) .rzt (by decide)
  | ocuConfigApplied =>
    cases run
    exact legal.takeConfig fun _ _ =>
      (only_foldl _ (fun _ _ => only_configRoom (ps := [.ocu, .book, .wires]) (by decide) (by decide) (by decide)) _ _).mpr
        (.refl _ _) .rzt (by decide)
  | lineConfigApplied =>
    cases run
    refine legal.takeConfig fun _ u => Only.agree (ps := [.lines, .jobs, .wires]) ?_ .rzt (by decide)
    simp [only_foldl]
  | timeSet b | expiryIndication b => exact legal.of_rzt (agree_of_exec (part := .rzt) run (by cases b <;> simp [touches]))
  | _ => exact legal.of_rzt (agree_of_exec (part := .rzt) run (by simp [touches]))

/-- Settles O7: the clock changes only where the CTU keeps it a campus time, and a zone table only where its records are judged. -/
theorem stepKeepsClockAndZonesLegal : Obligations.StepKeepsClockAndZonesLegal :=
  ⟨step_keeps (fun _ _ legal => legal) (fun _ => ClockLegal.onePeriod) (fun _ _ _ => exec_clockLegal),
    step_keeps (fun _ _ legal => legal) (fun s legal => legal.of_rzt (only_idle s .rzt (by decide))) (fun _ _ _ => exec_zonesLegal)⟩

end Sys2Proof.Machine

/-! PROOFS. Reading a line and its contexts after each operation on them, once each (05). -/

namespace Sys2Proof.Machine

/-! ## Writing one line, one context -/

section
variable {s : State} {l m : Line} {a b : Addr} {f : LineUnit → LineUnit} {x : PanelCtx}

@[simp] theorem modLine_line_same : (modLine l f s).line l = f (s.line l) := by simp [modLine, State.line]

theorem modLine_line_other (other : l ≠ m) : (modLine l f s).line m = s.line m := by
  simp only [modLine, State.line, State.setLine_lines]
  exact put_get_other _ _ other

/-- A change of a line that leaves its contexts leaves those of every line. -/
theorem modLine_ctx (leaves : ∀ u : LineUnit, (f u).ctx = u.ctx) : (modLine l f s).ctx = s.ctx := by
  funext m a
  unfold State.ctx
  by_cases same : l = m
  · subst same
    rw [modLine_line_same, leaves]
  · rw [modLine_line_other same]

@[simp] theorem setCtx_ctx_same : (setCtx l a x s).ctx l a = x := by simp [setCtx, State.ctx]

theorem setCtx_ctx_other (other : ¬(l = m ∧ a = b)) : (setCtx l a x s).ctx m b = s.ctx m b := by
  unfold setCtx State.ctx
  by_cases same : l = m
  · subst same
    rw [modLine_line_same]
    exact put_get_other _ _ fun e => other ⟨rfl, e⟩
  · rw [modLine_line_other same]

@[simp] theorem modCtx_ctx_same {f : PanelCtx → PanelCtx} : (modCtx l a f s).ctx l a = f (s.ctx l a) := setCtx_ctx_same

theorem modCtx_ctx_other {f : PanelCtx → PanelCtx} (other : ¬(l = m ∧ a = b)) : (modCtx l a f s).ctx m b = s.ctx m b :=
  setCtx_ctx_other other

theorem ctx_of_lines {s t : State} (same : t.lines = s.lines) : t.ctx = s.ctx := by
  unfold State.ctx State.line
  rw [same]

end

/-! ## Operations that hand on, and leave every line -/

section
variable (l : Line) (a : Addr) (s : State)

@[simp] theorem tellOcu_lines (m : Room → LineMsg) : (tellOcu l a m s).lines = s.lines :=
  (only_tellOcu (ps := [.wires]) (by decide)).mpr (.refl _ _) .lines (by decide)

@[simp] theorem panelNotice_lines (k : NoticeKind) (d : Nat) : (panelNotice k l a d s).lines = s.lines := rfl

@[simp] theorem handOffline_lines (d : Nat) : (handOffline l a d s).lines = s.lines := by simp [handOffline]

@[simp] theorem lineDone_lines (p : Port) (n : Fin 256) (ann : Bool) (k : Nat) : (lineDone l p n ann k s).lines = s.lines :=
  (only_lineDone (ps := [.jobs, .wires]) (by decide) (by decide)).mpr (.refl _ _) .lines (by decide)

@[simp] theorem tellOcu_ctx (m : Room → LineMsg) : (tellOcu l a m s).ctx = s.ctx := ctx_of_lines (tellOcu_lines _ _ _ _)

@[simp] theorem panelNotice_ctx (k : NoticeKind) (d : Nat) : (panelNotice k l a d s).ctx = s.ctx := rfl

@[simp] theorem handOffline_ctx (d : Nat) : (handOffline l a d s).ctx = s.ctx := ctx_of_lines (handOffline_lines _ _ _ _)

@[simp] theorem lineDone_ctx (p : Port) (n : Fin 256) (ann : Bool) (k : Nat) : (lineDone l p n ann k s).ctx = s.ctx :=
  ctx_of_lines (lineDone_lines _ _ _ _ _ _)

/-! ## Operations that change a line, and leave every context -/

@[simp] theorem setPhase_ctx (x : LinePhase) : (setPhase l x s).ctx = s.ctx := modLine_ctx fun _ => rfl

@[simp] theorem sendFrame_ctx (x : List Byte) : (sendFrame l x s).ctx = s.ctx := modLine_ctx fun _ => rfl

@[simp] theorem clearSent_ctx : (clearSent l s).ctx = s.ctx := modLine_ctx fun _ => rfl

@[simp] theorem countFailure_ctx (k : TrapKind) : (countFailure l a k s).ctx = s.ctx := modLine_ctx fun _ => rfl

@[simp] theorem clearStats_ctx : (clearStats l s).ctx = s.ctx := modLine_ctx fun _ => rfl

@[simp] theorem sendAnnounce_ctx : (sendAnnounce l s).ctx = s.ctx := by
  unfold sendAnnounce
  split
  · rfl
  · dsimp only
    rw [lineDone_ctx, modLine_ctx fun _ => by rfl, sendFrame_ctx]

@[simp] theorem sendAnnounces_ctx (n : Nat) : (sendAnnounces l n s).ctx = s.ctx := by
  induction n generalizing s with
  | zero => rfl
  | succ n ih => rw [sendAnnounces, ih, sendAnnounce_ctx]

@[simp] theorem flushAnnounces_ctx : (flushAnnounces l s).ctx = s.ctx := by
  unfold flushAnnounces
  dsimp only
  split
  · exact sendAnnounces_ctx _ _ _
  · rfl

@[simp] theorem goIdle_ctx : (goIdle l s).ctx = s.ctx := by rw [goIdle, flushAnnounces_ctx, setPhase_ctx]

@[simp] theorem beginTurn_ctx (c : Bool) : (beginTurn l a c s).ctx = s.ctx := by
  simp only [beginTurn, setPhase_ctx, sendFrame_ctx, sendAnnounce_ctx]

@[simp] theorem endCycle_ctx : (endCycle l s).ctx = s.ctx := by
  unfold endCycle
  split
  · exact goIdle_ctx _ _
  · exact setPhase_ctx _ _ _

@[simp] theorem nextTurn_ctx (rest : List Addr) : (nextTurn l rest s).ctx = s.ctx := by
  induction rest with
  | nil => rw [nextTurn, endCycle_ctx, modLine_ctx fun _ => by rfl]
  | cons a rest ih =>
    unfold nextTurn
    split
    · rw [beginTurn_ctx, modLine_ctx fun _ => by rfl]
    · exact ih

@[simp] theorem beginCycle_ctx : (beginCycle l s).ctx = s.ctx := by
  unfold beginCycle
  dsimp only
  rw [nextTurn_ctx, modLine_ctx fun _ => by rfl, clearSent_ctx]

@[simp] theorem placeAnnounce_ctx (an : Announcement) : (placeAnnounce an s l).ctx = s.ctx := by
  unfold placeAnnounce
  dsimp only
  rw [flushAnnounces_ctx, modLine_ctx fun _ => by split <;> rfl]

end

/-! ## Several lines, several addresses -/

theorem foldl_ctx {α : Type} (f : State → α → State) (leaves : ∀ s x, (f s x).ctx = s.ctx) (xs : List α) (s : State) :
    (xs.foldl f s).ctx = s.ctx := by
  induction xs generalizing s with
  | nil => rfl
  | cons x xs ih => rw [List.foldl_cons, ih, leaves]

/-- What each step of a fold keeps, the fold keeps. -/
theorem foldl_keeps {I : State → Prop} {α : Type} (f : State → α → State) (keeps : ∀ s x, I s → I (f s x)) (xs : List α) (s : State)
    (holds : I s) : I (xs.foldl f s) := by
  induction xs generalizing s with
  | nil => exact holds
  | cons x xs ih => exact ih _ (keeps s x holds)

end Sys2Proof.Machine

/-! PROOFS. The bounds of the notice queues, the usage counters and the panel contexts (08 R170, 04 R76, 05 Panel contexts). -/

namespace Sys2Proof.Machine

open Host

/-! ## The notice queues -/

theorem QueuesLegal.of_queues {s t : State} (legal : QueuesLegal s) (same : t.nrt.queues = s.nrt.queues) : QueuesLegal t := by
  unfold QueuesLegal
  rwa [same]

theorem QueuesLegal.of_nrt {s t : State} (legal : QueuesLegal s) (same : t.nrt = s.nrt) : QueuesLegal t :=
  legal.of_queues (by rw [same])

theorem setQueue_nrt (p : Port) (q : List Notice) (s : State) :
    (setQueue p q s).nrt = { s.nrt with queues := put s.nrt.queues p q } := by
  unfold setQueue
  dsimp only
  split <;> rfl

theorem QueuesLegal.setQueue {s : State} (legal : QueuesLegal s) (p : Port) {q : List Notice} (short : q.length ≤ 32) :
    QueuesLegal (setQueue p q s) := by
  unfold QueuesLegal
  rw [setQueue_nrt]
  exact put_all (p := fun q : List Notice => q.length ≤ 32) _ _ _ legal short

/-- A copy joins a queue only while the queue is not full (08 R170). -/
theorem QueuesLegal.placeCopy {s : State} (legal : QueuesLegal s) (n : Notice) (p : Port) : QueuesLegal (placeCopy n p s) := by
  unfold Machine.placeCopy
  split
  · exact legal.of_queues rfl
  · next room =>
    refine legal.setQueue p ?_
    have short : (s.nrt.queues[p]).length < 32 := not_le.mp fun full => room (decide_eq_true full)
    rw [List.length_append, List.length_singleton]
    omega

theorem QueuesLegal.takeNotice {s : State} (legal : QueuesLegal s) (i : Fin 9) : QueuesLegal (takeNotice s i) := by
  unfold Machine.takeNotice
  split
  · exact foldl_keeps _ (fun _ _ kept => kept.placeCopy _ _) _ _ (legal.of_nrt rfl)
  · exact legal

theorem QueuesLegal.ctuAdvances {s : State} (legal : QueuesLegal s) (n : Nat) : QueuesLegal (ctuAdvances n s) := by
  have advance {u : State} (kept : QueuesLegal u) : QueuesLegal (ctuAdvance u) :=
    kept.of_nrt ((only_ctuAdvance (ps := [.ctu, .wires]) (by decide) (by decide)).mpr (.refl _ _) .nrt (by decide))
  induction n generalizing s with
  | zero => exact legal
  | succ n ih =>
    match n with
    | 0 => exact advance legal
    | n + 1 =>
      rw [ctuAdvances_succ_succ]
      refine ih (foldl_keeps _ (fun _ _ kept => kept.takeNotice _) _ _ ?_)
      exact (advance legal).of_nrt rfl

theorem QueuesLegal.setTimeWork {s : State} (legal : QueuesLegal s) (q : Asker) (arg : Nat × Nat) :
    QueuesLegal (setTimeWork q arg s) := by
  have trim (c : Clock) : QueuesLegal (Machine.trim q c s) := by
    unfold Machine.trim
    dsimp only
    repeat' split
    · exact legal.of_nrt rfl
    · refine QueuesLegal.of_nrt (QueuesLegal.ctuAdvances (s := s.setCtu { s.ctu with slew := 0, cstate := .running }) ?_ _) rfl
      exact legal.of_nrt rfl
    · exact legal.of_nrt rfl
    · exact legal.of_nrt rfl
  unfold Machine.setTimeWork
  repeat' split
  · exact legal.of_nrt rfl
  · exact legal.of_nrt rfl
  all_goals exact trim _

theorem QueuesLegal.fetchNoticesWork {s : State} (legal : QueuesLegal s) (q : Asker) (n : Nat) :
    QueuesLegal (fetchNoticesWork q n s) := by
  unfold Machine.fetchNoticesWork
  split
  · exact legal.of_nrt rfl
  · have short : ((s.nrt.queues[q.port]).drop n).length ≤ 32 := by
      have := legal q.port
      rw [List.length_drop]
      omega
    exact (legal.setQueue q.port short).of_queues rfl

theorem QueuesLegal.emptyQueue {s : State} (legal : QueuesLegal s) (p : Port) : QueuesLegal (emptyQueue s p) :=
  (legal.setQueue p (q := []) (by simp)).of_queues rfl

theorem queuesLegal_reset : QueuesLegal State.reset := by
  intro p
  simp [State.reset, State.powerOn, Nrt.reset]

theorem exec_queuesLegal {c : Instr} {s t : State} (legal : QueuesLegal s) (run : exec c s = .next t) : QueuesLegal t := by
  cases c with
  | powerOnReset =>
    refine queuesLegal_reset.of_nrt ?_
    cases run
    dsimp only
    split
    · exact (only_powerFailWork (ps := [.pwc, .wires]) (by decide) (by decide)).mpr (.refl _ _) .nrt (by decide)
    · rfl
  | setTime p =>
    cases run
    split
    · exact legal
    · refine onRequest_cases legal fun h arg rest _ => ?_
      have took : QueuesLegal (s.took p rest) := legal.of_nrt rfl
      exact took.setTimeWork _ _
  | fetchNotices p =>
    cases run
    refine onRequest_cases legal fun h arg rest _ => ?_
    have took : QueuesLegal (s.took p rest) := legal.of_nrt rfl
    exact took.fetchNoticesWork _ _
  | routeSet p =>
    cases run
    refine onRequest_cases legal fun h arg rest _ => ?_
    unfold routeSetWork
    repeat' split
    all_goals exact legal.of_queues rfl
  | notice =>
    cases run
    exact legal.takeNotice _
  | noticeWarmStart =>
    cases run
    split
    · refine takeSupply_cases legal fun _ _ _ _ => QueuesLegal.of_nrt ?_ (settleSupply_nrt _)
      exact foldl_keeps _ (fun _ _ kept => kept.emptyQueue _) _ _ (legal.of_nrt (popSupply_nrt _ _))
    · exact legal
  | timeSet b | expiryIndication b => exact legal.of_nrt (agree_of_exec (part := .nrt) run (by cases b <;> simp [touches]))
  | _ => exact legal.of_nrt (agree_of_exec (part := .nrt) run (by simp [touches]))

/-! ## The usage counters -/

theorem UsageLegal.of_usage {s t : State} (legal : UsageLegal s) (same : t.psl.usage = s.psl.usage) : UsageLegal t := by
  unfold UsageLegal
  rwa [same]

theorem UsageLegal.of_psl {s t : State} (legal : UsageLegal s) (same : t.psl = s.psl) : UsageLegal t :=
  legal.of_usage (by rw [same])

theorem readForUsage_psl (r : Room) (s : State) : (readForUsage s r).psl = s.psl :=
  (only_readForUsage (ps := [.book, .wires]) (by decide) (by decide)).mpr (.refl _ _) .psl (by decide)

/-- A count saturates and a halving lowers (04 R76, R78). -/
theorem UsageLegal.pslTick {s : State} (legal : UsageLegal s) (c : Clock) : UsageLegal (pslTick c s) := by
  have halved {u : State} (kept : UsageLegal u) (day : Nat) : UsageLegal (halve day u) := fun r => by
    have := kept r
    simp only [halve, State.setPsl_psl, mapV_get]
    omega
  have counted {u : State} (kept : UsageLegal u) : UsageLegal (countUsage u) := fun r => by
    have read : UsageLegal ((List.finRange 128).foldl readForUsage u) :=
      foldl_keeps _ (fun v r kept => kept.of_psl (readForUsage_psl r v)) _ _ kept
    simp only [countUsage, State.setPsl_psl, tabulate_get]
    split
    · exact read r
    · exact min_le_right _ _
  unfold Machine.pslTick
  dsimp only
  repeat' split
  · exact counted (halved legal _)
  · exact counted legal
  · exact halved legal _
  · exact legal

theorem onTimeSet_usage (b : TimedBlock) (s : State) : (onTimeSet b s).psl.usage = s.psl.usage := by
  cases b with
  | ocu =>
    have same := (only_ocuTimeSet (ps := [.ocu, .book, .wires]) (by decide) (by decide) (by decide)).mpr (.refl _ s) .psl (by decide)
    exact congrArg Psl.usage same
  | _ => rfl

theorem usageLegal_of_zeros {s : State} (zeros : s.psl.usage = Vector.replicate 128 0) : UsageLegal s := by
  intro r
  simp [zeros]

theorem exec_usageLegal {c : Instr} {s t : State} (legal : UsageLegal s) (run : exec c s = .next t) : UsageLegal t := by
  cases c with
  | powerOnReset =>
    apply usageLegal_of_zeros
    cases run
    dsimp only
    split
    · exact congrArg Psl.usage ((only_powerFailWork (ps := [.pwc, .wires]) (by decide) (by decide)).mpr (.refl _ _) .psl (by decide))
    · rfl
  | timeSet b =>
    cases run
    split
    · split
      · refine legal.of_usage ?_
        rw [settleTime_psl, onTimeSet_usage]
        rfl
      · exact legal
    · exact legal
  | usageCount | levellingHalving =>
    cases run
    refine takeTick_cases legal fun c _ _ => ?_
    have ticked : UsageLegal (s.ticked .psl c) := legal.of_psl rfl
    exact (ticked.pslTick c).of_psl (settleTime_psl _)
  | usageEmpty =>
    cases run
    repeat' split
    · exact usageLegal_of_zeros (by rw [settleTime_psl]; rfl)
    all_goals exact legal
  | setLevellingDay p =>
    cases run
    refine onRequest_cases legal fun h arg rest _ => ?_
    unfold setLevellingDayWork
    split
    all_goals exact legal.of_usage rfl
  | expiryIndication b => exact legal.of_psl (agree_of_exec (part := .psl) run (by cases b <;> simp [touches]))
  | _ => exact legal.of_psl (agree_of_exec (part := .psl) run (by simp [touches]))

/-! ## The panel contexts -/

section
variable {s : State} (legal : PanelsLegal s) (l : Line) (a : Addr)
include legal

theorem PanelsLegal.of_ctx {t : State} (same : t.ctx = s.ctx) : PanelsLegal t := by
  unfold PanelsLegal
  rwa [same]

theorem PanelsLegal.of_lines {t : State} (same : t.lines = s.lines) : PanelsLegal t := legal.of_ctx (ctx_of_lines same)

theorem PanelsLegal.tellOcu (m : Room → LineMsg) : PanelsLegal (tellOcu l a m s) := legal.of_ctx (tellOcu_ctx _ _ _ _)

theorem PanelsLegal.setCtx {x : PanelCtx} (good : x.legal) : PanelsLegal (setCtx l a x s) := fun m b => by
  by_cases same : l = m ∧ a = b
  · obtain ⟨rfl, rfl⟩ := same
    rwa [setCtx_ctx_same]
  · rw [setCtx_ctx_other same]
    exact legal m b

theorem PanelsLegal.modCtx {f : PanelCtx → PanelCtx} (good : ∀ c : PanelCtx, c.legal → (f c).legal) : PanelsLegal (modCtx l a f s) :=
  legal.setCtx l a (good _ (legal l a))

theorem PanelsLegal.failTurn (k : TrapKind) : PanelsLegal (failTurn l a k s) := by
  unfold Machine.failTurn
  dsimp only
  have counted := legal.of_ctx (countFailure_ctx l a s k)
  have raised := counted.setCtx l a (x := { (countFailure l a k s).ctx l a with
    missed := min (((countFailure l a k s).ctx l a).missed + 1) 3 }) ⟨min_le_right _ _, (counted l a).2⟩
  split
  · refine PanelsLegal.modCtx ?_ l a fun c good => ⟨good.1, ?_⟩
    · exact (raised.modCtx l a (f := fun c => { c with pstate := .offline }) fun _ good => good).of_ctx (handOffline_ctx _ _ _ _)
    · dsimp only
      split <;> simp
  · exact raised

/-- The first event handed leaves its place in EVBUF for OUTSTANDING. -/
theorem PanelsLegal.handOnward {es : List PEvent} (fits : es.length ≤ 4) : PanelsLegal (handOnward l a es s) := by
  induction es generalizing s with
  | nil =>
    refine legal.modCtx l a fun c good => ⟨good.1, ?_⟩
    dsimp only
    split <;> simp
  | cons e es ih =>
    rw [List.length_cons] at fits
    unfold Machine.handOnward
    split
    · exact ih (legal.modCtx l a fun _ good => good) (by omega)
    · refine PanelsLegal.of_ctx ?_ (tellOcu_ctx _ _ _ _)
      refine legal.modCtx l a fun c good => ⟨good.1, ?_⟩
      simp only [Option.isSome_some, if_true]
      omega

theorem PanelsLegal.handNext : PanelsLegal (handNext l a s) := by
  unfold Machine.handNext
  dsimp only
  split
  · obtain ⟨_, events⟩ := legal l a
    exact legal.handOnward l a (by omega)
  · exact legal

omit legal in
/-- A walk appends no more events than there are places. -/
theorem length_walkEvents_le (ref : Option Seq) (started : Bool) (left : Nat) (es : List PEvent) :
    (walkEvents ref started left es).length ≤ left := by
  induction es generalizing ref started left with
  | nil => cases left <;> simp [walkEvents]
  | cons e es ih =>
    cases left with
    | zero => simp [walkEvents]
    | succ left =>
      unfold walkEvents
      repeat' split
      · exact ih _ _ _
      · rw [List.length_cons]
        exact Nat.succ_le_succ (ih _ _ _)
      · exact Nat.zero_le _

theorem PanelsLegal.eventWalk (es : List PEvent) : PanelsLegal (eventWalk l a es s) := by
  unfold Machine.eventWalk
  refine PanelsLegal.handNext (legal.setCtx l a ?_) l a
  refine ⟨(legal l a).1, ?_⟩
  have walked := length_walkEvents_le (s.ctx l a).reference false (s.ctx l a).places es
  have held := (legal l a).2
  calc _ = (s.ctx l a).evbuf.length + (walkEvents (s.ctx l a).reference false (s.ctx l a).places es).length +
        (if (s.ctx l a).outstanding.isSome then 1 else 0) := by rw [List.length_append]
    _ ≤ 4 := by
      unfold PanelCtx.places at *
      omega

theorem PanelsLegal.takeVerdict (q : Seq) (taken : Bool) : PanelsLegal (takeVerdict l a q taken s) := by
  obtain ⟨missed, held⟩ := legal l a
  have freed : (s.ctx l a).evbuf.length + 0 ≤ 4 := by omega
  unfold Machine.takeVerdict
  dsimp only
  split
  · split
    · refine PanelsLegal.handNext (legal.setCtx l a ?_) l a
      exact ⟨missed, freed⟩
    · refine legal.setCtx l a ?_
      exact ⟨missed, held⟩
  · split
    · refine legal.setCtx l a ?_
      exact ⟨missed, Nat.zero_le _⟩
    · exact legal

theorem PanelsLegal.takeApplied (v : Seq) : PanelsLegal (takeApplied l a v s) := by
  unfold Machine.takeApplied
  dsimp only
  generalize shown : (if (s.ctx l a).dvSent = some v then _ else _ : PanelCtx) = x
  have good : x.legal := by
    subst shown
    split <;> exact legal l a
  have stored := legal.setCtx l a good
  split
  · refine PanelsLegal.tellOcu (stored.setCtx l a ?_) l a _
    exact good
  · exact stored

theorem PanelsLegal.pushDisplay (v : Seq) : PanelsLegal (pushDisplay l a v s) := by
  unfold Machine.pushDisplay
  dsimp only
  split
  · refine PanelsLegal.of_ctx (legal.setCtx l a ?_) (sendFrame_ctx _ _ _)
    exact legal l a
  · exact legal.of_ctx (sendFrame_ctx _ _ _)
  · exact legal
  · exact legal

theorem PanelsLegal.goodSteps (st : Status) : PanelsLegal (goodSteps l a st s) := by
  unfold Machine.goodSteps
  dsimp only
  have online := legal.setCtx l a (x := { s.ctx l a with missed := 0, pstate := .online }) ⟨by simp, (legal l a).2⟩
  refine PanelsLegal.pushDisplay (PanelsLegal.eventWalk (PanelsLegal.of_ctx ?_ (tellOcu_ctx _ _ _ _)) l a _) l a _
  refine PanelsLegal.modCtx ?_ l a fun _ good => good
  refine PanelsLegal.takeApplied ?_ l a _
  split
  · exact online.of_ctx (by rw [tellOcu_ctx, panelNotice_ctx])
  · exact online

theorem PanelsLegal.resetAddr : PanelsLegal (resetAddr l s a) := by
  unfold Machine.resetAddr
  dsimp only
  split
  · have cleared := legal.setCtx l a (x := { s.ctx l a with
      pstate := .offline, missed := 0, ackSeq := none, rawLast := none, rawPrev := none, evbuf := [], outstanding := none })
      ⟨by simp, by simp⟩
    split
    · exact cleared.of_ctx (handOffline_ctx _ _ _ _)
    · exact cleared
  · exact legal

theorem PanelsLegal.resetLine : PanelsLegal (resetLine l s) :=
  (foldl_keeps _ (fun _ b kept => kept.resetAddr l b) _ _ legal).of_ctx (clearStats_ctx _ _)

theorem PanelsLegal.doResets : PanelsLegal (doResets l s) :=
  foldl_keeps _ (fun _ _ kept => (kept.resetLine l).of_ctx (lineDone_ctx _ _ _ _ _ _)) _ _ (legal.of_ctx (modLine_ctx fun _ => by rfl))

theorem PanelsLegal.finishTurn (claim : Bool) : PanelsLegal (finishTurn l claim s) := by
  unfold Machine.finishTurn
  dsimp only
  split
  · exact (legal.doResets l).of_ctx (goIdle_ctx _ _)
  · exact (legal.doResets l).of_ctx (nextTurn_ctx _ _ _)

omit legal in
theorem legal_resetCtx (pstate : PState) (room : Option Room) : PanelCtx.legal { PanelCtx.reset with pstate := pstate, room := room } :=
  ⟨Nat.zero_le _, Nat.zero_le _⟩

theorem PanelsLegal.unconfigure : PanelsLegal (unconfigure l a s) := fun m b => by
  unfold State.ctx
  rw [unconfigure_eq]
  by_cases same : l = m
  · subst same
    simp only [State.line, State.setLine_lines, put_get_same]
    exact put_all (p := PanelCtx.legal) _ _ _ (legal l) (legal_resetCtx _ _) b
  · simp only [State.line, State.setLine_lines, put_get_other _ _ same]
    exact legal m b

theorem PanelsLegal.reconfigure : PanelsLegal (reconfigure l s a) := by
  unfold Machine.reconfigure
  dsimp only
  split
  · exact legal
  · exact legal.setCtx l a (legal_resetCtx _ _)
  · exact (legal.tellOcu l a _).unconfigure l a
  · split
    · exact legal
    · refine PanelsLegal.tellOcu (PanelsLegal.setCtx (legal.tellOcu l a _) l a ?_) l a _
      exact legal l a

theorem PanelsLegal.warmAddr : PanelsLegal (warmAddr l s a) := by
  have cleared (d : Option DEntry) : PanelsLegal (Machine.setCtx l a { s.ctx l a with
      pstate := .offline, missed := 0, rawLast := none, rawPrev := none, evbuf := [], outstanding := none, dvSent := none,
      dvAck := none, dentry := d } s) := legal.setCtx l a ⟨Nat.zero_le _, Nat.zero_le _⟩
  unfold Machine.warmAddr
  dsimp only
  split
  · split
    · exact cleared _
    · exact cleared _
    · exact (cleared _).tellOcu l a _
  · exact legal

theorem PanelsLegal.abandonTurn (x : LinePhase) : PanelsLegal (abandonTurn l x s) :=
  (legal.of_ctx (modLine_ctx fun _ => by rfl)).doResets l

theorem PanelsLegal.warmLine : PanelsLegal (warmLine l s) := by
  unfold Machine.warmLine
  dsimp only
  refine foldl_keeps _ (fun _ b kept => kept.warmAddr l b) _ _ ?_
  refine PanelsLegal.of_lines ?_ (State.setJobs_lines _ _)
  exact (legal.abandonTurn l .restarted).of_ctx (modLine_ctx fun _ => by rfl)

theorem PanelsLegal.askReset (q : Asker) : PanelsLegal (askReset q s l) := by
  unfold Machine.askReset
  dsimp only
  have waiting := legal.of_ctx (modLine_ctx (l := l) (s := s)
    (f := fun u => { u with resetWait := u.resetWait ++ [(q.port, q.reqno)] }) fun _ => rfl)
  split
  · exact waiting
  · exact waiting.doResets l

end

theorem panelsLegal_reset : PanelsLegal State.reset := by
  intro l a
  have fresh : State.reset.ctx l a = PanelCtx.reset := by
    simp [State.ctx, State.line, State.reset, State.powerOn, LineUnit.reset]
  rw [fresh]
  exact legal_resetCtx _ _

theorem exec_panelsLegal {c : Instr} {s t : State} (legal : PanelsLegal s) (run : exec c s = .next t) : PanelsLegal t := by
  have cleared (l : Line) : PanelsLegal (clearSent l s) := legal.of_ctx (clearSent_ctx _ _)
  have supply {α : Type} {i : Fin 12} {sel : SupplyMsg → Option α} {work : α → State → State}
      (keeps : ∀ a u, PanelsLegal u → PanelsLegal (work a u)) : PanelsLegal (takeSupply i sel work s) :=
    takeSupply_cases legal fun _ _ _ _ => (keeps _ _ (legal.of_lines (popSupply_lines _ _))).of_lines (settleSupply_lines _)
  cases c with
  | powerOnReset =>
    refine panelsLegal_reset.of_lines ?_
    cases run
    dsimp only
    split
    · exact (only_powerFailWork (ps := [.pwc, .wires]) (by decide) (by decide)).mpr (.refl _ _) .lines (by decide)
    · rfl
  | announce p =>
    cases run
    refine onRequest_cases legal fun h arg rest _ => ?_
    unfold announceWork
    split
    · exact legal.of_lines rfl
    · exact legal.of_ctx (foldl_ctx _ (fun _ _ => placeAnnounce_ctx _ _ _) _ _)
  | clearLineStats p =>
    cases run
    refine onRequest_cases legal fun h arg rest _ => ?_
    unfold clearLineStatsWork
    split
    · exact legal.of_lines rfl
    · exact (legal.of_ctx (foldl_ctx _ (fun _ _ => clearStats_ctx _ _) _ (s.took p rest))).of_lines rfl
  | lineReset p =>
    cases run
    refine onRequest_cases legal fun h arg rest _ => ?_
    unfold lineResetWork
    split
    · exact legal.of_lines rfl
    · exact foldl_keeps _ (fun _ l kept => kept.askReset l _) _ _ (legal.of_lines rfl)
  | cycleStart l n =>
    have passed : PanelsLegal (passPeriods n s) := legal.of_lines rfl
    cases run
    dsimp only
    repeat' split
    · exact passed.of_ctx (beginCycle_ctx _ _)
    · exact passed
    · exact legal
  | goodStatus l octets =>
    cases run
    split
    · split
      · refine PanelsLegal.finishTurn ?_ l _
        split
        · exact (cleared l).goodSteps l _ _
        · exact cleared l
      · exact legal
    · exact legal
  | frameError l octets =>
    cases run
    split
    · split
      · exact legal
      · refine PanelsLegal.finishTurn ?_ l _
        split
        · exact (cleared l).failTurn l _ _
        · exact cleared l
    · exact legal
  | answerTimeout l =>
    cases run
    split
    · refine PanelsLegal.finishTurn ?_ l _
      split
      · exact (cleared l).failTurn l _ _
      · exact cleared l
    · exact legal
  | claimWindow l bits =>
    cases run
    dsimp only
    repeat' split
    · exact (cleared l).of_ctx (beginTurn_ctx _ _ _ _)
    · exact (cleared l).of_ctx (goIdle_ctx _ _)
    · exact legal
  | verdict l a =>
    cases run
    refine takeFromOcu_cases legal fun x rest => ?_
    have took : PanelsLegal (s.setWires { s.wires with toLine := put s.wires.toLine l rest }) := legal.of_lines rfl
    split
    · exact took.takeVerdict l a _ _
    · exact took
  | displayRecord l a =>
    cases run
    refine takeFromOcu_cases legal fun x rest => ?_
    have took : PanelsLegal (s.setWires { s.wires with toLine := put s.wires.toLine l rest }) := legal.of_lines rfl
    split
    · exact took.modCtx l a fun _ good => good
    · exact took
  | lineConfigApplied l =>
    cases run
    refine takeConfig_cases legal fun g _ => ?_
    have popped : PanelsLegal (popConfig (lineCfg l) s) := legal.of_lines rfl
    have begun := popped.of_ctx (clearSent_ctx l _)
    have compared := foldl_keeps (I := PanelsLegal) (reconfigure l) (fun _ a kept => PanelsLegal.reconfigure kept l a) (List.finRange 32) _ begun
    exact (compared.of_ctx (flushAnnounces_ctx l _)).of_lines (settleConfig_lines _)
  | lineSupplyChange l =>
    cases run
    refine supply fun _ u kept => ?_
    split
    · exact kept.abandonTurn l _
    · exact kept
  | lineWarmStart l =>
    cases run
    exact supply fun _ _ kept => kept.warmLine l
  | timeSet b | expiryIndication b => exact legal.of_lines (agree_of_exec (part := .lines) run (by cases b <;> simp [touches]))
  | _ => exact legal.of_lines (agree_of_exec (part := .lines) run (by simp [touches]))

/-- Settles O8: a queue takes a copy only below its limit, a counter saturates, and a context gives a place up for each that it fills. -/
theorem stepKeepsQueuesUsageAndPanelsLegal : Obligations.StepKeepsQueuesUsageAndPanelsLegal :=
  ⟨step_keeps (fun _ _ legal => legal) (fun s legal => legal.of_nrt (only_idle s .nrt (by decide))) (fun _ _ _ => exec_queuesLegal),
    step_keeps (fun _ _ legal => legal) (fun s legal => legal.of_psl (only_idle s .psl (by decide))) (fun _ _ _ => exec_usageLegal),
    step_keeps (fun _ _ legal => legal) (fun s legal => legal.of_lines (only_idle s .lines (by decide))) (fun _ _ _ => exec_panelsLegal)⟩

end Sys2Proof.Machine

/-! PROOFS. The schedules stay in ascending START: an entry goes in at its place, and what leaves or is rewritten keeps the order of the
rest. -/

namespace Sys2Proof.Machine

open Host

/-! ## Lists of entries -/

/-- Ascending in START. -/
abbrev Ascending (es : List Entry) : Prop := es.Pairwise (fun a b => a.start ≤ b.start)

theorem mem_insertEntry {e x : Entry} {es : List Entry} : x ∈ insertEntry e es ↔ x = e ∨ x ∈ es := by
  induction es with
  | nil => simp [insertEntry]
  | cons y ys ih =>
    simp only [insertEntry]
    split
    · simp
    · simp [ih, or_left_comm]

theorem ascending_insertEntry {es : List Entry} (e : Entry) (ordered : Ascending es) : Ascending (insertEntry e es) := by
  induction es with
  | nil => simp [insertEntry]
  | cons y ys ih =>
    obtain ⟨first, rest⟩ := List.pairwise_cons.mp ordered
    simp only [insertEntry]
    split
    · next before =>
      refine List.pairwise_cons.mpr ⟨fun z mem => ?_, ordered⟩
      obtain rfl | later := List.mem_cons.mp mem
      · exact before
      · exact Nat.le_trans before (first z later)
    · next after =>
      refine List.pairwise_cons.mpr ⟨fun z mem => ?_, ih rest⟩
      obtain rfl | later := mem_insertEntry.mp mem
      · omega
      · exact first z later

theorem ascending_insertAll {f : Entry → Entry} (new : List Entry) {es : List Entry} (ordered : Ascending es) :
    Ascending (new.foldl (fun es e => insertEntry (f e) es) es) := by
  induction new generalizing es with
  | nil => exact ordered
  | cons e new ih => exact ih (ascending_insertEntry _ ordered)

/-! ## Schedules replaced -/

theorem setSchedule_schedule_same (r : Room) (es : List Entry) (s : State) : (setSchedule r es s).schedule r = es := by
  simp [setSchedule, State.schedule]

theorem setSchedule_schedule_other {r x : Room} (other : x ≠ r) (es : List Entry) (s : State) :
    (setSchedule r es s).schedule x = s.schedule x := by
  exact put_get_other s.book.schedules es (Ne.symm other)

theorem SchedulesOrdered.of_schedules {s t : State} (ordered : SchedulesOrdered s) (same : t.book.schedules = s.book.schedules) :
    SchedulesOrdered t := by
  intro r
  have room : t.schedule r = s.schedule r := by simp [State.schedule, same]
  exact room ▸ ordered r

theorem SchedulesOrdered.of_book {s t : State} (ordered : SchedulesOrdered s) (same : t.book = s.book) : SchedulesOrdered t :=
  ordered.of_schedules (by rw [same])

theorem SchedulesOrdered.setSchedule {s : State} (ordered : SchedulesOrdered s) (r : Room) {es : List Entry} (new : Ascending es) :
    SchedulesOrdered (setSchedule r es s) := by
  intro x
  by_cases same : x = r
  · subst same
    rwa [setSchedule_schedule_same]
  · rw [setSchedule_schedule_other same]
    exact ordered x

@[simp] theorem setRec_schedules (i : BookIx) (x : BookRec) (s : State) : (setRec i x s).book.schedules = s.book.schedules := rfl
@[simp] theorem setBody_schedules (i : BookIx) (b : Body) (s : State) : (setBody i b s).book.schedules = s.book.schedules := rfl
@[simp] theorem setPending_schedules (i : BookIx) (x : BPending) (s : State) : (setPending i x s).book.schedules = s.book.schedules := rfl
@[simp] theorem recordNotice_book (k : NoticeKind) (i : BookIx) (d : Nat) (c : Option Port) (s : State) :
    (recordNotice k i d c s).book = s.book := rfl
@[simp] theorem bookNotice_book (k : NoticeKind) (id : BookingId) (r : Room) (w : Owner) (o : Option OrderId) (d : Nat) (c : Option Port)
    (s : State) : (bookNotice k id r w o d c s).book = s.book := rfl
@[simp] theorem answerExchange_book (x : Exchange) (c : Code) (items : List Byte) (s : State) :
    (answerExchange x c items s).book = s.book := by
  unfold answerExchange
  split <;> rfl
@[simp] theorem dropOrder_book (id : BookingId) (o : Option OrderId) (s : State) : (dropOrder id o s).book = s.book := by
  unfold dropOrder
  split <;> rfl

section
variable {s : State} (ordered : SchedulesOrdered s)
include ordered

theorem SchedulesOrdered.changeEntry (r : Room) (i : BookIx) (f : Entry → Entry) : SchedulesOrdered (changeEntry r i f s) :=
  ordered.setSchedule r (ascending_insertAll _ ((ordered r).filter _))

theorem SchedulesOrdered.setSummary (i : BookIx) (x : Summary) : SchedulesOrdered (setSummary i x s) := ordered.changeEntry _ _ _

theorem SchedulesOrdered.setBody (i : BookIx) (b : Body) : SchedulesOrdered (setBody i b s) := ordered.of_schedules rfl

theorem SchedulesOrdered.setPending (i : BookIx) (x : BPending) : SchedulesOrdered (setPending i x s) := ordered.of_schedules rfl

theorem SchedulesOrdered.setState (i : BookIx) (b : Body) (x : BState) : SchedulesOrdered (setState i b x s) :=
  (ordered.setBody i { b with state := x }).setSummary i x.summary

theorem SchedulesOrdered.allocate (i : BookIx) (b : Body) : SchedulesOrdered (allocate i b s) := by
  have written : SchedulesOrdered (setRec i ⟨b, .live, (s.bookRec i).gen, none, .none⟩ s) := ordered.of_schedules rfl
  exact written.setSchedule b.room (ascending_insertEntry _ (written b.room))

theorem SchedulesOrdered.freeRecord (i : BookIx) (k : NoticeKind) (d : Nat) (c : Option Port) :
    SchedulesOrdered (freeRecord i k d c s) := by
  have left := ordered.setSchedule (s.roomOf i) ((ordered (s.roomOf i)).filter (fun e => e.index != i))
  refine left.of_schedules ?_
  unfold Machine.freeRecord
  dsimp only
  split <;> rfl

theorem SchedulesOrdered.damage (i : BookIx) : SchedulesOrdered (damage i s) := by
  have damaged : SchedulesOrdered (setRec i { s.bookRec i with life := .damaged } s) := ordered.of_schedules rfl
  have summary := damaged.setSummary i .damaged
  refine summary.of_schedules ?_
  unfold Machine.damage
  dsimp only
  split <;> rfl

theorem SchedulesOrdered.readBody (i : BookIx) : SchedulesOrdered (readBody i s).2 := by
  unfold Machine.readBody
  dsimp only
  split
  · exact ordered
  · split
    · exact ordered.of_schedules rfl
    · exact ordered.damage i

end

/-- What a read of a body leaves keeps the order, whatever the read found. -/
theorem SchedulesOrdered.of_readBody {s t : State} (ordered : SchedulesOrdered s) {i : BookIx} {b : Option Body}
    (read : Machine.readBody i s = (b, t)) : SchedulesOrdered t := by
  have kept := ordered.readBody i
  rwa [read] at kept

/-! ## The deadlines and the tick -/

section
variable {s : State} (ordered : SchedulesOrdered s)
include ordered

theorem SchedulesOrdered.holdExpiryOn (m : Nat) (i : BookIx) : SchedulesOrdered (holdExpiryOn m i s) := by
  unfold Machine.holdExpiryOn
  split
  · split
    · next read =>
      have after := ordered.of_readBody read
      split
      · exact after.freeRecord _ _ _ _
      · exact after
    · next read => exact ordered.of_readBody read
  · exact ordered

theorem SchedulesOrdered.endOn (n : Nat) (i : BookIx) : SchedulesOrdered (endOn n i s) := by
  unfold Machine.endOn
  split
  · split
    · exact ordered.freeRecord _ _ _ _
    · split
      · next read =>
        have after := ordered.of_readBody read
        split
        · exact after.freeRecord _ _ _ _
        · exact after.freeRecord _ _ _ _
      · next read => exact (ordered.of_readBody read).freeRecord _ _ _ _
  · exact ordered

theorem SchedulesOrdered.noShow (rooms : Vector RoomRec 128) (z : ZoneTable) (i : BookIx) (b : Body) :
    SchedulesOrdered (noShow rooms z i b s) := by
  unfold Machine.noShow
  dsimp only
  split
  · exact ordered.setState _ _ _
  · exact (ordered.freeRecord i .released (z.attrOf b.room).g none).of_schedules rfl

theorem SchedulesOrdered.noShowOn (rooms : Vector RoomRec 128) (z : ZoneTable) (n : Nat) (i : BookIx) :
    SchedulesOrdered (noShowOn rooms z n i s) := by
  unfold Machine.noShowOn
  split
  · split
    · next read =>
      have after := ordered.of_readBody read
      split
      · exact after.noShow _ _ _ _
      · exact after
    · next read => exact ordered.of_readBody read
  · exact ordered

theorem SchedulesOrdered.startOn (n : Nat) (i : BookIx) : SchedulesOrdered (startOn n i s) := by
  unfold Machine.startOn
  split
  · split
    · next read =>
      have after := ordered.of_readBody read
      split
      · exact after.setState _ _ _
      · exact after
    · next read => exact ordered.of_readBody read
  · exact ordered

theorem SchedulesOrdered.heldDeadlines (n : Nat) (i : BookIx) : SchedulesOrdered (heldDeadlines n i s) :=
  ((ordered.endOn n i).noShowOn _ _ n i).startOn n i

theorem SchedulesOrdered.scrubOne (i : BookIx) : SchedulesOrdered (scrubOne i s) := by
  unfold Machine.scrubOne
  split
  · exact ordered.readBody i
  · exact ordered

theorem SchedulesOrdered.readAll (is : List BookIx) : SchedulesOrdered (readAll is s) :=
  foldl_keeps (I := SchedulesOrdered) _ (fun _ i kept => kept.scrubOne i) is s ordered

theorem SchedulesOrdered.scrub : SchedulesOrdered (scrub s) := by
  unfold Machine.scrub
  dsimp only
  generalize (List.range 16).map _ = is
  refine (foldl_keeps (I := SchedulesOrdered) _ (fun _ i kept => kept.scrubOne i) is s ordered).of_schedules ?_
  rw [State.setBook_book]

theorem SchedulesOrdered.bookBoundary (n : Nat) : SchedulesOrdered (bookBoundary n s) := by
  unfold Machine.bookBoundary
  refine foldl_keeps (I := SchedulesOrdered) _ (fun _ i kept => kept.startOn n i) _ _ ?_
  refine foldl_keeps (I := SchedulesOrdered) _ (fun _ i kept => kept.noShowOn s.rzt.rooms s.rzt.zones n i) _ _ ?_
  refine foldl_keeps (I := SchedulesOrdered) _ (fun _ i kept => kept.endOn n i) _ _ ?_
  exact ordered.of_schedules rfl

theorem SchedulesOrdered.bookTick (c : Clock) : SchedulesOrdered (bookTick c s) := by
  have expired := foldl_keeps (I := SchedulesOrdered) _ (fun _ i kept => kept.holdExpiryOn c.minutes i)
    (entryIxs (fun e => e.summary = .held) s) s ordered
  unfold Machine.bookTick
  dsimp only
  split
  · exact expired.scrub.bookBoundary _
  · exact expired.scrub

end

end Sys2Proof.Machine

/-! PROOFS. Every command keeps every schedule in ascending START. -/

namespace Sys2Proof.Machine

open Host

variable {s : State} (ordered : SchedulesOrdered s)
include ordered

/-! ## The requests -/

theorem SchedulesOrdered.reply (q : Asker) (c : Code) (items : List Byte) : SchedulesOrdered (reply q c items s) := ordered.of_book rfl

theorem SchedulesOrdered.onRecord {q : Asker} {id : BookingId} {items : State → List Byte} {work : Body → State → State}
    (go : ∀ b t, SchedulesOrdered t → SchedulesOrdered (work b t)) : SchedulesOrdered (onRecord q id items work s) := by
  unfold Machine.onRecord
  repeat' split
  · exact ordered.reply _ _ _
  · exact ordered.reply _ _ _
  · exact ordered.reply _ _ _
  · next read => exact go _ _ (ordered.of_readBody read)
  · next read => exact (ordered.of_readBody read).reply _ _ _

theorem SchedulesOrdered.makeBooking (q : Asker) (a : BookArg) : SchedulesOrdered (makeBooking q a s) := by
  unfold Machine.makeBooking
  repeat' split
  case h_2 => exact (ordered.allocate _ _).of_book rfl
  all_goals exact ordered.reply _ _ _

theorem SchedulesOrdered.confirmWork (q : Asker) (id : BookingId) : SchedulesOrdered (confirmWork q id s) := by
  refine ordered.onRecord fun b t kept => ?_
  dsimp only
  repeat' split
  · exact kept.reply _ _ _
  · exact (kept.setState id.index { b with holdExpiry := none } .confirmed).of_book rfl
  · exact kept.reply _ _ _

theorem SchedulesOrdered.findFreeWork (q : Asker) (a : Nat × Span × Nat) : SchedulesOrdered (findFreeWork q a s) := by
  unfold Machine.findFreeWork
  dsimp only
  repeat' split
  all_goals exact ordered.reply _ _ _

theorem SchedulesOrdered.cancelDamaged (q : Asker) (i : BookIx) : SchedulesOrdered (cancelDamaged q i s) := by
  unfold Machine.cancelDamaged
  repeat' split
  · exact (ordered.freeRecord _ _ _ _).reply _ _ _
  · exact ordered.reply _ _ _
  · exact ordered.reply _ _ _

theorem SchedulesOrdered.cancelWork (q : Asker) (id : BookingId) : SchedulesOrdered (cancelWork q id s) := by
  unfold Machine.cancelWork
  split
  · exact ordered.reply _ _ _
  · split
    · exact ordered.reply _ _ _
    · split
      · exact ordered.cancelDamaged _ _
      · split
        · next read => exact (ordered.of_readBody read).cancelDamaged _ _
        · next read =>
          have after := ordered.of_readBody read
          repeat' split
          · exact after.reply _ _ _
          · exact after.reply _ _ _
          · exact (after.freeRecord _ _ _ _).reply _ _ _

theorem SchedulesOrdered.modifyAtOnce (q : Asker) (a : ModifyArg) (b : Body) : SchedulesOrdered (modifyAtOnce q a b s) :=
  ((ordered.setBody a.id.index (b.moved (a.newSpan b) (a.newAttendees b) s)).changeEntry b.room a.id.index _).of_book rfl

theorem SchedulesOrdered.sendMove (q : Asker) (a : ModifyArg) (b : Body) (o : OrderId) : SchedulesOrdered (sendMove q a b o s) :=
  (ordered.setSchedule b.room (ascending_insertEntry _ (ordered b.room))).of_schedules rfl

theorem SchedulesOrdered.modifyWork (q : Asker) (a : ModifyArg) : SchedulesOrdered (modifyWork q a s) := by
  unfold Machine.modifyWork
  split
  · exact ordered.reply _ _ _
  · refine ordered.onRecord fun b t kept => ?_
    repeat' split
    · exact kept.reply _ _ _
    · exact kept.reply _ _ _
    · exact kept.sendMove _ _ _ _
    · exact kept.modifyAtOnce _ _ _
    · exact kept.modifyAtOnce _ _ _

theorem SchedulesOrdered.checkInConfirmed (i : BookIx) (b : Body) (path : Nat) (cause : Option Port) :
    SchedulesOrdered (checkInConfirmed i b path cause s).2 := by
  unfold Machine.checkInConfirmed
  repeat' split
  · exact ordered
  · exact (ordered.setBody i { b with earlyIn := true, checkinMinute := some s.bookMinute }).of_book rfl
  · exact (ordered.setState i { b with checkinMinute := some s.bookMinute } .active).of_book rfl

theorem SchedulesOrdered.checkInActive (i : BookIx) (b : Body) (path : Nat) (cause : Option Port) :
    SchedulesOrdered (checkInActive i b path cause s).2 := by
  unfold Machine.checkInActive
  split
  · exact (ordered.setBody i { b with unverified := false, checkinMinute := some s.bookMinute }).of_book rfl
  · exact ordered

theorem SchedulesOrdered.checkInWork (q : Asker) (id : BookingId) : SchedulesOrdered (checkInWork q id s) := by
  unfold Machine.checkInWork
  split
  · exact ordered.reply _ _ _
  · refine ordered.onRecord fun b t kept => ?_
    dsimp only
    split
    · repeat' split
      · exact kept.reply _ _ _
      · exact (kept.checkInConfirmed _ _ _ _).reply _ _ _
      · exact kept.reply _ _ _
      · exact kept.reply _ _ _
    · exact (kept.checkInActive _ _ _ _).reply _ _ _
    · exact kept.reply _ _ _
    · exact kept.reply _ _ _

theorem SchedulesOrdered.sendAttach (q : Asker) (id : BookingId) (prm : OrderParam) (b : Body) :
    SchedulesOrdered (sendAttach q id prm b s) :=
  (ordered.setPending id.index .attach).of_schedules rfl

theorem SchedulesOrdered.orderWork (q : Asker) (a : BookingId × OrderParam) : SchedulesOrdered (orderWork q a s) := by
  unfold Machine.orderWork
  split
  · exact ordered.reply _ _ _
  · refine ordered.onRecord fun b t kept => ?_
    dsimp only
    split
    · exact kept.reply _ _ _
    · exact kept.reply _ _ _
    all_goals
      repeat' split
      · exact kept.reply _ _ _
      · exact kept.reply _ _ _
      · exact kept.sendAttach _ _ _ _

theorem SchedulesOrdered.reseat (q : Asker) (i : BookIx) (b : Body) (r : Room) : SchedulesOrdered (reseat q i b r s) := by
  have left := ordered.setSchedule b.room ((ordered b.room).filter (fun e => e.index != i))
  have joined := left.setSchedule r
    (ascending_insertAll (f := id) ((s.schedule b.room).filter (fun e => e.index = i)) (left r))
  refine joined.of_schedules ?_
  unfold Machine.reseat
  dsimp only
  split <;> rfl

omit ordered in
theorem SchedulesOrdered.cascadeOne {q : Asker} {c : Cascade} {i : BookIx} (ordered : SchedulesOrdered c.state) :
    SchedulesOrdered (cascadeOne q c i).state := by
  unfold Machine.cascadeOne
  dsimp only
  repeat' split
  · exact ordered.reseat _ _ _ _
  · exact ordered.freeRecord _ _ _ _
  · exact ordered.freeRecord _ _ _ _

omit ordered in
theorem SchedulesOrdered.cascade (q : Asker) (is : List BookIx) {c : Cascade} (ordered : SchedulesOrdered c.state) :
    SchedulesOrdered (is.foldl (Machine.cascadeOne q) c).state := by
  induction is generalizing c with
  | nil => exact ordered
  | cons i is ih => exact ih ordered.cascadeOne

theorem SchedulesOrdered.carryBlock (q : Asker) (a : BlockArg) (r : Room) (sp : Span) : SchedulesOrdered (carryBlock q a r sp s) := by
  have cleared := SchedulesOrdered.cascade q ((overlapping s r sp).map Entry.index) (c := ⟨0, 0, s⟩) ordered
  unfold Machine.carryBlock
  dsimp only
  split
  · exact cleared
  · next i _ =>
    refine (cleared.allocate i (blockBody q r sp a)).of_book ?_
    simp

theorem SchedulesOrdered.blockRoomWork (q : Asker) (a : BlockArg) : SchedulesOrdered (blockRoomWork q a s) := by
  unfold Machine.blockRoomWork
  dsimp only
  split
  · exact ordered.reply _ _ _
  · split
    · split
      · exact ordered.reply _ _ _
      · split
        · exact ordered.reply _ _ _
        · repeat' split
          · exact ordered.reply _ _ _
          · exact ordered.reply _ _ _
          · exact (ordered.readAll _).reply _ _ _
          · exact (ordered.readAll _).carryBlock _ _ _ _
    · exact ordered.reply _ _ _

theorem SchedulesOrdered.unblockWork (q : Asker) (id : BookingId) : SchedulesOrdered (unblockWork q id s) := by
  refine ordered.onRecord fun b t kept => ?_
  split
  · exact (kept.freeRecord _ _ _ _).reply _ _ _
  · exact kept.reply _ _ _

theorem SchedulesOrdered.clearBookStatsWork (q : Asker) (u : Unit) : SchedulesOrdered (clearBookStatsWork q u s) :=
  ordered.of_schedules rfl

theorem SchedulesOrdered.queryRoomWork (q : Asker) (a : Nat × Nat × Option Nat) : SchedulesOrdered (queryRoomWork q a s) := by
  unfold Machine.queryRoomWork
  dsimp only
  split
  · exact ordered.reply _ _ _
  · exact ordered.reply _ _ _

theorem SchedulesOrdered.queryBookingWork (q : Asker) (id : BookingId) : SchedulesOrdered (queryBookingWork q id s) :=
  ordered.onRecord fun _ _ kept => kept.reply _ _ _

theorem SchedulesOrdered.queryBookStatsWork (q : Asker) (u : Unit) : SchedulesOrdered (queryBookStatsWork q u s) :=
  ordered.reply _ _ _

/-! ## OCU's requests -/

theorem SchedulesOrdered.firstSound (is : List BookIx) : SchedulesOrdered (firstSound is s).2 := by
  induction is generalizing s with
  | nil => exact ordered
  | cons i is ih =>
    unfold Machine.firstSound
    split
    · split
      · next read => exact ordered.of_readBody read
      · next read => exact ih (ordered.of_readBody read)
    · exact ih ordered

theorem SchedulesOrdered.of_firstSound {is : List BookIx} {x : Option (BookIx × Body)} {t : State}
    (found : Machine.firstSound is s = (x, t)) : SchedulesOrdered t := by
  have kept := ordered.firstSound is
  rwa [found] at kept

theorem SchedulesOrdered.panelCheckinOutcome (r : Room) (badge : Option Nat) : SchedulesOrdered (panelCheckinOutcome r badge s).2 := by
  unfold Machine.panelCheckinOutcome
  dsimp only
  generalize (if badge.isSome then 1 else 0) = path
  split
  · next found =>
    have kept := ordered.of_firstSound found
    repeat' split
    · exact kept
    · exact kept.checkInConfirmed _ _ _ _
    · exact kept
  · next found =>
    have kept := ordered.of_firstSound found
    split
    · next found =>
      have kept := kept.of_firstSound found
      repeat' split
      · exact kept
      · exact kept.checkInActive _ _ _ _
      · exact kept
    · next found => exact kept.of_firstSound found

theorem SchedulesOrdered.endNowOutcome (r : Room) : SchedulesOrdered (endNowOutcome r s).2 := by
  unfold Machine.endNowOutcome
  split
  · next found => exact (ordered.of_firstSound found).freeRecord _ _ _ _
  · next found => exact ordered.of_firstSound found

theorem SchedulesOrdered.extendOutcome (r : Room) (n : Nat) : SchedulesOrdered (extendOutcome r n s).2 := by
  unfold Machine.extendOutcome
  dsimp only
  split
  · next found =>
    have kept := ordered.of_firstSound found
    split
    · exact kept
    · exact ((kept.setBody _ _).changeEntry _ _ _).of_book rfl
  · next found => exact ordered.of_firstSound found

theorem SchedulesOrdered.walkupOutcome (r : Room) (badge : Option Nat) : SchedulesOrdered (walkupOutcome r badge s).2 := by
  unfold Machine.walkupOutcome
  dsimp only
  repeat' split
  case h_2 => exact (ordered.allocate _ _).of_book rfl
  all_goals exact ordered

theorem SchedulesOrdered.ghostReleaseOutcome (r : Room) : SchedulesOrdered (ghostReleaseOutcome r s).2 := by
  unfold Machine.ghostReleaseOutcome
  split
  · next found =>
    have kept := ordered.of_firstSound found
    split
    · exact kept
    · next i b t _ => exact (kept.freeRecord i .ghostReleased (t.attrOf r).h none).of_schedules rfl
  · next found => exact ordered.of_firstSound found

/-! ## The planner's answers, the tables and the stop -/

theorem SchedulesOrdered.attachAnswered (n : Nat) (id : BookingId) (result : Except Code OrderId) :
    SchedulesOrdered (attachAnswered n id result s) := by
  refine ordered.of_schedules ?_
  unfold Machine.attachAnswered
  dsimp only
  repeat' split
  all_goals simp

theorem SchedulesOrdered.settleClaim (i : BookIx) (moved : Bool) (x : Summary) : SchedulesOrdered (settleClaim i moved x s) := by
  refine ordered.setSchedule _ ?_
  split
  · refine List.pairwise_map.mpr (((ordered _).filter _).imp fun {a b} before => ?_)
    split <;> split <;> exact before
  · exact (ordered _).filter _

theorem SchedulesOrdered.completeMove (x : Exchange) (sp : Span) (att : Option Nat) (failure : Option Code) :
    SchedulesOrdered (completeMove x sp att failure s) := by
  unfold Machine.completeMove
  dsimp only
  refine SchedulesOrdered.heldDeadlines ?_ _ _
  repeat' split
  · exact (ordered.settleClaim x.id.index failure.isNone .damaged).of_schedules (by simp)
  · exact (ordered.settleClaim x.id.index false .confirmed).of_schedules (by simp)
  · next read => exact ((ordered.of_readBody read).settleClaim x.id.index true .damaged).of_schedules (by simp)
  · next b t read => exact ((ordered.of_readBody read).settleClaim x.id.index true b.state.summary).of_schedules (by simp)

theorem SchedulesOrdered.moveAnswered (n : Nat) (o : OrderId) (failure : Option Code) : SchedulesOrdered (moveAnswered n o failure s) := by
  unfold Machine.moveAnswered
  dsimp only
  repeat' split
  · exact ordered
  · exact ordered
  all_goals
    next x rest _ _ _ _ _ _ =>
    have answered : SchedulesOrdered (s.setBook { s.book with exchanges := rest }) := ordered.of_schedules rfl
    refine SchedulesOrdered.completeMove (answered.of_book ?_) _ _ _ _
    rfl

theorem SchedulesOrdered.orderEndedWork (id : BookingId) (o : OrderId) (d : Bool) : SchedulesOrdered (orderEndedWork id o d s) := by
  unfold Machine.orderEndedWork
  dsimp only
  split
  · next r _ =>
    have ended : SchedulesOrdered (setRec id.index { r with order := none } s) := ordered.of_schedules rfl
    repeat' split
    · next b t read => exact ((ended.of_readBody read).setBody id.index { b with cateringDelivered := true }).of_book rfl
    · next read => exact ended.of_readBody read
    · exact ended
    · exact ordered
  · exact ordered

theorem SchedulesOrdered.reevaluate (i : BookIx) : SchedulesOrdered (reevaluate s i) := by
  unfold Machine.reevaluate
  dsimp only
  split
  · split
    · next b t read =>
      have changed := (ordered.of_readBody read).setBody i { b with overCapacity := exceedsCap t b.room b.attendees }
      split
      · exact changed.of_book rfl
      · exact changed
    · next read => exact ordered.of_readBody read
  · exact ordered

theorem SchedulesOrdered.stopMove (x : Exchange) : SchedulesOrdered (stopMove s x) := by
  unfold Machine.stopMove
  split
  · exact ordered.completeMove _ _ _ _
  · exact ordered

theorem SchedulesOrdered.bookStop : SchedulesOrdered (bookStop s) := by
  unfold Machine.bookStop
  exact foldl_keeps (I := SchedulesOrdered) _ (fun _ x kept => kept.stopMove x) _ _ (ordered.of_schedules rfl)

/-! ## The other blocks' reads -/

theorem SchedulesOrdered.readForDisplay (r : Room) : SchedulesOrdered (readForDisplay r s) := by
  unfold Machine.readForDisplay
  repeat' split
  · exact ordered
  · exact ordered.scrubOne _
  · exact ordered.scrubOne _
  · exact ordered
  · exact ordered

theorem SchedulesOrdered.recompose (r : Room) : SchedulesOrdered (recompose r s) := by
  have read := ordered.readForDisplay r
  unfold Machine.recompose
  dsimp only
  repeat' split
  · exact read
  · exact read.of_book rfl
  · exact read

theorem SchedulesOrdered.recomposeAll : SchedulesOrdered (recomposeAll s) :=
  foldl_keeps (I := SchedulesOrdered) _ (fun _ r kept => kept.recompose r) _ _ ordered

theorem SchedulesOrdered.displayLoss (r : Room) : SchedulesOrdered (displayLoss r s) := by
  have read := ordered.readForDisplay r
  unfold Machine.displayLoss
  dsimp only
  split
  · exact read.of_book rfl
  · exact read

theorem SchedulesOrdered.setFeedback (r : Room) (f : Feedback) : SchedulesOrdered (setFeedback r f s) :=
  SchedulesOrdered.recompose
    (s := s.setOcu { s.ocu with feedback := put s.ocu.feedback r (some (f, s.ocuSlot + 2)) }) (ordered.of_book rfl) r

end Sys2Proof.Machine

/-! PROOFS. Every step keeps every schedule in ascending START. -/

namespace Sys2Proof.Machine

open Host

/-! ## The works of the other blocks that read the book -/

section
variable {s : State} (ordered : SchedulesOrdered s)
include ordered

theorem SchedulesOrdered.testPresence (r : Room) : SchedulesOrdered (testPresence r s) := by
  have read : SchedulesOrdered (readForPresence r s) := by
    unfold readForPresence
    dsimp only
    split
    · exact ordered.readAll _
    · exact ordered
  refine read.of_book ?_
  unfold Machine.testPresence
  dsimp only
  split
  · exact (only_joinOnce (ps := [.ocu, .wires]) (by decide)).mpr (.refl _ _) .book (by decide)
  · rfl

theorem SchedulesOrdered.presenceReport (era : Nat) (r : Room) (last : Raw) (prev : Option Raw) :
    SchedulesOrdered (presenceReport era r last prev s) := by
  unfold Machine.presenceReport
  dsimp only
  repeat' split
  · refine SchedulesOrdered.testPresence ?_ r
    exact ordered.of_book ((only_withdrawGhost (ps := [.ocu, .wires]) (by decide)).mpr
      ((only_setOcu (by decide)).mpr (.refl _ _)) .book (by decide))
  · exact ordered.of_book rfl
  · exact ordered

theorem SchedulesOrdered.ghostCountOne (slot : Nat) (r : Room) : SchedulesOrdered (ghostCountOne slot s r) := by
  have read : SchedulesOrdered (readForGhost slot r s) := by
    unfold readForGhost
    split
    · exact ordered
    · exact ordered.readAll _
  refine read.of_book ?_
  unfold Machine.ghostCountOne
  dsimp only
  split
  · rfl
  · generalize ghostStep _ _ = n
    split
    · exact (only_joinOnce (ps := [.ocu, .wires]) (by decide)).mpr ((only_setOcu (by decide)).mpr (.refl _ _)) .book (by decide)
    · rfl

theorem SchedulesOrdered.ocuTick (c : Clock) : SchedulesOrdered (ocuTick c s) := by
  have swept : SchedulesOrdered (s.setOcu { s.ocu with feedback := mapV (fun f => if feedbackOver c.slot f then none else f) s.ocu.feedback }) :=
    ordered.of_book rfl
  unfold Machine.ocuTick
  split
  · unfold Machine.ocuBoundary
    dsimp only
    refine SchedulesOrdered.recomposeAll (foldl_keeps (I := SchedulesOrdered) _ (fun _ r kept => kept.testPresence r) _ _ ?_)
    split
    · exact swept
    · exact foldl_keeps (I := SchedulesOrdered) _ (fun _ r kept => kept.ghostCountOne c.slot r) _ _ swept
  · exact ordered

theorem SchedulesOrdered.ocuExpiry : SchedulesOrdered (ocuExpiry s) := by
  refine SchedulesOrdered.recomposeAll (foldl_keeps (I := SchedulesOrdered) _ (fun t it kept => ?_) _ _ (ordered.of_book rfl))
  unfold flushItem
  split
  · exact (kept.setFeedback it.room .notAvailable).of_book
      ((only_verdictFor (ps := [.wires]) (by decide)).mpr (.refl _ _) .book (by decide))
  · exact kept
  · exact kept

theorem SchedulesOrdered.moveAnswerWork (n : Nat) (o : OrderId) (failure : Option Code) :
    SchedulesOrdered (moveAnswerWork n o failure s) := by
  unfold Machine.moveAnswerWork
  repeat' split
  · exact ordered.moveAnswered _ _ _
  · exact ordered
  · exact ordered.of_book rfl
  · exact ordered.of_book ((only_restoreOrder (ps := [.kpl, .wires]) (by decide) (by decide)).mpr (.refl _ _) .book (by decide))

theorem SchedulesOrdered.onTimeSet (b : TimedBlock) : SchedulesOrdered (onTimeSet b s) := by
  cases b with
  | ocu =>
    unfold Machine.onTimeSet ocuTimeSet
    exact SchedulesOrdered.recomposeAll (ordered.of_book rfl)
  | rbk => exact ordered.of_schedules (t := s.setBook { s.book with frozen := false }) rfl
  | kpl => exact ordered.of_book (t := s.setKpl { s.kpl with frozen := false }) rfl
  | psl => exact ordered.of_book (t := s.setPsl { s.psl with frozen := false }) rfl
  | rzt | pwc => exact ordered

theorem SchedulesOrdered.onExpiry (b : TimedBlock) : SchedulesOrdered (onExpiry b s) := by
  cases b with
  | ocu => exact ordered.ocuExpiry
  | _ => exact ordered

theorem SchedulesOrdered.panelEvent (l : Line) (a : Addr) (r : Room) (ev : PEvent) : SchedulesOrdered (panelEvent l a r ev s) := by
  unfold Machine.panelEvent
  repeat' split
  · exact ordered.of_book rfl
  · exact (ordered.setFeedback r .notAvailable).of_book rfl
  · exact ordered.of_book ((only_joinPanel (ps := [.ocu, .wires]) (by decide) (by decide)).mpr (.refl _ _) .book (by decide))
  · exact ordered

theorem SchedulesOrdered.itemAnswered (it : Item) (o : BookOutcome) : SchedulesOrdered (itemAnswered it o s) := by
  have given (t : State) (taken : Bool) : (verdictFor it taken t).book = t.book :=
    (only_verdictFor (ps := [.wires]) (by decide)).mpr (.refl _ _) .book (by decide)
  unfold Machine.itemAnswered
  split
  · split
    · exact (ordered.setFeedback _ _).of_book (given _ _)
    · exact ordered.of_book (given _ _)
  · exact ordered
  · exact ordered.of_book rfl

theorem SchedulesOrdered.pslTick (c : Clock) : SchedulesOrdered (pslTick c s) := by
  have halved : SchedulesOrdered (if halvingDue s c then halve c.day s else s) := by
    split
    · exact ordered.of_book rfl
    · exact ordered
  unfold Machine.pslTick
  dsimp only
  split
  · unfold countUsage
    refine (foldl_keeps (I := SchedulesOrdered) readForUsage (fun t r kept => ?_) (List.finRange 128) _ halved).of_book ?_
    swap
    · rw [State.setPsl_book]
    unfold readForUsage
    split
    · exact kept.readAll _
    · exact kept
  · exact halved

end

/-! ## The commands -/

theorem schedulesOrdered_of_empty {s : State} (empty : s.book.schedules = Vector.replicate 128 []) : SchedulesOrdered s := by
  intro r
  have none : s.schedule r = [] := by simp [State.schedule, empty]
  rw [none]
  exact List.Pairwise.nil

/-- What an agent's request of the book leaves. -/
theorem schedulesOrdered_onBookRequest {α : Type} {s : State} (ordered : SchedulesOrdered s) {p : Port} {sel : Request → Option α}
    {work : Asker → α → State → State} (go : ∀ {t} (_ : SchedulesOrdered t) q a, SchedulesOrdered (work q a t)) :
    SchedulesOrdered (onBookRequest p sel work s) :=
  onBookRequest_cases ordered fun _ _ _ _ _ => go (t := s.bookTook _ _) (ordered.of_schedules rfl) _ _

/-- What a request of OCU leaves, its outcome handed. -/
theorem schedulesOrdered_onOcuRequest {s : State} (ordered : SchedulesOrdered s) {req : OcuRequest}
    {work : Item → State → BookOutcome × State} (go : ∀ {t} (_ : SchedulesOrdered t) it, SchedulesOrdered (work it t).2) :
    SchedulesOrdered (onOcuRequest req (giveOutcome work) s) :=
  onOcuRequest_cases ordered fun it _ _ => (go (t := setGrant .ocu s) (ordered.of_schedules rfl) it).of_book rfl

/-- What a message of the planner leaves. -/
theorem schedulesOrdered_takePlan {α : Type} {s : State} (ordered : SchedulesOrdered s) {sel : PlanMsg → Option α}
    {work : α → State → State} (go : ∀ {t} (_ : SchedulesOrdered t) a, SchedulesOrdered (work a t)) :
    SchedulesOrdered (takePlan sel work s) := by
  unfold takePlan
  split
  · exact go (t := s.setWires { s.wires with toBook := s.wires.toBook.tail }) (ordered.of_book rfl) _
  · exact ordered

/-- What a message of a line leaves. -/
theorem schedulesOrdered_takeFromLine {α : Type} {s : State} (ordered : SchedulesOrdered s) {l : Line} {a : Addr}
    {sel : LineMsg → Option α} {work : α → State → State} (go : ∀ {t} (_ : SchedulesOrdered t) x, SchedulesOrdered (work x t)) :
    SchedulesOrdered (takeFromLine l a sel work s) :=
  takeFromLine_cases ordered fun _ rest => go (t := s.setWires { s.wires with fromLine := put s.wires.fromLine l rest }) (ordered.of_book rfl) _

/-- What a tick leaves. -/
theorem schedulesOrdered_takeTick {s : State} (ordered : SchedulesOrdered s) {b : TimedBlock} {want : Clock → Bool}
    {work : Clock → State → State} (go : ∀ {t} (_ : SchedulesOrdered t) c, SchedulesOrdered (work c t)) :
    SchedulesOrdered (takeTick b want work s) :=
  takeTick_cases ordered fun c _ _ => (go (t := s.ticked b c) (ordered.of_book rfl) c).of_book (settleTime_book _)

/-- What a message of the supply controller leaves. -/
theorem schedulesOrdered_takeSupply {α : Type} {s : State} (ordered : SchedulesOrdered s) {i : Fin 12} {sel : SupplyMsg → Option α}
    {work : α → State → State} (go : ∀ {t} (_ : SchedulesOrdered t) a, SchedulesOrdered (work a t)) :
    SchedulesOrdered (takeSupply i sel work s) :=
  takeSupply_cases ordered fun _ a _ _ => (go (ordered.of_book (popSupply_book i s)) a).of_book (settleSupply_book _)

theorem exec_schedulesOrdered {c : Instr} {s t : State} (ordered : SchedulesOrdered s) (run : exec c s = .next t) :
    SchedulesOrdered t := by
  cases c with
  | powerOnReset =>
    apply schedulesOrdered_of_empty
    cases run
    dsimp only
    split
    · exact congrArg Book.schedules
        ((only_powerFailWork (ps := [.pwc, .wires]) (by decide) (by decide)).mpr (.refl _ _) .book (by decide))
    · rfl
  | timeSet b =>
    cases run
    repeat' split
    · next clock _ _ =>
      have set : SchedulesOrdered ((popTime b s).setTime b ⟨clock, .set⟩) := ordered.of_book rfl
      exact (set.onTimeSet b).of_book (settleTime_book _)
    all_goals exact ordered
  | expiryIndication b =>
    cases run
    split
    · have expired : SchedulesOrdered ((popTime b s).setTime b ⟨s.now b, .expired⟩) := ordered.of_book rfl
      exact (expired.onExpiry b).of_book (settleTime_book _)
    · exact ordered
  | bookMinuteTick => cases run; exact schedulesOrdered_takeTick ordered (·.bookTick)
  | holdExpiry i => cases run; exact ordered.holdExpiryOn _ i
  | endBoundary i => cases run; split; exacts [ordered.endOn _ i, ordered]
  | noShowBoundary i => cases run; split; exacts [ordered.noShowOn _ _ _ i, ordered]
  | startBoundary i => cases run; split; exacts [ordered.startOn _ i, ordered]
  | usageCount | levellingHalving => cases run; exact schedulesOrdered_takeTick ordered (·.pslTick)
  | ocuSlotBoundary => cases run; exact schedulesOrdered_takeTick ordered (·.ocuTick)
  | feedbackExpiry r =>
    cases run
    split
    · exact SchedulesOrdered.recompose (s := clearFeedback r s) (ordered.of_book rfl) r
    · exact ordered
  | bookEmpty =>
    cases run
    split
    · refine schedulesOrdered_of_empty ?_
      rw [settleTime_book, State.setCtu_book, indicateEmptied_eq]
      rfl
    · exact ordered
  | hold p | book p => cases run; exact schedulesOrdered_onBookRequest ordered (·.makeBooking)
  | confirm p => cases run; exact schedulesOrdered_onBookRequest ordered (·.confirmWork)
  | findFree p => cases run; exact schedulesOrdered_onBookRequest ordered (·.findFreeWork)
  | cancel p => cases run; exact schedulesOrdered_onBookRequest ordered (·.cancelWork)
  | modify p => cases run; exact schedulesOrdered_onBookRequest ordered (·.modifyWork)
  | checkIn p => cases run; exact schedulesOrdered_onBookRequest ordered (·.checkInWork)
  | order p => cases run; exact schedulesOrdered_onBookRequest ordered (·.orderWork)
  | blockRoom p => cases run; exact schedulesOrdered_onBookRequest ordered (·.blockRoomWork)
  | unblock p => cases run; exact schedulesOrdered_onBookRequest ordered (·.unblockWork)
  | clearBookStats p => cases run; exact schedulesOrdered_onBookRequest ordered (·.clearBookStatsWork)
  | queryRoom p => cases run; exact schedulesOrdered_onBookRequest ordered (·.queryRoomWork)
  | queryBooking p => cases run; exact schedulesOrdered_onBookRequest ordered (·.queryBookingWork)
  | queryBookStats p => cases run; exact schedulesOrdered_onBookRequest ordered (·.queryBookStatsWork)
  | panelCheckin => cases run; exact schedulesOrdered_onOcuRequest ordered fun kept it => kept.panelCheckinOutcome it.room it.badge
  | endNow => cases run; exact schedulesOrdered_onOcuRequest ordered fun kept it => kept.endNowOutcome it.room
  | extend => cases run; exact schedulesOrdered_onOcuRequest ordered fun kept it => kept.extendOutcome it.room (it.slots.getD 0)
  | walkup => cases run; exact schedulesOrdered_onOcuRequest ordered fun kept it => kept.walkupOutcome it.room it.badge
  | ghostRelease => cases run; exact schedulesOrdered_onOcuRequest ordered fun kept it => kept.ghostReleaseOutcome it.room
  | attachAnswer => cases run; exact schedulesOrdered_takePlan ordered fun kept a => kept.attachAnswered a.1 a.2.1 a.2.2
  | moveAnswer =>
    cases run
    exact schedulesOrdered_takePlan ordered fun kept a => kept.moveAnswerWork a.1 a.2.1 a.2.2
  | orderEnded => cases run; exact schedulesOrdered_takePlan ordered fun kept a => kept.orderEndedWork a.1 a.2.1 a.2.2
  | bookConfigApplied =>
    cases run
    refine takeConfig_cases ordered fun g _ => SchedulesOrdered.of_book ?_ (settleConfig_book _)
    exact foldl_keeps (I := SchedulesOrdered) _ (fun _ i kept => kept.reevaluate i) _ _ (ordered.of_book rfl)
  | bookStop => cases run; exact schedulesOrdered_takeSupply ordered fun kept _ => kept.bookStop
  | presenceReport l a =>
    cases run
    exact schedulesOrdered_takeFromLine ordered fun kept m => kept.presenceReport m.1 m.2.1 m.2.2.1 m.2.2.2
  | panelEvent l a => cases run; exact schedulesOrdered_takeFromLine ordered fun kept m => kept.panelEvent l a m.1 m.2
  | displayLoss l a => cases run; exact schedulesOrdered_takeFromLine ordered (·.displayLoss)
  | bookOutcome =>
    cases run
    split
    · next it o _ _ =>
      have taken : SchedulesOrdered ((s.setWires { s.wires with outcome := none }).setOcu { s.ocu with presented := none }) :=
        ordered.of_book rfl
      exact (taken.itemAnswered it o).of_book ((only_presentNext (ps := [.ocu]) (by decide)).mpr (.refl _ _) .book (by decide))
    · exact ordered
  | scheduleIndication | orderIndication =>
    cases run
    split
    · refine SchedulesOrdered.recompose (ordered.of_book ?_) _
      rfl
    · exact ordered
  | ocuConfigApplied =>
    cases run
    refine takeConfig_cases ordered fun g _ => SchedulesOrdered.of_book ?_ (settleConfig_book _)
    refine foldl_keeps (I := SchedulesOrdered) _ (fun t r kept => SchedulesOrdered.recompose ?_ r) _ _ (ordered.of_book rfl)
    split
    · exact kept.of_book rfl
    · exact kept
  | ocuSupplyChange =>
    cases run
    refine schedulesOrdered_takeSupply ordered fun kept x => SchedulesOrdered.recomposeAll ?_
    split
    · exact kept.of_book rfl
    · exact kept
  | ocuWarmStart =>
    cases run
    refine schedulesOrdered_takeSupply ordered fun kept _ => ?_
    exact foldl_keeps (I := SchedulesOrdered) _ (fun _ r kept => kept.recompose r) _ _ (kept.of_book rfl)
  | _ => exact ordered.of_book (agree_of_exec (part := .book) run (by simp [touches]))

/-- Settles O9: an entry joins a schedule at its place by START, whatever leaves one or is rewritten in it keeps the order of the rest. -/
theorem stepKeepsSchedulesOrdered : Obligations.StepKeepsSchedulesOrdered :=
  step_keeps (fun _ _ ordered => ordered.of_book rfl) (fun s ordered => ordered.of_book ((only_idle s).agree .book (by decide)))
    (fun _ _ _ ordered run => exec_schedulesOrdered ordered run)

end Sys2Proof.Machine

/-! PROOFS. OCU's items stay apart: an item joins only where none stands that it clashes with, and otherwise items only leave. -/

namespace Sys2Proof.Machine

open Host

/-! ## What leaves OCU's items as they are -/

@[simp] theorem readForDisplay_ocu (r : Room) (s : State) : (readForDisplay r s).ocu = s.ocu :=
  (only_readForDisplay (ps := [.book, .wires]) (by decide) (by decide)).mpr (.refl _ _) .ocu (by decide)

@[simp] theorem readForPresence_ocu (r : Room) (s : State) : (readForPresence r s).ocu = s.ocu :=
  (only_readForPresence (ps := [.book, .wires]) (by decide) (by decide)).mpr (.refl _ _) .ocu (by decide)

@[simp] theorem readForGhost_ocu (slot : Nat) (r : Room) (s : State) : (readForGhost slot r s).ocu = s.ocu :=
  (only_readForGhost (ps := [.book, .wires]) (by decide) (by decide)).mpr (.refl _ _) .ocu (by decide)

@[simp] theorem verdictFor_ocu (it : Item) (taken : Bool) (s : State) : (verdictFor it taken s).ocu = s.ocu :=
  (only_verdictFor (ps := [.wires]) (by decide)).mpr (.refl _ _) .ocu (by decide)

@[simp] theorem foldl_verdictFor_ocu (taken : Bool) (is : List Item) (s : State) :
    (is.foldl (fun s x => verdictFor x taken s) s).ocu = s.ocu := by
  induction is generalizing s with
  | nil => rfl
  | cons x is ih => rw [List.foldl_cons, ih, verdictFor_ocu]

theorem allItems_of_ocu {s t : State} (same : t.ocu = s.ocu) : allItems t = allItems s := by simp [allItems, same]

@[simp] theorem allItems_handDisplay (r : Room) (p : PanelAddr) (d : DisplayRec) (s : State) :
    allItems (handDisplay r p d s) = allItems s := rfl

@[simp] theorem allItems_verdictFor (it : Item) (taken : Bool) (s : State) : allItems (verdictFor it taken s) = allItems s :=
  allItems_of_ocu (verdictFor_ocu _ _ _)

@[simp] theorem allItems_recompose (r : Room) (s : State) : allItems (recompose r s) = allItems s := by
  have read : allItems (readForDisplay r s) = allItems s := allItems_of_ocu (readForDisplay_ocu r s)
  unfold recompose
  dsimp only
  split
  · split
    · exact read
    · rw [allItems_handDisplay, read]
  · exact read

theorem allItems_foldl {α : Type} {f : State → α → State} (keeps : ∀ s x, allItems (f s x) = allItems s) (xs : List α) (s : State) :
    allItems (xs.foldl f s) = allItems s := by
  induction xs generalizing s with
  | nil => rfl
  | cons x xs ih => rw [List.foldl_cons, ih, keeps]

@[simp] theorem allItems_recomposeAll (s : State) : allItems (recomposeAll s) = allItems s :=
  allItems_foldl (fun _ _ => allItems_recompose _ _) _ _

@[simp] theorem allItems_setFeedback (r : Room) (f : Feedback) (s : State) : allItems (setFeedback r f s) = allItems s :=
  allItems_recompose r (s.setOcu { s.ocu with feedback := put s.ocu.feedback r (some (f, s.ocuSlot + 2)) })

@[simp] theorem allItems_displayLoss (r : Room) (s : State) : allItems (displayLoss r s) = allItems s := by
  have read : allItems (readForDisplay r s) = allItems s := allItems_of_ocu (readForDisplay_ocu r s)
  unfold displayLoss
  dsimp only
  split
  · exact read
  · exact read

/-- Presenting the head of the queue only moves the place of the first item. -/
@[simp] theorem allItems_presentNext (s : State) : allItems (presentNext s) = allItems s := by
  unfold presentNext
  split
  · next absent head => simp [allItems, absent, head]
  · rfl

/-! ## What joins and what leaves -/

theorem ItemsApart.of_items {s t : State} (apart : ItemsApart s) (same : allItems t = allItems s) : ItemsApart t := by
  unfold ItemsApart
  rwa [same]

theorem ItemsApart.of_ocu {s t : State} (apart : ItemsApart s) (same : t.ocu = s.ocu) : ItemsApart t :=
  apart.of_items (allItems_of_ocu same)

theorem ItemsApart.of_sublist {s t : State} (apart : ItemsApart s) (fewer : (allItems t).Sublist (allItems s)) : ItemsApart t :=
  List.Pairwise.sublist fewer apart

theorem itemsApart_of_none {s : State} (none : allItems s = []) : ItemsApart s := by
  unfold ItemsApart
  rw [none]
  exact List.Pairwise.nil

theorem ItemsApart.append {s t : State} {it : Item} (apart : ItemsApart s) (joined : allItems t = allItems s ++ [it])
    (free : ∀ x ∈ allItems s, ¬ x.clash it) : ItemsApart t := by
  unfold ItemsApart
  rw [joined, List.pairwise_append]
  exact ⟨apart, List.pairwise_singleton _ _, fun x mem y last => List.mem_singleton.mp last ▸ free x mem⟩

section
variable {s : State} (apart : ItemsApart s)
include apart

theorem ItemsApart.joinOnce (o : Origin) (r : Room) (q : OcuRequest) : ItemsApart (joinOnce (plainItem o r q) s) := by
  unfold Machine.joinOnce
  split
  · exact apart
  · next free =>
    refine ItemsApart.of_items (apart.append (t := s.setOcu { s.ocu with queue := s.ocu.queue ++ [plainItem o r q] })
      (it := plainItem o r q) ?_ ?_)
      (allItems_presentNext _)
    · simp [allItems]
    · rintro x mem (⟨-, origin, room⟩ | ⟨_, _, -, source, -⟩)
      · exact free (List.any_eq_true.mpr ⟨x, mem, by simp [origin, room]⟩)
      · exact nomatch source

theorem ItemsApart.joinPanel {it : Item} {l : Line} {a : Addr} (origin : it.origin = .panel)
    (own : ∀ x, it.source = some x → x.line = l ∧ x.addr = a) : ItemsApart (joinPanel it l a s) := by
  unfold Machine.joinPanel
  dsimp only
  split
  · exact apart.of_ocu (verdictFor_ocu _ _ _)
  · next unpresented =>
    let u := s.setOcu { s.ocu with queue := s.ocu.queue.filter (fun x => !x.fromPanel l a) }
    have fewer : ItemsApart u := apart.of_sublist (List.Sublist.append_left List.filter_sublist _)
    refine ItemsApart.of_items (fewer.append (it := it) ?_ ?_) (allItems_presentNext _)
    · simp [u, allItems]
    · have others : ∀ x ∈ allItems u, ¬ x.fromPanel l a := by
        intro x mem
        obtain presented | queued := List.mem_append.mp mem
        · have standing : s.ocu.presented = some x := by simpa [u] using presented
          simpa [standing] using unpresented
        · simpa using (List.mem_filter.mp queued).2
      rintro x mem (⟨notPanel, same, -⟩ | ⟨y, z, theirs, ours, line, addr⟩)
      · exact notPanel (same.trans origin)
      · obtain ⟨rfl, rfl⟩ := own z ours
        exact others x mem (by simp [Item.fromPanel, theirs, line, addr])

theorem ItemsApart.withdrawGhost (r : Room) : ItemsApart (withdrawGhost r s) := by
  unfold Machine.withdrawGhost
  split
  · exact apart.of_sublist (List.Sublist.append_left List.filter_sublist _)
  · exact apart

theorem ItemsApart.testPresence (r : Room) : ItemsApart (testPresence r s) := by
  have read := apart.of_ocu (readForPresence_ocu r s)
  unfold Machine.testPresence
  dsimp only
  split
  · exact read.joinOnce _ _ _
  · exact read

theorem ItemsApart.presenceReport (era : Nat) (r : Room) (last : Raw) (prev : Option Raw) :
    ItemsApart (presenceReport era r last prev s) := by
  have noted : ItemsApart (setPresence r last.presence s) := apart.of_items rfl
  unfold Machine.presenceReport
  dsimp only
  repeat' split
  · exact (noted.withdrawGhost r).testPresence r
  · exact noted
  · exact apart

theorem ItemsApart.ghostCountOne (slot : Nat) (r : Room) : ItemsApart (ghostCountOne slot s r) := by
  have read := apart.of_ocu (readForGhost_ocu slot r s)
  unfold Machine.ghostCountOne
  dsimp only
  split
  · exact read.of_items rfl
  · generalize ghostStep _ _ = n
    split
    · refine ItemsApart.joinOnce ?_ _ _ _
      exact read.of_items rfl
    · exact read.of_items rfl

theorem ItemsApart.ocuTick (c : Clock) : ItemsApart (ocuTick c s) := by
  unfold Machine.ocuTick
  split
  · unfold Machine.ocuBoundary
    dsimp only
    refine ItemsApart.of_items (foldl_keeps (I := ItemsApart) _ (fun _ r kept => kept.testPresence r) _ _ ?_) (allItems_recomposeAll _)
    split
    · exact apart.of_items rfl
    · refine foldl_keeps (I := ItemsApart) _ (fun _ r kept => kept.ghostCountOne c.slot r) _ _ ?_
      exact apart.of_items rfl
  · exact apart

theorem ItemsApart.panelEvent (l : Line) (a : Addr) (r : Room) (ev : PEvent) : ItemsApart (panelEvent l a r ev s) := by
  unfold Machine.panelEvent
  split
  · exact apart.of_ocu rfl
  · split
    · exact apart.of_items (allItems_setFeedback r .notAvailable s)
    · split
      · refine apart.joinPanel rfl fun x source => ?_
        cases source
        exact ⟨rfl, rfl⟩
      · exact apart

theorem ItemsApart.ocuStop : ItemsApart (ocuStop s) := by
  refine apart.of_sublist ?_
  unfold Machine.ocuStop
  dsimp only
  rw [allItems_foldl fun _ _ => allItems_verdictFor _ _ _]
  refine List.Sublist.append ?_ (List.nil_sublist _)
  change (Option.toList (if s.wires.outcome.isNone then none else s.ocu.presented)).Sublist _
  split
  · exact List.nil_sublist _
  · exact List.Sublist.refl _

/-- OCU's reaction to the expiry indication keeps the presented item alone. -/
theorem ItemsApart.ocuExpiry : ItemsApart (ocuExpiry s) := by
  refine apart.of_sublist ?_
  unfold Machine.ocuExpiry
  dsimp only
  rw [allItems_recomposeAll, allItems_foldl fun t it => ?_]
  · exact List.Sublist.append_left (List.nil_sublist _) _
  · unfold flushItem
    split <;> simp

end

/-! ## The commands -/

theorem exec_itemsApart {c : Instr} {s t : State} (apart : ItemsApart s) (run : exec c s = .next t) : ItemsApart t := by
  have fromLine {α : Type} {l : Line} {a : Addr} {sel : LineMsg → Option α} {work : α → State → State}
      (go : ∀ {t} (_ : ItemsApart t) x, ItemsApart (work x t)) : ItemsApart (takeFromLine l a sel work s) :=
    takeFromLine_cases apart fun x rest => go (t := s.setWires { s.wires with fromLine := put s.wires.fromLine l rest }) (apart.of_ocu rfl) x
  have fromSupply {α : Type} {sel : SupplyMsg → Option α} {work : α → State → State}
      (go : ∀ {t} (_ : ItemsApart t) x, ItemsApart (work x t)) : ItemsApart (takeSupply ocuIx sel work s) :=
    takeSupply_cases apart fun _ x _ _ => (go (apart.of_ocu (popSupply_ocu _ s)) x).of_ocu (settleSupply_ocu _)
  cases c with
  | powerOnReset =>
    apply itemsApart_of_none
    cases run
    dsimp only
    split
    · exact allItems_of_ocu ((only_powerFailWork (ps := [.pwc, .wires]) (by decide) (by decide)).mpr (.refl _ _) .ocu (by decide))
    · rfl
  | timeSet b =>
    cases run
    repeat' split
    · next clock _ _ =>
      have set : ItemsApart ((popTime b s).setTime b ⟨clock, .set⟩) := apart.of_ocu rfl
      refine ItemsApart.of_ocu ?_ (settleTime_ocu _)
      cases b with
      | ocu => exact set.of_items (by unfold onTimeSet ocuTimeSet; rw [allItems_recomposeAll]; rfl)
      | _ => exact set.of_items rfl
    all_goals exact apart
  | expiryIndication b =>
    cases run
    split
    · have expired : ItemsApart ((popTime b s).setTime b ⟨s.now b, .expired⟩) := apart.of_ocu rfl
      refine ItemsApart.of_ocu ?_ (settleTime_ocu _)
      cases b with
      | ocu => exact expired.ocuExpiry
      | _ => exact expired
    · exact apart
  | ocuSlotBoundary =>
    cases run
    refine takeTick_cases apart fun c _ _ => ItemsApart.of_ocu ?_ (settleTime_ocu _)
    exact ItemsApart.ocuTick (s := s.ticked .ocu c) (apart.of_ocu rfl) c
  | feedbackExpiry r =>
    cases run
    split
    · exact apart.of_items (allItems_recompose r (clearFeedback r s))
    · exact apart
  | presenceReport l a => cases run; exact fromLine fun kept m => kept.presenceReport m.1 m.2.1 m.2.2.1 m.2.2.2
  | panelDown l a => cases run; exact fromLine fun kept _ => kept.of_items rfl
  | panelEvent l a => cases run; exact fromLine fun kept m => kept.panelEvent l a m.1 m.2
  | displayLoss l a => cases run; exact fromLine fun kept r => kept.of_items (allItems_displayLoss r _)
  | bookOutcome =>
    cases run
    split
    · next it o _ _ =>
      have answered : allItems (presentNext (itemAnswered it o
          ((s.setWires { s.wires with outcome := none }).setOcu { s.ocu with presented := none }))) = s.ocu.queue := by
        rw [allItems_presentNext]
        unfold itemAnswered
        repeat' split
        · rw [allItems_verdictFor, allItems_setFeedback]
          rfl
        · rw [allItems_verdictFor]
          rfl
        · rfl
        · rfl
      exact apart.of_sublist (answered.symm ▸ List.sublist_append_right s.ocu.presented.toList s.ocu.queue)
    · exact apart
  | scheduleIndication | orderIndication =>
    cases run
    split
    · exact apart.of_items (allItems_recompose _ _)
    · exact apart
  | ocuConfigApplied =>
    cases run
    refine takeConfig_cases apart fun g _ => ItemsApart.of_ocu ?_ (settleConfig_ocu _)
    refine apart.of_items ((allItems_foldl (fun t r => ?_) _ _).trans rfl)
    unfold configRoom
    rw [allItems_recompose]
    split <;> rfl
  | ocuSupplyChange =>
    cases run
    refine fromSupply fun kept x => kept.of_items ?_
    rw [allItems_recomposeAll]
    split <;> rfl
  | ocuStop => cases run; exact fromSupply fun kept _ => kept.ocuStop
  | ocuWarmStart =>
    cases run
    exact fromSupply fun kept _ => kept.of_items ((allItems_foldl (fun _ _ => allItems_recompose _ _) _ _).trans rfl)
  | _ => exact apart.of_ocu (agree_of_exec (part := .ocu) run (by simp [touches]))

/-- Settles O10: an item joins OCU's queue only where none clashes with it, and every other change takes items away. -/
theorem stepKeepsItemsApart : Obligations.StepKeepsItemsApart :=
  step_keeps (fun _ _ apart => apart.of_ocu rfl) (fun s apart => apart.of_ocu ((only_idle s).agree .ocu (by decide)))
    (fun _ _ _ apart run => exec_itemsApart apart run)

end Sys2Proof.Machine

/-! PROOFS. The step, power-on reset and what holds after it. -/

namespace Sys2Proof.Machine

open Host

/-! ## The step -/

theorem step_of_front {c : Instr} {rest : List Instr} {s : State} (front : s.pending = c :: rest) :
    step s = exec c { s with pending := rest } := by
  unfold step
  rw [front]

theorem step_of_empty {s : State} (empty : s.pending = []) : step s = .next (onePeriod s) := by
  unfold step
  rw [empty]

/-- Settles O1: the two branches of the step, and on an empty queue the two of the idle period. -/
theorem stepRunsTheFrontCommandOrIdles : Obligations.StepRunsTheFrontCommandOrIdles := by
  refine ⟨fun c rest s front => step_of_front front, fun s empty => ⟨fun within => ?_, fun passed => ?_⟩⟩
  · rw [step_of_empty empty, onePeriod, if_pos (by simpa [Config.refMinute] using within)]
  · rw [step_of_empty empty, onePeriod, if_neg (by simpa [Config.refMinute] using passed)]
    rfl

/-! ## Power-on reset -/

/-- What a power failure hands each receiver of a part that was not in RETAIN: the change of state before the stop. -/
theorem powerFailWork_supply {s : State} (running : s.pwc.sstate ≠ .retain) (i : Fin 12) :
    (powerFailWork s).wires.supply[i] =
      s.wires.supply[i] ++ List.replicate (stateTakers.count i) (.state .retain) ++ List.replicate (stopTakers.count i) .stop := by
  have changed : (changeState .retain .powerFail none s).wires.supply[i] =
      s.wires.supply[i] ++ List.replicate (stateTakers.count i) (.state .retain) := by
    rw [← handSupplyTo_supply stateTakers (.state .retain)]
    rfl
  unfold powerFailWork handStop
  rw [if_neg running, handSupplyTo_supply]
  exact congrArg (· ++ _) changed

theorem powerFailWork_pwc {s : State} (running : s.pwc.sstate ≠ .retain) :
    (powerFailWork s).pwc =
      { s.pwc with
        sstate := .retain, phase := .stopped, startCause := none, lastCause := some .powerFail, lastChange := some (s.now .pwc)
        powerFail := true } := by
  unfold powerFailWork
  rw [if_neg running, handStop_pwc]
  simp

theorem only_failed (s : State) : Only [.pwc, .wires] s (powerFailWork s) :=
  (only_powerFailWork (by decide) (by decide)).mpr (.refl _ _)

/-- The state that power-on reset makes with the supply good, for these straps and these waiting commands. -/
def freshStart (s0 s1 s2 s3 : BitVec 2) (waiting : List Instr) : State :=
  { State.powerOn #v[Role.ofStraps s0, Role.ofStraps s1, Role.ofStraps s2, Role.ofStraps s3] with pending := waiting }

section
variable (s0 s1 s2 s3 : BitVec 2) (s : State)

theorem exec_powerOnReset (failed : Bool) :
    exec (.powerOnReset s0 s1 s2 s3 failed) s =
      .next (if failed then powerFailWork (freshStart s0 s1 s2 s3 s.pending) else freshStart s0 s1 s2 s3 s.pending) := rfl

theorem freshStart_role (waiting : List Instr) (p : Port) :
    ((freshStart s0 s1 s2 s3 waiting).ports[p]).role = Role.ofStraps (#v[s0, s1, s2, s3] : Vector (BitVec 2) 4)[p] := by
  fin_cases p <;> rfl

theorem powerOnReset_roles (failed : Bool) :
    ∃ t : State, exec (.powerOnReset s0 s1 s2 s3 failed) s = .next t ∧
      ∀ p : Port, (t.ports[p]).role = Role.ofStraps (#v[s0, s1, s2, s3] : Vector (BitVec 2) 4)[p] := by
  refine ⟨_, exec_powerOnReset s0 s1 s2 s3 s failed, fun p => ?_⟩
  split
  · have ports : (powerFailWork (freshStart s0 s1 s2 s3 s.pending)).ports = (freshStart s0 s1 s2 s3 s.pending).ports :=
      (only_failed _).agree .ports (by decide)
    simp only [ports]
    exact freshStart_role s0 s1 s2 s3 s.pending p
  · exact freshStart_role s0 s1 s2 s3 s.pending p

theorem powerOnReset_failed :
    let fresh := freshStart s0 s1 s2 s3 s.pending
    ∃ t : State, exec (.powerOnReset s0 s1 s2 s3 true) s = .next t ∧
      t.pwc.sstate = .retain ∧ t.pwc.phase = .stopped ∧ t.pwc.lastCause = some .powerFail ∧ t.pwc.powerFail = true ∧
      (∀ p : Port, t.wires.supply[portIx p] = [.stop]) ∧ (∀ l : Line, t.wires.supply[lineIx l] = [.state .retain]) ∧
      t.wires.supply[ocuIx] = [.state .retain, .stop] ∧ t.wires.supply[rbkIx] = [.stop] ∧ t.wires.supply[pathIx] = [.stop] ∧
      Only [.pwc, .wires] fresh t := by
  intro fresh
  have running : fresh.pwc.sstate ≠ .retain := fun retained => nomatch retained
  have nothing (i : Fin 12) : fresh.wires.supply[i] = [] := by simp [fresh, freshStart, State.powerOn, Wires.empty]
  have handed (i : Fin 12) : (powerFailWork fresh).wires.supply[i] =
      List.replicate (stateTakers.count i) (.state .retain) ++ List.replicate (stopTakers.count i) .stop := by
    rw [powerFailWork_supply running, nothing, List.nil_append]
  have standing := powerFailWork_pwc running
  refine ⟨_, exec_powerOnReset s0 s1 s2 s3 s true, by rw [if_pos rfl, standing], by rw [if_pos rfl, standing],
    by rw [if_pos rfl, standing], by rw [if_pos rfl, standing], fun p => ?_, fun l => ?_, ?_, ?_, ?_, only_failed fresh⟩
  · rw [if_pos rfl, handed]
    revert p
    decide
  · rw [if_pos rfl, handed]
    revert l
    decide
  · exact handed ocuIx
  · exact handed rbkIx
  · exact handed pathIx

end

/-- Settles O3: reset builds the state from the straps, with a power failure worked on it when power-fail is asserted, and no other
command writes a role. -/
theorem powerOnResetStartsThePart : Obligations.PowerOnResetStartsThePart := by
  refine ⟨⟨fun s0 s1 s2 s3 failed s => powerOnReset_roles s0 s1 s2 s3 s failed, fun c s t other run p => ?_⟩,
    fun s0 s1 s2 s3 s => ⟨exec_powerOnReset s0 s1 s2 s3 s false, powerOnReset_failed s0 s1 s2 s3 s⟩⟩
  exact (exec_portsFollow other run p).1

/-! ## After reset -/

theorem reset_line (l : Line) : State.reset.line l = LineUnit.reset := by
  simp [State.line, State.reset, State.powerOn]

theorem reset_ctx (l : Line) (a : Addr) : State.reset.ctx l a = PanelCtx.reset := by
  simp [State.ctx, reset_line, LineUnit.reset]

theorem reset_port (p : Port) : ∃ role, State.reset.ports[p] = PortRec.reset role := by
  fin_cases p
  exacts [⟨.gateway, rfl⟩, ⟨.console, rfl⟩, ⟨.catering, rfl⟩, ⟨.facilities, rfl⟩]

theorem reset_zoneOf (r : Room) : ZoneTable.reset.zoneOf r = 0 := by
  simp [ZoneTable.zoneOf, ZoneTable.reset, Nat.not_le.mpr r.isLt]

/-- Settles O4: every table of reset repeats one blank record, so the value at each index is that record's. -/
theorem resetValues : Obligations.ResetValues := by
  refine ⟨⟨rfl, rfl, rfl, rfl⟩, fun b => ?_, fun r => ?_, ⟨rfl, rfl, rfl, rfl, fun k => ?_, rfl, rfl, rfl⟩, fun i => ?_,
    ⟨rfl, rfl, rfl, rfl⟩, ⟨rfl, rfl⟩, fun l => ⟨fun a => reset_ctx l a, ?_⟩, ⟨rfl, rfl⟩, fun k => ?_, ⟨rfl, rfl⟩, fun i => ?_,
    fun i => ?_, fun p => ?_, ⟨rfl, rfl, rfl, rfl, rfl, rfl, rfl, rfl⟩⟩
  · simp [State.timeOf, State.reset, State.powerOn, TimeCopy.reset, Clock.zero]
  · simp [State.reset, State.powerOn, State.roomRec, State.zoneOf, State.schedule, Rzt.reset, RoomRec.reset, Book.reset, Psl.reset,
      Ocu.reset]
    exact ⟨rfl, reset_zoneOf r⟩
  · simp [State.reset, State.powerOn, State.zoneAttr, Rzt.reset, ZoneTable.reset, ZoneAttr.reset]
  · simp [State.reset, State.powerOn, State.bookRec, Book.reset, BookRec.blank]
  · rw [reset_line]
    exact ⟨rfl, rfl, rfl, rfl, rfl, rfl⟩
  · simp [State.reset, State.powerOn, Kpl.reset, KitchenRec.reset]
  · simp [State.reset, State.powerOn, State.orderRec, Kpl.reset, OrderRec.blank]
  · simp [State.reset, State.powerOn, Nrt.reset, Route.reset]
  · obtain ⟨role, port⟩ := reset_port p
    rw [port]
    simp [State.reset, State.powerOn, Nrt.reset, PortRec.reset]

/-- Settles O5: each invariant from the blank records that reset puts everywhere. -/
theorem resetMeetsTheInvariants : Obligations.ResetMeetsTheInvariants := by
  refine ⟨by decide, fun p => ?_, clockLegal_reset, zonesLegal_reset, queuesLegal_reset, usageLegal_of_zeros rfl, panelsLegal_reset,
    schedulesOrdered_of_empty rfl, itemsApart_of_none rfl⟩
  obtain ⟨role, port⟩ := reset_port p
  rw [port]
  simp [PortRec.reset]

end Sys2Proof.Machine

/-! PROOFS. The reference minute, and setting and trimming the clock. -/

namespace Sys2Proof.Machine

open Host

/-! ## Taking a request -/

section
variable {α : Type} {p : Port} {h : HandedRequest} {rest : List HandedRequest} {s : State} {sel : Request → Option α} {a : α}
  {work : Asker → α → State → State}

/-- An owner takes the request at the front of a port's list. -/
theorem onRequest_of_asks (asks : s.asks p h rest) (chosen : sel h.req = some a) :
    onRequest p sel work s = work (h.asker p) a (s.took p rest) := onRequest_of_front asks chosen

/-- The book takes the request it grants. -/
theorem onBookRequest_of_asks (asks : s.bookAsks p h rest) (chosen : sel h.req = some a) :
    onBookRequest p sel work s = work (h.asker p) a (s.bookTook p rest) :=
  onBookRequest_of_front asks.2.2 asks.1 asks.2.1 chosen

theorem reply_took (code : Code) (items : List Byte) :
    reply (h.asker p) code items (s.took p rest) = s.answered p h rest code items := rfl

theorem reply_bookTook (code : Code) (items : List Byte) :
    reply (h.asker p) code items (s.bookTook p rest) = s.bookAnswered p h rest code items := rfl

end

/-! ## The reference minute -/

theorem minuteExpiry_in_resync {s : State} (resync : s.ctu.resync.isSome = true) : minuteExpiry s = s := if_pos resync

section
variable {s : State} (none : s.ctu.resync = none)
include none

theorem minuteExpiry_unset (unset : s.ctu.cstate = .unset) : minuteExpiry s = s := by simp [minuteExpiry, none, unset]

theorem minuteExpiry_expired (expired : s.ctu.cstate = .expired) : minuteExpiry s = s := by simp [minuteExpiry, none, expired]

theorem minuteExpiry_slewing (slewing : s.ctu.cstate = .slewing) :
    minuteExpiry s =
      s.setCtu { s.ctu with slew := s.ctu.slew - 1, cstate := if s.ctu.slew ≤ 1 then .running else .slewing } := by
  simp [minuteExpiry, none, slewing, Nat.sub_eq_zero_iff_le]

theorem minuteExpiry_last (running : s.ctu.cstate = .running) (last : s.ctu.clock = lastClock) :
    minuteExpiry s = handTimeAll .expiry (s.setCtu { s.ctu with cstate := .expired }) := by
  simp [minuteExpiry, none, running, last]

theorem minuteExpiry_running (running : s.ctu.cstate = .running) (more : s.ctu.clock ≠ lastClock) : minuteExpiry s = ctuAdvance s := by
  simp [minuteExpiry, none, running, more]

end

theorem ctuAdvance_within {s : State} (within : s.ctu.clock.minute ≠ 1439) :
    ctuAdvance s = handTimeAll (.tick s.ctu.clock.next) (s.setCtu { s.ctu with clock := s.ctu.clock.next }) := by
  simp [ctuAdvance, Clock.isRollover, Clock.next, within]

theorem ctuAdvance_midnight {s : State} (midnight : s.ctu.clock.minute = 1439) :
    ctuAdvance s = handNotice .ctu (rolloverNotice s.ctu.clock.next)
      (handTimeAll (.tick s.ctu.clock.next) (s.setCtu { s.ctu with clock := s.ctu.clock.next })) := by
  simp [ctuAdvance, Clock.isRollover, Clock.next, midnight]

/-- Settles O11: the branches of the minute's expiry, on the state with REFCOUNT wrapped. -/
theorem referenceMinuteExpiryByCState : Obligations.ReferenceMinuteExpiryByCState := by
  intro s u c ticked
  have run : exec .referenceMinuteExpiry s = .next (minuteExpiry u) := rfl
  refine ⟨fun resync => ?_, fun none => ⟨?_, fun running last => ?_, fun running more within => ⟨?_, ?_⟩,
    fun running more midnight => ⟨?_, ?_⟩, fun slewing => ?_⟩⟩
  · rw [run, minuteExpiry_in_resync (s := u) resync]
  · rintro (unset | expired)
    · rw [run, minuteExpiry_unset (s := u) none unset]
    · rw [run, minuteExpiry_expired (s := u) none expired]
  · rw [run, minuteExpiry_last (s := u) none running last]
  · exact if_neg within
  · rw [run, minuteExpiry_running (s := u) none running more, ctuAdvance_within (s := u) within]
    rfl
  · exact if_pos midnight
  · rw [run, minuteExpiry_running (s := u) none running more, ctuAdvance_midnight (s := u) midnight]
    rfl
  · rw [run, minuteExpiry_slewing (s := u) none slewing]
    rfl

/-! ## Answers that wait for the time lists -/

theorem all_zero_iff {n : Nat} {v : Vector Nat n} : v.toList.all (· == 0) = true ↔ ∀ i : Fin n, v[i] = 0 := by
  simp only [List.all_eq_true, Vector.mem_toList_iff, beq_iff_eq]
  constructor
  · exact fun all i => all _ (Vector.getElem_mem _)
  · intro all x mem
    obtain ⟨i, bound, rfl⟩ := Vector.mem_iff_getElem.mp mem
    exact all ⟨i, bound⟩

theorem timeWait_ready_iff {w : TimeWait} : w.ready = true ↔ ∀ b : Fin 6, w.left[b] = 0 := all_zero_iff

theorem timeWait_ready_eq : TimeWait.ready = fun w => decide (∀ b : Fin 6, w.left[b] = 0) := by
  funext w
  rw [Bool.eq_iff_iff, timeWait_ready_iff, decide_eq_true_iff]

/-- Answers read the clock as it stood before the first of them was given. -/
theorem foldl_answer_clock (ws : List TimeWait) (c : Ctu) (t : State) (same : t.ctu = c) :
    ws.foldl (fun v w => answer w.port w.reqno .ok (if w.showClock then ctuPayload v.ctu else []) v) t =
      ws.foldl (fun v w => answer w.port w.reqno .ok (if w.showClock then ctuPayload c else []) v) t := by
  induction ws generalizing t with
  | nil => rfl
  | cons w ws ih =>
    subst same
    rw [List.foldl_cons, List.foldl_cons]
    exact ih _ rfl

/-- The answers that settling gives a port, in the order they began to wait. -/
theorem settleTime_answers (s : State) (p : Port) :
    (settleTime s).wires.answers[p] = s.wires.answers[p] ++
      (s.ctu.waits.filter (fun w => w.ready && decide (w.port = p))).map (fun w =>
        ⟨w.reqno, .ok, if w.showClock then ctuPayload s.ctu else []⟩) := by
  unfold settleTime
  rw [foldl_answer_clock _ _ _ rfl,
    foldl_answer_get TimeWait.port TimeWait.reqno (fun _ => .ok) (fun w => if w.showClock then ctuPayload _ else []), List.filter_filter]
  simp only [Bool.and_comm]
  rfl

theorem settleTime_wires (s : State) : (settleTime s).wires = { s.wires with answers := (settleTime s).wires.answers } := by
  obtain ⟨as, settled⟩ := settleTime_eq s
  rw [settled]
  rfl

/-! ## Trims -/

@[simp] theorem ticks_length (c : Clock) (n : Nat) : (ticks c n).length = n := by
  induction n generalizing c with
  | zero => rfl
  | succ n ih => simp [ticks, ih]

/-- Within a trim NRT takes notices, and hands lengths to the ports; nothing else on its way changes. -/
theorem takeNotice_wires (s : State) (i : Fin 9) : ∃ ns before q,
    (takeNotice s i).wires = { s.wires with notices := ns, noticesBefore := before, qlens := q } := by
  unfold takeNotice
  split
  · next h rest _ =>
    obtain ⟨x, q, routed⟩ := routeNotice_eq (h := h) (s := s.setWires
      { s.wires with notices := put s.wires.notices i rest, noticesBefore := modAt s.wires.noticesBefore i (· - 1) })
    exact ⟨_, _, q, by rw [routed]; rfl⟩
  · exact ⟨_, _, _, rfl⟩

theorem noticesInTrim_wires (s : State) : ∃ ns before q,
    (noticesInTrim s).wires = { s.wires with notices := ns, noticesBefore := before, qlens := q } := by
  have taken (is : List (Fin 9)) : ∀ t : State, ∃ ns before q,
      (is.foldl takeNotice t).wires = { t.wires with notices := ns, noticesBefore := before, qlens := q } := by
    induction is with
    | nil => exact fun t => ⟨_, _, _, rfl⟩
    | cons i is ih =>
      intro t
      obtain ⟨_, _, _, first⟩ := takeNotice_wires t i
      obtain ⟨ns, before, q, later⟩ := ih (takeNotice t i)
      exact ⟨ns, before, q, by rw [List.foldl_cons, later, first]⟩
  exact taken _ (s.setCtu { s.ctu with trimmed := s.ctu.trimmed + 1 })

theorem ctuAdvance_wires (s : State) : ∃ ns,
    (ctuAdvance s).wires = { s.wires with time := mapV (· ++ [.tick s.ctu.clock.next]) s.wires.time, notices := ns } := by
  unfold ctuAdvance
  dsimp only
  split
  · exact ⟨_, rfl⟩
  · exact ⟨_, rfl⟩

/-- A forward trim hands each receiving block the ticks of its minutes in order. -/
theorem ctuAdvances_wires (n : Nat) (s : State) :
    (∀ b : Fin 6, (ctuAdvances n s).wires.time[b] = s.wires.time[b] ++ ticks s.ctu.clock n) ∧
      (ctuAdvances n s).wires.requests = s.wires.requests ∧ (ctuAdvances n s).wires.answers = s.wires.answers := by
  induction n generalizing s with
  | zero => exact ⟨fun b => (List.append_nil _).symm, rfl, rfl⟩
  | succ n ih =>
    obtain ⟨ns, first⟩ := ctuAdvance_wires s
    match n with
    | 0 => rw [zero_add, ctuAdvances_one, first]; exact ⟨fun b => mapV_get _ _ b, rfl, rfl⟩
    | n + 1 =>
      obtain ⟨_, _, _, between⟩ := noticesInTrim_wires (ctuAdvance s)
      obtain ⟨time, requests, answers⟩ := ih (noticesInTrim (ctuAdvance s))
      rw [ctuAdvances_succ_succ]
      refine ⟨fun b => ?_, requests.trans ?_, answers.trans ?_⟩
      · rw [time b]
        simp [noticesInTrim_ctu, between, first, ticks]
      · rw [between, first]
      · rw [between, first]

theorem only_ctuAdvances_self (n : Nat) (s : State) : Only [.ctu, .nrt, .wires] s (ctuAdvances n s) :=
  (only_ctuAdvances (by decide) (by decide) (by decide)).mpr (.refl _ _)

/-! ## Setting the clock -/

section
variable {p : Port} {h : HandedRequest} {rest : List HandedRequest} {s : State} {d m : Nat}

/-- The CTU takes a SET_TIME outside a RESYNC. -/
theorem exec_setTime_of_asks (asks : s.asks p h rest) (req : h.req = .setTime d m) (none : s.ctu.resync = none) :
    exec (.setTime p) s = .next (setTimeWork (h.asker p) (d, m) (s.took p rest)) := by
  change Outcome.next (if s.ctu.resync.isSome then s else onRequest p _ setTimeWork s) = _
  rw [if_neg (by simp [none]), onRequest_of_asks asks (a := (d, m)) (by rw [req])]

theorem setTimeWork_bad {q : Asker} {s : State} (bad : 60000 < d ∨ 1439 < m) :
    setTimeWork q (d, m) s = reply q .badParam (ctuPayload s.ctu) s := by
  have refused : badSetTime d m = true := by
    rw [← Bool.not_eq_false, badSetTime_eq_false]
    omega
  simp [setTimeWork, refused]

section
variable {q : Asker} (day : d ≤ 60000) (minute : m ≤ 1439)
include day minute

theorem setTimeWork_unset (unset : s.ctu.cstate = .unset) :
    setTimeWork q (d, m) s = waitTime q true (setClock ⟨d, m⟩ s) := by
  simp [setTimeWork, badSetTime_eq_false.mpr ⟨day, minute⟩, unset]

theorem setTimeWork_trim (set : s.ctu.cstate ≠ .unset) : setTimeWork q (d, m) s = trim q ⟨d, m⟩ s := by
  unfold setTimeWork
  rw [if_neg (by simp [badSetTime_eq_false.mpr ⟨day, minute⟩])]
  split
  · contradiction
  all_goals rfl

end

section
variable {q : Asker} {c : Clock}

theorem trim_tooLarge (far : c.minutes + 10 < s.ctu.clock.minutes ∨ s.ctu.clock.minutes + 10 < c.minutes) :
    trim q c s = reply q .stepTooLarge (ctuPayload s.ctu) s := by simp [trim, far]

theorem trim_forward (later : s.ctu.clock.minutes < c.minutes) (near : c.minutes ≤ s.ctu.clock.minutes + 10) :
    trim q c s = waitTime q true
      (ctuAdvances (c.minutes - s.ctu.clock.minutes) (s.setCtu { s.ctu with slew := 0, cstate := .running })) := by
  unfold trim
  dsimp only
  rw [if_neg (by simp; omega), if_pos later]

theorem trim_none (same : c.minutes = s.ctu.clock.minutes) :
    trim q c s = reply q .ok (ctuPayload { s.ctu with slew := 0, cstate := .running })
      (s.setCtu { s.ctu with slew := 0, cstate := .running }) := by
  simp [trim, same]

theorem trim_backward (earlier : c.minutes < s.ctu.clock.minutes) (near : s.ctu.clock.minutes ≤ c.minutes + 10) :
    trim q c s =
      reply q .ok (ctuPayload { s.ctu with slew := s.ctu.clock.minutes - c.minutes, cstate := .slewing })
        (s.setCtu { s.ctu with slew := s.ctu.clock.minutes - c.minutes, cstate := .slewing }) := by
  unfold trim
  dsimp only
  rw [if_neg (by simp; omega), if_neg (by omega), if_neg (by omega)]
  rfl

end

end

/-- Settles O12: the refusals and the ways of setting the clock by the checks of SET_TIME, and a forward trim by induction on its
minutes. -/
theorem setTimeSetsOrTrims : Obligations.SetTimeSetsOrTrims := by
  refine ⟨fun b s => rfl, fun s => ?_, fun p h rest s d m asks req none => ?_⟩
  · intro due t
    have ready : TimeWait.ready = due := timeWait_ready_eq
    refine ⟨?_, fun p => ?_, settleTime_wires s, only_settleTime (by decide) (by decide) |>.mpr (.refl _ _)⟩
    · rw [← ready]
      exact settleTime_ctu s
    · rw [← ready]
      exact settleTime_answers s p
  · intro u now new cornered
    have run := exec_setTime_of_asks asks req none
    have cminutes : Clock.minutes ⟨d, m⟩ = new := rfl
    refine ⟨fun bad => ?_, fun day minute => ⟨fun unset => ?_, fun set far => ?_, fun set same => ?_, fun set earlier near => ?_,
      fun set legal later near => ?_, fun set two => ?_⟩⟩
    · rw [run, setTimeWork_bad bad]
      rfl
    · rw [run, setTimeWork_unset day minute (s := u) unset]
      rfl
    · rw [run, setTimeWork_trim day minute (s := u) set, trim_tooLarge (s := u) (c := ⟨d, m⟩) far]
      rfl
    · rw [run, setTimeWork_trim day minute (s := u) set, trim_none (s := u) (c := ⟨d, m⟩) same]
      rfl
    · rw [run, setTimeWork_trim day minute (s := u) set, trim_backward (s := u) (c := ⟨d, m⟩) earlier near]
      rfl
    · let v := u.setCtu { u.ctu with slew := 0, cstate := .running }
      obtain ⟨clockMinute, -⟩ := legal
      obtain ⟨k, advanced⟩ := ctuAdvances_ctu v (new - now)
      obtain ⟨time, requests, answers⟩ := ctuAdvances_wires (new - now) v
      have reached : Clock.next^[new - now] s.ctu.clock = ⟨d, m⟩ :=
        Clock.iterate_next_eq (c := s.ctu.clock) (d := ⟨d, m⟩) clockMinute minute (Nat.le_of_lt later)
      have ran : exec (.setTime p) s = .next (waitTime (h.asker p) true (ctuAdvances (new - now) v)) := by
        rw [run, setTimeWork_trim day minute (s := u) set, trim_forward (s := u) (c := ⟨d, m⟩) later near]
        rfl
      refine ⟨_, ran, ?_, ?_, ?_, ?_, ?_, time, ?_, ?_, answers, fun one => ?_, ?_⟩
      · rw [waitTime_ctu, advanced]
        exact reached
      · rw [waitTime_ctu, advanced]
        rfl
      · rw [waitTime_ctu, advanced]
        rfl
      · rw [waitTime_ctu, advanced]
        rfl
      · rw [waitTime_ctu, advanced]
        exact none
      · rw [waitTime_ctu, advanced]
        rfl
      · exact (congrArg (·[p]) requests).trans (put_get_same _ _ _)
      · have single : new - now = 1 := by omega
        rw [single]
        exact only_ctuAdvance (ps := [.ctu, .wires]) (by decide) (by decide) |>.mpr (.refl _ _) |>.agree .nrt (by decide)
      · exact (only_waitTime (by decide)).mpr ((only_ctuAdvances (by decide) (by decide) (by decide)).mpr
          ((only_setCtu (by decide)).mpr ((only_setWires (by decide)).mpr (.refl _ _))))
    · intro first between last
      have later : u.ctu.clock.minutes < Clock.minutes ⟨d, m⟩ := by
        change now < new
        omega
      have near : Clock.minutes ⟨d, m⟩ ≤ u.ctu.clock.minutes + 10 := by
        change new ≤ now + 10
        omega
      have twice : Clock.minutes ⟨d, m⟩ - u.ctu.clock.minutes = 2 := by
        change new - now = 2
        omega
      have clock : first.ctu.clock = s.ctu.clock.next := by rw [ctuAdvance_ctu]; rfl
      have count : first.ctu.trimmed = s.ctu.trimmed := by rw [ctuAdvance_ctu]; rfl
      refine ⟨clock, ?_⟩
      rw [run, setTimeWork_trim day minute (s := u) set, trim_forward later near, twice]
      have whole : between = noticesInTrim first := by
        unfold noticesInTrim
        rw [count]
      change Outcome.next (waitTime (h.asker p) true (ctuAdvance (noticesInTrim first))) = _
      rw [← whole]
      rfl

end Sys2Proof.Machine

/-! PROOFS. RESYNC: the owners told to empty, their emptying, and the setting of the clock. -/

namespace Sys2Proof.Machine

open Host

/-- From a state to the one a command leads to only the parts listed for the command may have changed. -/
theorem only_of_exec {c : Instr} {s t : State} (run : exec c s = .next t) : Only (touches c) s t :=
  fun _ other => agree_of_exec run other

/-! ## The request -/

section
variable {p : Port} {h : HandedRequest} {rest : List HandedRequest} {s : State} {d m : Nat}

/-- The CTU takes a RESYNC outside a RESYNC. -/
theorem exec_resync_of_asks (asks : s.asks p h rest) (req : h.req = .resync d m) (none : s.ctu.resync = none) :
    exec (.resync p) s = .next (resyncWork (h.asker p) (d, m) (s.took p rest)) := by
  change Outcome.next (if s.ctu.resync.isSome then s else onRequest p _ resyncWork s) = _
  rw [if_neg (by simp [none]), onRequest_of_asks asks (a := (d, m)) (by rw [req])]

theorem resyncWork_bad {q : Asker} (bad : 60000 < d ∨ 1439 < m) : resyncWork q (d, m) s = reply q .badParam [] s := by
  have refused : badSetTime d m = true := by
    rw [← Bool.not_eq_false, badSetTime_eq_false]
    omega
  exact if_pos refused

theorem resyncWork_good {q : Asker} (day : d ≤ 60000) (minute : m ≤ 1439) :
    resyncWork q (d, m) s = handTime .psl .empty (handTime .kpl .empty (handTime .rbk .empty (s.setCtu
      { s.ctu with resync := some { port := q.port, reqno := q.reqno, target := ⟨d, m⟩, rbk := false, kpl := false, psl := false } }))) :=
  if_neg (by simp [badSetTime_eq_false.mpr ⟨day, minute⟩])

end

theorem exec_resyncComplete_of_emptied {s : State} {r : Resync} (asked : s.ctu.resync = some r)
    (emptied : (r.rbk && r.kpl && r.psl) = true) : exec .resyncComplete s = .next (resyncSetting r s) := by
  have run : exec .resyncComplete s = execResyncComplete s := rfl
  rw [run, execResyncComplete, asked]
  exact congrArg _ (if_pos emptied)

/-! ## The answers to exchanges in flight -/

theorem answerExchange_eq (x : Exchange) (c : Code) (items : List Byte) (s : State) :
    ∃ as, answerExchange x c items s = s.setWires { s.wires with answers := as } ∧
      ∀ p : Port, ∃ more, as[p] = s.wires.answers[p] ++ more ∧ ∀ n, x.who = some (p, n) → ⟨n, c, items⟩ ∈ more := by
  unfold answerExchange
  split
  · next p n asker =>
    refine ⟨_, rfl, fun q => ?_⟩
    by_cases same : p = q
    · subst same
      exact ⟨_, modAt_get_same _ _ _, fun k who => by cases asker.symm.trans who; exact List.mem_singleton.mpr rfl⟩
    · refine ⟨[], by rw [modAt_get_other _ _ same, List.append_nil], fun k who => ?_⟩
      cases asker.symm.trans who
      contradiction
  · next absent => exact ⟨s.wires.answers, rfl, fun p => ⟨[], (List.append_nil _).symm, fun n who => nomatch absent.symm.trans who⟩⟩

/-- Every exchange in flight is answered at the port that asked, behind what waits there. -/
theorem foldl_answerExchange_eq (xs : List Exchange) (s : State) :
    ∃ as, xs.foldl (fun s x => answerExchange x .unknown [] s) s = s.setWires { s.wires with answers := as } ∧
      ∀ p : Port, ∃ more, as[p] = s.wires.answers[p] ++ more ∧ ∀ x ∈ xs, ∀ n, x.who = some (p, n) → ⟨n, .unknown, []⟩ ∈ more := by
  induction xs generalizing s with
  | nil => exact ⟨s.wires.answers, rfl, fun p => ⟨[], (List.append_nil _).symm, fun _ mem => nomatch mem⟩⟩
  | cons x xs ih =>
    obtain ⟨as, first, given⟩ := answerExchange_eq x .unknown [] s
    obtain ⟨bs, later, rest⟩ := ih (s.setWires { s.wires with answers := as })
    refine ⟨bs, by rw [List.foldl_cons, first, later]; rfl, fun p => ?_⟩
    obtain ⟨more, here, mine⟩ := given p
    obtain ⟨others, there, theirs⟩ := rest p
    refine ⟨more ++ others, by rw [there, ← List.append_assoc, ← here]; rfl, fun y mem n who => ?_⟩
    obtain rfl | behind := List.mem_cons.mp mem
    · exact List.mem_append_left _ (mine n who)
    · exact List.mem_append_right _ (theirs y behind n who)

/-! ## The owners empty -/

/-- What settling gives a port stands behind what it had. -/
theorem mem_settleTime_answers {s : State} {p : Port} {a : Answer} (mem : a ∈ s.wires.answers[p]) : a ∈ (settleTime s).wires.answers[p] := by
  rw [settleTime_answers]
  exact List.mem_append_left _ mem

/-- Emptying hands the indication of each order that was live, and changes nothing else (07 R142). -/
theorem indicateFreed_eq (orders : Vector OrderRec 512) (s : State) :
    indicateFreed orders s = s.setWires
      { s.wires with orders := s.wires.orders ++ (ixsWhere OrderRec.live orders).map (fun i => (orders[i]).room) } := by
  have handed (is : List OrderIx) (s : State) : is.foldl (fun s i => handOrderInd (orders[i]).room s) s =
      s.setWires { s.wires with orders := s.wires.orders ++ is.map (fun i => (orders[i]).room) } := by
    induction is generalizing s with
    | nil => simp [State.setWires]
    | cons i is ih => rw [List.foldl_cons, ih]; simp [handOrderInd]
  exact handed _ s

section
variable (s : State)

theorem exec_bookEmpty_eq (told : s.timeHead .rbk = some .empty) :
    ∃ as, exec .bookEmpty s = .next (settleTime (((((popTime .rbk s).setBook
        { Book.reset with frozen := true, serial := s.book.serial, emptied := s.book.serial }).setWires
        { (popTime .rbk s).wires with
          toPlanner := if s.kpl.frozen then [] else s.wires.toPlanner
          answers := as
          sched := s.wires.sched ++ ixsWhere (fun es => !es.isEmpty) s.book.schedules }).setCtu
        { (popTime .rbk s).ctu with resync := s.ctu.resync.map (fun r : Resync => { r with rbk := true }) }))) ∧
      ∀ x ∈ s.book.exchanges, ∀ p n, x.who = some (p, n) → ⟨n, .unknown, []⟩ ∈ as[p] := by
  obtain ⟨as, answered, given⟩ := foldl_answerExchange_eq s.book.exchanges (dropUntaken (popTime .rbk s))
  refine ⟨as, ?_, fun x mem p n who => ?_⟩
  · have head : s.wires.time[blockIx .rbk].head? = some .empty := told
    have run : exec .bookEmpty s = execBookEmpty s := rfl
    rw [run, execBookEmpty, head]
    have book : (dropUntaken (popTime .rbk s)).book = s.book := by rw [dropUntaken_eq]; rfl
    dsimp only
    rw [book, answered, dropUntaken_eq, indicateEmptied_eq]
    rfl
  · obtain ⟨more, all, mine⟩ := given p
    rw [all]
    exact List.mem_append_right _ (mine x mem n who)

theorem exec_plannerEmpty_eq (told : s.timeHead .kpl = some .empty) :
    exec .plannerEmpty s = .next (settleTime (((((popTime .kpl s).setKpl
        { Kpl.reset with kitchens := s.kpl.kitchens, staged := s.kpl.staged, method := s.kpl.method, frozen := true }).setWires
        { (popTime .kpl s).wires with
          orders := s.wires.orders ++ (ixsWhere OrderRec.live s.kpl.orders).map (fun i => (s.kpl.orders[i]).room)
          toPlanner := [], toBook := [], taken := [] }).setCtu
        { (popTime .kpl s).ctu with resync := s.ctu.resync.map (fun r : Resync => { r with kpl := true }) }))) := by
  have head : s.wires.time[blockIx .kpl].head? = some .empty := told
  have run : exec .plannerEmpty s = execPlannerEmpty s := rfl
  rw [run, execPlannerEmpty, head]
  dsimp only
  rw [indicateFreed_eq]
  rfl

theorem exec_usageEmpty_eq (told : s.timeHead .psl = some .empty) :
    exec .usageEmpty s = .next (if usageEmptyDue s then
      settleTime ((((popTime .psl s).setPsl { Psl.reset with levelDay := s.psl.levelDay, frozen := true }).setCtu
        { (popTime .psl s).ctu with resync := s.ctu.resync.map (fun r : Resync => { r with psl := true }) })) else s) := by
  have head : s.wires.time[blockIx .psl].head? = some .empty := told
  have run : exec .usageEmpty s = execUsageEmpty s := rfl
  rw [run, execUsageEmpty, head]
  rfl

end

/-- Settles O13: each owner's emptying as one equation, its answers by induction on the exchanges in flight. -/
theorem resyncEmptiesTheOwnersThenSets : Obligations.ResyncEmptiesTheOwnersThenSets := by
  refine ⟨⟨fun p h rest s d m asks req none => ⟨fun bad => ?_, fun day minute => ?_⟩, fun s p n c asked => ?_⟩,
    fun s => ⟨fun told => ?_, fun told => ?_, fun told waits => ?_, fun x told asked reported => ?_⟩, fun s w waits done quiet => ⟨?_, ?_⟩⟩
  · rw [exec_resync_of_asks asks req none, resyncWork_bad bad]
    rfl
  · rw [exec_resync_of_asks asks req none, resyncWork_good day minute]
    rfl
  · rw [exec_resyncComplete_of_emptied asked rfl]
    rfl
  · obtain ⟨as, run, given⟩ := exec_bookEmpty_eq s told
    refine ⟨_, run, settleTime_book _, ?_, ?_, fun x mem p n who => mem_settleTime_answers (given x mem p n who), ?_, ?_, ?_, only_of_exec run⟩
    · rw [settleTime_ctu]
      rfl
    · rw [settleTime_wires_time]
      rfl
    · rw [settleTime_wires_sched, State.setCtu_wires, State.setWires_wires, ixsWhere_eq]
      rfl
    · rw [settleTime_wires_toPlanner]
      rfl
    · rw [settleTime_wires_notices]
      rfl
  · have run := exec_plannerEmpty_eq s told
    refine ⟨_, run, settleTime_kpl _, ?_, ?_, ?_, ?_, ?_, ?_, only_of_exec run⟩
    · rw [settleTime_ctu]
      rfl
    · rw [settleTime_wires_time]
      rfl
    · rw [settleTime_wires_orders, State.setCtu_wires, State.setWires_wires, ixsWhere_eq]
      rfl
    · rw [settleTime_wires_toPlanner]
      rfl
    · rw [settleTime_wires_toBook]
      rfl
    · rw [settleTime_wires_notices]
      rfl
  · have early : ¬ usageEmptyDue s = true := by
      rw [usageEmptyDue_iff]
      rintro ⟨x, asked, reported⟩
      rw [waits x asked] at reported
      exact nomatch reported
    rw [exec_usageEmpty_eq s told, if_neg early]
  · have run := exec_usageEmpty_eq s told
    rw [if_pos (usageEmptyDue_iff.mpr ⟨x, asked, reported⟩)] at run
    refine ⟨_, run, settleTime_psl _, ?_, ?_, ?_, only_of_exec run⟩
    · rw [settleTime_ctu]
      rfl
    · rw [settleTime_wires_time]
      rfl
    · rw [settleTime_wires_notices]
      rfl
  · rw [settleTime_answers]
    refine List.mem_append_right _ (List.mem_map.mpr ⟨w, List.mem_filter.mpr ⟨waits, ?_⟩, by simp [quiet]⟩)
    simpa using timeWait_ready_iff.mpr done
  · rw [settleTime_ctu]
    simp [timeWait_ready_iff.mpr done]

end Sys2Proof.Machine

/-! PROOFS. What recomposing a room can change: the book's reads of bodies, LAST_DISPLAY, and what is handed to the panels. -/

namespace Sys2Proof.Machine

open Host

/-- From `s` to `t` rooms have been recomposed: bodies may have been read, LAST_DISPLAY may have changed, and what stood on its way to the
lines stands, with records behind it. -/
structure Recomposed (s t : State) : Prop where
  only : Only [.ocu, .book, .wires] s t
  ocu : ∃ d, t.ocu = { s.ocu with lastDisplay := d }
  wires : ∃ sched notices toLine, t.wires = { s.wires with sched := sched, notices := notices, toLine := toLine }
  lines : ∀ l : Line, s.wires.toLine[l] <+: t.wires.toLine[l]

theorem Recomposed.refl (s : State) : Recomposed s s :=
  ⟨.refl _ _, ⟨_, rfl⟩, ⟨_, _, _, rfl⟩, fun _ => List.prefix_rfl⟩

theorem Recomposed.trans {s t u : State} (first : Recomposed s t) (later : Recomposed t u) : Recomposed s u := by
  obtain ⟨only, ⟨_, ocu⟩, ⟨_, _, _, wires⟩, lines⟩ := first
  obtain ⟨only', ⟨_, ocu'⟩, ⟨_, _, _, wires'⟩, lines'⟩ := later
  exact ⟨only.trans only', ⟨_, by rw [ocu', ocu]⟩, ⟨_, _, _, by rw [wires', wires]⟩, fun l => (lines l).trans (lines' l)⟩

theorem Recomposed.foldl {α : Type} {f : State → α → State} (each : ∀ s x, Recomposed s (f s x)) (xs : List α) (s : State) :
    Recomposed s (xs.foldl f s) := by
  induction xs generalizing s with
  | nil => exact .refl s
  | cons x xs ih => exact (each s x).trans (ih _)

/-! ## Reads of bodies -/

theorem damage_wires (i : BookIx) (s : State) : ∃ sched notices, (damage i s).wires = { s.wires with sched := sched, notices := notices } := by
  unfold damage
  dsimp only
  split
  · exact ⟨_, _, rfl⟩
  · exact ⟨_, _, rfl⟩

theorem readBody_wires (i : BookIx) (s : State) :
    ∃ sched notices, (readBody i s).2.wires = { s.wires with sched := sched, notices := notices } := by
  unfold readBody
  dsimp only
  split
  · exact ⟨_, _, rfl⟩
  · split
    · exact ⟨_, _, rfl⟩
    · exact damage_wires i s

theorem scrubOne_recomposed (i : BookIx) (s : State) : Recomposed s (scrubOne i s) := by
  have only : Only [.book, .wires] s (scrubOne i s) := (only_scrubOne (by decide) (by decide)).mpr (.refl _ _)
  obtain ⟨sched, notices, wires⟩ : ∃ sched notices, (scrubOne i s).wires = { s.wires with sched := sched, notices := notices } := by
    unfold scrubOne
    split
    · exact readBody_wires i s
    · exact ⟨_, _, rfl⟩
  refine ⟨only.mono (by decide), ⟨_, only.agree .ocu (by decide)⟩, ⟨_, _, _, wires⟩, fun l => ?_⟩
  rw [wires]

theorem readForDisplay_recomposed (r : Room) (s : State) : Recomposed s (readForDisplay r s) := by
  unfold readForDisplay
  repeat' split
  · exact .refl s
  · exact scrubOne_recomposed _ s
  · exact scrubOne_recomposed _ s
  · exact .refl s
  · exact .refl s

/-! ## A room and all rooms recomposed -/

theorem handLine_prefix (l m : Line) (a : Addr) (x : OcuMsg) (s : State) : s.wires.toLine[m] <+: (handLine l a x s).wires.toLine[m] := by
  by_cases same : l = m
  · subst same
    exact ⟨[(a, x)], (modAt_get_same s.wires.toLine l (· ++ [(a, x)])).symm⟩
  · exact ⟨[], (List.append_nil _).trans (modAt_get_other s.wires.toLine (· ++ [(a, x)]) same).symm⟩

theorem handDisplay_recomposed (r : Room) (p : PanelAddr) (d : DisplayRec) (s : State) : Recomposed s (handDisplay r p d s) :=
  ⟨(only_handDisplay (by decide) (by decide)).mpr (.refl _ _), ⟨_, rfl⟩, ⟨_, _, _, rfl⟩, fun m => handLine_prefix p.line m p.addr _ s⟩

theorem recompose_recomposed (r : Room) (s : State) : Recomposed s (recompose r s) := by
  have read := readForDisplay_recomposed r s
  unfold recompose
  dsimp only
  repeat' split
  · exact read
  · exact read.trans (handDisplay_recomposed _ _ _ _)
  · exact read

theorem recomposeAll_recomposed (s : State) : Recomposed s (recomposeAll s) := Recomposed.foldl (fun s r => recompose_recomposed r s) _ s

theorem Recomposed.wires_time {s t : State} (shown : Recomposed s t) : t.wires.time = s.wires.time := by
  obtain ⟨_, _, _, wires⟩ := shown.wires
  rw [wires]

end Sys2Proof.Machine

/-! PROOFS. A block takes a time-set and the expiry indication. -/

namespace Sys2Proof.Machine

open Host

/-! ## The time-set and the expiry at each block -/

section
variable (b : TimedBlock) (s : State)

@[simp] theorem onTimeSet_times : (onTimeSet b s).times = s.times := by
  cases b with
  | ocu => exact (only_ocuTimeSet (ps := [.ocu, .book, .wires]) (by decide) (by decide) (by decide)).mpr (.refl _ _) .times (by decide)
  | _ => rfl

@[simp] theorem onExpiry_times : (onExpiry b s).times = s.times := by
  cases b with
  | ocu => exact (only_ocuExpiry (ps := [.ocu, .book, .wires]) (by decide) (by decide) (by decide)).mpr (.refl _ _) .times (by decide)
  | _ => rfl

@[simp] theorem onTimeSet_wires_time : (onTimeSet b s).wires.time = s.wires.time := by
  cases b with
  | ocu =>
    unfold onTimeSet ocuTimeSet
    rw [(recomposeAll_recomposed _).wires_time, State.setOcu_wires]
  | _ => rfl

end

/-- At a time-set OCU's feedback and ghost counts are gone in every room. -/
theorem ocuTimeSet_ocu (s : State) : ∃ d, (ocuTimeSet s).ocu =
    { s.ocu with
      feedback := Vector.replicate 128 none, ghostCount := Vector.replicate 128 0, ghostRec := Vector.replicate 128 none
      lastDisplay := d } := by
  obtain ⟨d, ocu⟩ := (recomposeAll_recomposed (s.setOcu
    { s.ocu with
      feedback := Vector.replicate 128 none, ghostCount := Vector.replicate 128 0, ghostRec := Vector.replicate 128 none })).ocu
  exact ⟨d, ocu⟩

/-! ## The items that leave at the expiry -/

/-- A room's feedback set and the room recomposed: what OCU then holds. -/
theorem setFeedback_ocu (r : Room) (f : Feedback) (s : State) :
    ∃ d, (setFeedback r f s).ocu =
      { s.ocu with feedback := put s.ocu.feedback r (some (f, s.ocuSlot + 2)), lastDisplay := d } := by
  obtain ⟨d, ocu⟩ := (recompose_recomposed r (s.setOcu { s.ocu with feedback := put s.ocu.feedback r (some (f, s.ocuSlot + 2)) })).ocu
  exact ⟨d, ocu⟩

theorem setFeedback_times (r : Room) (f : Feedback) (s : State) : (setFeedback r f s).times = s.times :=
  (only_setFeedback (ps := [.ocu, .book, .wires]) (by decide) (by decide) (by decide)).mpr (.refl _ _) .times (by decide)

theorem verdictFor_prefix (it : Item) (taken : Bool) (s : State) (l : Line) : s.wires.toLine[l] <+: (verdictFor it taken s).wires.toLine[l] := by
  unfold verdictFor
  split
  · exact handLine_prefix _ _ _ _ _
  · exact List.prefix_rfl

theorem verdictFor_mem {it : Item} {x : Source} (source : it.source = some x) (taken : Bool) (s : State) :
    (x.addr, .verdict x.seq taken) ∈ (verdictFor it taken s).wires.toLine[x.line] := by
  simp [verdictFor, source, handLine]

@[simp] theorem verdictFor_wires_time (it : Item) (taken : Bool) (s : State) : (verdictFor it taken s).wires.time = s.wires.time := by
  unfold verdictFor
  split <;> rfl

@[simp] theorem verdictFor_times (it : Item) (taken : Bool) (s : State) : (verdictFor it taken s).times = s.times := by
  unfold verdictFor
  split <;> rfl

theorem setFeedback_lines (r : Room) (f : Feedback) (s : State) :
    (setFeedback r f s).wires.time = s.wires.time ∧ ∀ l : Line, s.wires.toLine[l] <+: (setFeedback r f s).wires.toLine[l] := by
  have shown := recompose_recomposed r (s.setOcu { s.ocu with feedback := put s.ocu.feedback r (some (f, s.ocuSlot + 2)) })
  exact ⟨shown.wires_time, shown.lines⟩

/-- What a flush of items has done: the rooms of the PANEL items show NOT_AVAILABLE, every other room keeps its feedback, each panel event
has its verdict behind what stood on its way, and the rest of what OCU holds stands. -/
structure Flushed (items : List Item) (s t : State) : Prop where
  times : t.times = s.times
  time : t.wires.time = s.wires.time
  ocu : ∃ f d, t.ocu = { s.ocu with feedback := f, lastDisplay := d }
  lines : ∀ l : Line, s.wires.toLine[l] <+: t.wires.toLine[l]
  set : ∀ r : Room, (∃ it ∈ items, it.origin = .panel ∧ it.room = r) → t.ocu.feedback[r] = some (.notAvailable, s.ocuSlot + 2)
  stands : ∀ r : Room, (∀ it ∈ items, ¬(it.origin = .panel ∧ it.room = r)) → t.ocu.feedback[r] = s.ocu.feedback[r]
  verdicts : ∀ it ∈ items, it.origin = .panel → ∀ x, it.source = some x → (x.addr, .verdict x.seq true) ∈ t.wires.toLine[x.line]

theorem flushed_nil (s : State) : Flushed [] s s :=
  ⟨rfl, rfl, ⟨_, _, rfl⟩, fun _ => List.prefix_rfl, fun _ ⟨_, mem, _⟩ => (nomatch mem), fun _ _ => rfl, fun _ mem => (nomatch mem)⟩

theorem flushItem_flushed (s : State) (it : Item) : Flushed [it] s (flushItem s it) := by
  unfold flushItem
  split
  · next panel =>
    obtain ⟨d, ocu⟩ := setFeedback_ocu it.room .notAvailable s
    obtain ⟨time, lines⟩ := setFeedback_lines it.room .notAvailable s
    refine ⟨by rw [verdictFor_times, setFeedback_times], by rw [verdictFor_wires_time, time], ⟨_, d, by rw [verdictFor_ocu, ocu]⟩,
      fun l => (lines l).trans (verdictFor_prefix _ _ _ _), ?_, ?_, ?_⟩
    · rintro r ⟨x, mem, -, room⟩
      cases List.mem_singleton.mp mem
      rw [← room, verdictFor_ocu, ocu]
      exact put_get_same _ _ _
    · intro r other
      have distinct : it.room ≠ r := fun same => other it (List.mem_singleton.mpr rfl) ⟨panel, same⟩
      rw [verdictFor_ocu, ocu]
      exact put_get_other _ _ distinct
    · intro x mem _ y source
      cases List.mem_singleton.mp mem
      exact verdictFor_mem source true _
  all_goals
    next other =>
    have no {x : Item} (mem : x ∈ [it]) : x.origin ≠ .panel := by
      cases List.mem_singleton.mp mem
      rw [other]
      exact fun same => nomatch same
    exact ⟨rfl, rfl, ⟨_, _, rfl⟩, fun _ => List.prefix_rfl, fun _ ⟨_, mem, panel, _⟩ => absurd panel (no mem), fun _ _ => rfl,
      fun _ mem panel => absurd panel (no mem)⟩

theorem Flushed.trans {xs ys : List Item} {s t u : State} (first : Flushed xs s t) (later : Flushed ys t u) : Flushed (xs ++ ys) s u := by
  have slot : t.ocuSlot = s.ocuSlot := by simp [State.ocuSlot, State.now, State.timeOf, first.times]
  obtain ⟨_, _, ocu⟩ := first.ocu
  obtain ⟨_, _, ocu'⟩ := later.ocu
  refine ⟨later.times.trans first.times, later.time.trans first.time, ⟨_, _, by rw [ocu', ocu]⟩,
    fun l => (first.lines l).trans (later.lines l), ?_, ?_, ?_⟩
  · rintro r ⟨it, mem, mine⟩
    by_cases again : ∃ it ∈ ys, it.origin = .panel ∧ it.room = r
    · rw [later.set r again, slot]
    · rw [later.stands r fun it mem mine => again ⟨it, mem, mine⟩]
      obtain here | there := List.mem_append.mp mem
      · exact first.set r ⟨it, here, mine⟩
      · exact absurd ⟨it, there, mine⟩ again
  · intro r none
    rw [later.stands r fun it mem => none it (List.mem_append_right _ mem), first.stands r fun it mem => none it (List.mem_append_left _ mem)]
  · intro it mem panel x source
    obtain here | there := List.mem_append.mp mem
    · exact (later.lines x.line).subset (first.verdicts it here panel x source)
    · exact later.verdicts it there panel x source

theorem foldl_flushItem_flushed (items : List Item) (s : State) : Flushed items s (items.foldl flushItem s) := by
  induction items generalizing s with
  | nil => exact flushed_nil s
  | cons it items ih => exact (flushItem_flushed s it).trans (ih _)

/-! ## The commands -/

section
variable {b : TimedBlock} {s : State}

theorem exec_timeSet_of_head {c : Clock} (head : s.timeHead b = some (.timeSet c)) :
    exec (.timeSet b) s = .next (if timeSetDue b s then settleTime (onTimeSet b ((popTime b s).setTime b ⟨c, .set⟩)) else s) := by
  have first : s.wires.time[blockIx b].head? = some (.timeSet c) := head
  have run : exec (.timeSet b) s = execTimeSet b s := rfl
  rw [run, execTimeSet, first]

theorem exec_expiryIndication_of_head (head : s.timeHead b = some .expiry) :
    exec (.expiryIndication b) s = .next (settleTime (onExpiry b ((popTime b s).setTime b ⟨s.now b, .expired⟩))) := by
  have first : s.wires.time[blockIx b].head? = some .expiry := head
  have run : exec (.expiryIndication b) s = execExpiryIndication b s := rfl
  rw [run, execExpiryIndication, first]

end

@[simp] theorem onExpiry_wires_time (b : TimedBlock) (s : State) : (onExpiry b s).wires.time = s.wires.time := by
  cases b with
  | ocu =>
    unfold onExpiry ocuExpiry
    rw [(recomposeAll_recomposed _).wires_time, (foldl_flushItem_flushed _ _).time, State.setOcu_wires]
  | _ => rfl

/-- Settles O14: the time-set by block, and the expiry by induction on the items that leave OCU's queue. -/
theorem timeSetAndExpiryAreTaken : Obligations.TimeSetAndExpiryAreTaken := by
  intro b s everyRoom
  refine ⟨fun c head book frozen => ?_, fun c head thawed => ?_, fun head => ?_⟩
  · have early : timeSetDue b s = false := by
      rw [← Bool.not_eq_true, timeSetDue_iff]
      exact fun due => nomatch (due book).symm.trans frozen
    rw [exec_timeSet_of_head head, early]
    rfl
  · intro u
    have run : exec (.timeSet b) s = .next (settleTime (onTimeSet b u)) := by
      rw [exec_timeSet_of_head head, if_pos (timeSetDue_iff.mpr thawed)]
    refine ⟨?_, _, run, ?_, ?_, ?_, ?_, ?_, ?_, only_of_exec run⟩
    · rintro rfl
      exact run
    · rw [settleTime_times, onTimeSet_times]
      rfl
    · rw [settleTime_wires_time, onTimeSet_wires_time]
      rfl
    · rintro rfl
      rw [settleTime_book]
      rfl
    · rintro rfl
      rw [settleTime_kpl]
      rfl
    · rintro rfl
      rw [settleTime_psl]
      rfl
    · rintro rfl r
      obtain ⟨d, ocu⟩ := ocuTimeSet_ocu u
      have taken : (settleTime (onTimeSet .ocu u)).ocu = _ := (settleTime_ocu _).trans ocu
      rw [taken]
      simp
  · intro u late flush mine
    have run := exec_expiryIndication_of_head head
    have flushes : flush = flushItem := by
      funext v it
      simp only [flush, late, flushItem, verdictFor, setFeedback]
      cases it.origin
      · cases it.source <;> rfl
      · rfl
      · rfl
    refine ⟨?_, _, run, ?_, ?_, ?_, only_of_exec run⟩
    · rintro rfl
      rw [run, flushes]
      rfl
    · rw [settleTime_times, onExpiry_times]
      rfl
    · rw [settleTime_wires_time, onExpiry_wires_time]
      rfl
    · rintro rfl
      let emptied := u.setOcu { u.ocu with queue := [] }
      have flushed := foldl_flushItem_flushed s.ocu.queue emptied
      have shown := recomposeAll_recomposed (s.ocu.queue.foldl flushItem emptied)
      have expired : onExpiry .ocu u = recomposeAll (s.ocu.queue.foldl flushItem emptied) := by
        unfold onExpiry ocuExpiry
        rfl
      obtain ⟨f, d, ocu⟩ := flushed.ocu
      obtain ⟨d', ocu'⟩ := shown.ocu
      have taken : (settleTime (onExpiry .ocu u)).ocu = { s.ocu with queue := [], feedback := f, lastDisplay := d' } := by
        rw [settleTime_ocu, expired]
        exact ocu'.trans (by rw [ocu]; rfl)
      have feedback : f = (s.ocu.queue.foldl flushItem emptied).ocu.feedback := by rw [ocu]
      have slot : emptied.ocuSlot = s.ocuSlot := by simp [emptied, u, State.ocuSlot, State.now, State.timeOf]
      rw [taken]
      refine ⟨rfl, rfl, rfl, rfl, rfl, fun it mem panel x source => ?_, fun r => ⟨fun some => ?_, fun none => ?_⟩⟩
      · rw [settleTime_wires_toLine]
        rw [expired]
        exact (shown.lines x.line).subset (flushed.verdicts it mem panel x source)
      · rw [← slot, feedback]
        exact flushed.set r some
      · simp only [feedback]
        exact flushed.stands r none

end Sys2Proof.Machine

/-! PROOFS. The queries and the settings: each is one request taken and answered. -/

namespace Sys2Proof.Machine

open Host

/-! ## A command that takes a request -/

section
variable {α : Type} {c : Instr} {p : Port} {h : HandedRequest} {rest : List HandedRequest} {s : State} {sel : Request → Option α} {a : α}
  {work : Asker → α → State → State}

/-- A command that takes a request for an owner, with such a request at the front. -/
theorem exec_of_asks (is : exec c s = .next (onRequest p sel work s)) (asks : s.asks p h rest) (chosen : sel h.req = some a) :
    exec c s = .next (work (h.asker p) a (s.took p rest)) := by
  rw [is, onRequest_of_asks asks chosen]

/-- A command that takes a book request, with such a request granted. -/
theorem exec_of_bookAsks (is : exec c s = .next (onBookRequest p sel work s)) (asks : s.bookAsks p h rest) (chosen : sel h.req = some a) :
    exec c s = .next (work (h.asker p) a (s.bookTook p rest)) := by
  rw [is, onBookRequest_of_asks asks chosen]

end

section
variable {p : Port} {h : HandedRequest} {rest : List HandedRequest} {s : State} (asks : s.asks p h rest)
include asks

theorem exec_queryTime_of_asks (req : h.req = .queryTime) (none : s.ctu.resync = none) :
    exec (.queryTime p) s = .next (queryTimeWork (h.asker p) () (s.took p rest)) := by
  have run : exec (.queryTime p) s = execQueryTime p s := rfl
  rw [run, execQueryTime, if_neg (by simp [none]), onRequest_of_asks asks (a := ()) (by rw [req])]

theorem exec_queryRooms_of_asks {copy first n : Nat} (req : h.req = .queryRooms copy first n) :
    exec (.queryRooms p) s = .next (queryRoomsWork (h.asker p) (copy, first, n) (s.took p rest)) :=
  exec_of_asks rfl asks (by rw [req])

theorem exec_queryZones_of_asks {copy : Nat} (req : h.req = .queryZones copy) :
    exec (.queryZones p) s = .next (queryZonesWork (h.asker p) copy (s.took p rest)) :=
  exec_of_asks rfl asks (by rw [req])

theorem exec_queryUsage_of_asks {first n : Nat} (req : h.req = .queryUsage first n) :
    exec (.queryUsage p) s = .next (queryUsageWork (h.asker p) (first, n) (s.took p rest)) :=
  exec_of_asks rfl asks (by rw [req])

theorem exec_queryLine_of_asks {l : Nat} (req : h.req = .queryLine l) :
    exec (.queryLine p) s = .next (queryLineWork (h.asker p) l (s.took p rest)) :=
  exec_of_asks rfl asks (by rw [req])

theorem exec_queryKitchen_of_asks {k first n : Nat} (req : h.req = .queryKitchen k first n) :
    exec (.queryKitchen p) s = .next (queryKitchenWork (h.asker p) (k, first, n) (s.took p rest)) :=
  exec_of_asks rfl asks (by rw [req])

theorem exec_queryOrder_of_asks {id : OrderId} (req : h.req = .queryOrder id) :
    exec (.queryOrder p) s = .next (queryOrderWork (h.asker p) id (s.took p rest)) :=
  exec_of_asks rfl asks (by rw [req])

theorem exec_queryNotices_of_asks (req : h.req = .queryNotices) :
    exec (.queryNotices p) s = .next (queryNoticesWork (h.asker p) () (s.took p rest)) :=
  exec_of_asks rfl asks (by rw [req])

theorem exec_queryPower_of_asks (req : h.req = .queryPower) :
    exec (.queryPower p) s = .next (queryPowerWork (h.asker p) () (s.took p rest)) :=
  exec_of_asks rfl asks (by rw [req])

theorem exec_setQuiet_of_asks {a b c : Nat} (req : h.req = .setQuiet a b c) :
    exec (.setQuiet p) s = .next (setQuietWork (h.asker p) (a, b, c) (s.took p rest)) :=
  exec_of_asks rfl asks (by rw [req])

theorem exec_setLevellingDay_of_asks {w : Nat} (req : h.req = .setLevellingDay w) :
    exec (.setLevellingDay p) s = .next (setLevellingDayWork (h.asker p) w (s.took p rest)) :=
  exec_of_asks rfl asks (by rw [req])

theorem exec_routeSet_of_asks {i k z o e : Nat} (req : h.req = .routeSet i k z o e) :
    exec (.routeSet p) s = .next (routeSetWork (h.asker p) ⟨i, k, z, o, e⟩ (s.took p rest)) :=
  exec_of_asks rfl asks (by rw [req])

end

/-! ## The queries -/

section
variable {q : Asker} {s : State}

theorem queryRoomsWork_good {copy first n : Nat} (hc : copy ≤ 1) (hf : first ≤ 127) (hn : 1 ≤ n) (hm : n ≤ 16) (hl : first + n ≤ 128) :
    queryRoomsWork q (copy, first, n) s = reply q .ok
      (eList eRoomRec (((if copy = 0 then s.rzt.rooms else s.rzt.stagedRooms).toList.drop first).take n) ++ e1 s.rzt.roomMethod.toNat) s :=
  if_neg (by simp; omega)

theorem queryRoomsWork_bad {copy first n : Nat} (bad : 1 < copy ∨ 127 < first ∨ n = 0 ∨ 16 < n ∨ 128 < first + n) :
    queryRoomsWork q (copy, first, n) s = reply q .badParam [] s := if_pos (by simp; omega)

theorem queryUsageWork_good {first n : Nat} (hf : first ≤ 127) (hn : 1 ≤ n) (hm : n ≤ 32) (hl : first + n ≤ 128) :
    queryUsageWork q (first, n) s = reply q .ok
      (eList (fun x => e2 x.1 ++ e1 x.2.toNat) (((s.psl.usage.toList.zip s.psl.basis.toList).drop first).take n) ++ levelPayload s.psl) s :=
  if_neg (by simp; omega)

theorem queryUsageWork_bad {first n : Nat} (bad : 127 < first ∨ n = 0 ∨ 32 < n ∨ 128 < first + n) :
    queryUsageWork q (first, n) s = reply q .badParam [] s := if_pos (by simp; omega)

theorem queryLineWork_good (l : Line) :
    queryLineWork q l.val s = reply q .ok
      ((s.line l).ctx.toList.flatMap ctxItems ++ e2 (s.line l).crcCount ++ e2 (s.line l).timeoutCount ++
        eOpt (fun t : Addr × TrapKind => e1 t.1.val ++ e1 t.2.toNat) (s.line l).trap) s := dif_pos l.isLt

theorem queryLineWork_bad {l : Nat} (bad : 3 < l) : queryLineWork q l s = reply q .badParam [] s := dif_neg (by omega)

theorem queryKitchenWork_good {k : Kitchen} {first n : Nat} (hf : first ≤ 191) (hn : 1 ≤ n) (hm : n ≤ 32) (hl : first + n ≤ 192) :
    queryKitchenWork q (k.val, first, n) s = reply q .ok
      (eKitchen s.kpl.kitchens[k] ++ eKitchen s.kpl.staged[k] ++ e1 s.kpl.method.toNat ++ e4 (s.kplDay * 96) ++
        eList (fun l => e2 l ++ e2 ((s.kpl.kitchens[k]).capb - l)) (((s.kpl.maps[k]).toList.drop first).take n)) s := by
  unfold queryKitchenWork
  rw [dif_pos k.isLt]
  exact if_neg (by simp; omega)

theorem queryKitchenWork_bad {k first n : Nat} (bad : 3 < k ∨ 191 < first ∨ n = 0 ∨ 32 < n ∨ 192 < first + n) :
    queryKitchenWork q (k, first, n) s = reply q .badParam [] s := by
  unfold queryKitchenWork
  split
  · exact if_pos (by simp; omega)
  · rfl

theorem onOrder_named {id : OrderId} {o : OrderRec} {work : OrderRec → State → State} (named : resolveOrder id s = some o) :
    onOrder q id work s = work o s := by
  unfold onOrder
  rw [named]

theorem onOrder_stale {id : OrderId} {work : OrderRec → State → State} (stale : resolveOrder id s = none) :
    onOrder q id work s = reply q .unknown [] s := by
  unfold onOrder
  rw [stale]

end

/-- Settles O18: each query is taken whole and answered by its one check. -/
theorem queriesAnswerAndChangeNothing : Obligations.QueriesAnswerAndChangeNothing := by
  refine ⟨fun p h rest s asks => ⟨fun req none => ?_, fun copy first n req hc hf hn hm hl => ?_, fun copy req hc => ?_,
    fun first n req hf hn hm hl => ?_, fun l req => ?_, fun k first n req hf hn hm hl => ?_, fun id o req named => ?_, fun req => ?_,
    fun req => ?_⟩, fun p h rest s asks => ⟨fun copy first n req bad => ?_, fun copy req bad => ?_, fun first n req bad => ?_,
    fun l req bad => ?_, fun k first n req bad => ?_, fun id req stale => ?_⟩⟩
  · rw [exec_queryTime_of_asks asks req none]
    rfl
  · rw [exec_queryRooms_of_asks asks req, queryRoomsWork_good hc hf hn hm hl]
    rfl
  · rw [exec_queryZones_of_asks asks req, queryZonesWork, if_neg (Nat.not_lt.mpr hc)]
    rfl
  · rw [exec_queryUsage_of_asks asks req, queryUsageWork_good hf hn hm hl, List.append_assoc]
    rfl
  · rw [exec_queryLine_of_asks asks req, queryLineWork_good]
    rfl
  · rw [exec_queryKitchen_of_asks asks req, queryKitchenWork_good hf hn hm hl]
    rfl
  · rw [exec_queryOrder_of_asks asks req, queryOrderWork, onOrder_named (s := s.took p rest) named]
    rfl
  · rw [exec_queryNotices_of_asks asks req]
    rfl
  · rw [exec_queryPower_of_asks asks req]
    rfl
  · rw [exec_queryRooms_of_asks asks req, queryRoomsWork_bad bad]
    rfl
  · rw [exec_queryZones_of_asks asks req, queryZonesWork, if_pos bad]
    rfl
  · rw [exec_queryUsage_of_asks asks req, queryUsageWork_bad bad]
    rfl
  · rw [exec_queryLine_of_asks asks req, queryLineWork_bad bad]
    rfl
  · rw [exec_queryKitchen_of_asks asks req, queryKitchenWork_bad bad]
    rfl
  · rw [exec_queryOrder_of_asks asks req, queryOrderWork, onOrder_stale (s := s.took p rest) stale]
    rfl

/-! ## The settings -/

theorem permitted_setQuiet {role : Role} {a b c : Nat} : (Request.setQuiet a b c).permitted role = true ↔ role = .facilities := by
  simp only [Request.permitted, decide_eq_true_eq]

theorem routeKind_eq_none_iff {n : Nat} : routeKind n = none ↔ n ≠ 255 ∧ 28 ≤ n := by
  unfold routeKind
  split
  · simp_all
  · simp [NoticeKind.all, *]

theorem routeKind_of_named {n : Nat} (named : n = 255 ∨ n < 28) :
    routeKind n = some (if n = 255 then none else NoticeKind.all[n]?) := by
  unfold routeKind
  split
  · rfl
  · next other =>
    have below : n < NoticeKind.all.length := by
      change n < 28
      omega
    rw [List.getElem?_eq_getElem below]
    rfl

section
variable {q : Asker} {s : State} {index kind zones ports enabled : Nat}

theorem routeSetWork_bad (bad : 15 < index ∨ (kind ≠ 255 ∧ 28 ≤ kind) ∨ 31 < zones ∨ 15 < ports ∨ 1 < enabled) :
    routeSetWork q ⟨index, kind, zones, ports, enabled⟩ s = reply q .badParam [] s := by
  unfold routeSetWork
  dsimp only
  split
  · split
    · next named =>
      have known : ¬(kind ≠ 255 ∧ 28 ≤ kind) := fun unknown => nomatch (routeKind_eq_none_iff.mpr unknown).symm.trans named
      exact if_pos (by simp only [Bool.or_eq_true, decide_eq_true_eq]; omega)
    · rfl
  · rfl

theorem routeSetWork_good {i : Fin 16} (hk : kind = 255 ∨ kind < 28) (hz : zones ≤ 31) (hp : ports ≤ 15) (he : enabled ≤ 1) :
    let r : Route := { kind := if kind = 255 then none else NoticeKind.all[kind]?, zones := membersOf 5 zones, ports := membersOf 4 ports,
                       enabled := enabled = 1 }
    routeSetWork q ⟨i.val, kind, zones, ports, enabled⟩ s =
      reply q .ok (eRoute r) (s.setNrt { s.nrt with routes := put s.nrt.routes i r }) := by
  intro r
  unfold routeSetWork
  rw [dif_pos i.isLt]
  dsimp only
  rw [routeKind_of_named hk]
  exact if_neg (by simp only [Bool.or_eq_true, decide_eq_true_eq]; omega)

theorem setQuietWork_bad {a b c : Nat} (bad : 1439 < a ∨ 1439 < b ∨ 1 < c ∨ a = b) :
    setQuietWork q (a, b, c) s = reply q .badParam [] s := if_pos (by simp; omega)

theorem setQuietWork_good {a b c : Nat} (ha : a ≤ 1439) (hb : b ≤ 1439) (hc : c ≤ 1) (distinct : a ≠ b) :
    setQuietWork q (a, b, c) s =
      reply q .ok (e2 a ++ e2 b ++ e1 c) (s.setPwc { s.pwc with qStart := a, qEnd := b, auto := c = 1 }) := if_neg (by simp; omega)

end

/-- Settles O19: each setting is refused by its check or written whole. -/
theorem settingsReplaceTheirValues : Obligations.SettingsReplaceTheirValues := by
  refine ⟨fun p h rest s a b c asks req => ⟨fun _ => permitted_setQuiet, fun bad => ?_, fun ha hb hc distinct => ?_⟩,
    fun p h rest s w asks req => ⟨fun bad => ?_, fun good => ?_⟩,
    fun p h rest s index kind zones ports enabled asks req => ⟨fun bad => ?_, fun i same hk hz hp he => ?_⟩⟩
  · rw [exec_setQuiet_of_asks asks req, setQuietWork_bad bad]
    rfl
  · rw [exec_setQuiet_of_asks asks req, setQuietWork_good ha hb hc distinct]
    rfl
  · rw [exec_setLevellingDay_of_asks asks req, setLevellingDayWork, if_pos bad]
    rfl
  · rw [exec_setLevellingDay_of_asks asks req, setLevellingDayWork, if_neg (Nat.not_lt.mpr good)]
    rfl
  · rw [exec_routeSet_of_asks asks req, routeSetWork_bad bad]
    rfl
  · subst same
    rw [exec_routeSet_of_asks asks req, routeSetWork_good hk hz hp he]
    rfl

end Sys2Proof.Machine

/-! PROOFS. Staged tables become active. -/

namespace Sys2Proof.Machine

open Host

/-! ## Changed rooms (02 R33) -/

theorem mem_changedRooms {rooms rooms' : Vector RoomRec 128} {z z' : ZoneTable} {r : Room} :
    r ∈ changedRooms rooms rooms' z z' ↔
      rooms[r] ≠ rooms'[r] ∨ z.zoneOf r ≠ z'.zoneOf r ∨ z.attrs[z.zoneOf r] ≠ z'.attrs[z'.zoneOf r] ∨
        effKind rooms z (z.zoneOf r) ≠ effKind rooms' z' (z'.zoneOf r) := by
  simp only [changedRooms, List.mem_filter, List.mem_finRange, true_and, decide_eq_true_eq, viewOf, kindsOf, tabulate_get, ne_eq,
    View.mk.injEq, not_and_or]

/-! ## Answers that wait for a signal's receivers -/

theorem configWait_ready_iff {w : ConfigWait} : w.ready = true ↔ ∀ i : Fin 6, w.left[i] = 0 := all_zero_iff

theorem configWait_ready_eq : ConfigWait.ready = fun w => decide (∀ i : Fin 6, w.left[i] = 0) := by
  funext w
  rw [Bool.eq_iff_iff, configWait_ready_iff, decide_eq_true_iff]

theorem settleConfig_answers (s : State) (p : Port) :
    (settleConfig s).wires.answers[p] = s.wires.answers[p] ++
      (s.rzt.waits.filter (fun w => w.ready && decide (w.port = p))).map (fun w => ⟨w.reqno, .ok, w.payload⟩) := by
  unfold settleConfig
  rw [foldl_answer_get ConfigWait.port ConfigWait.reqno (fun _ => .ok) ConfigWait.payload, List.filter_filter]
  simp only [Bool.and_comm]
  rfl

theorem settleConfig_wires (s : State) : (settleConfig s).wires = { s.wires with answers := (settleConfig s).wires.answers } := by
  obtain ⟨as, settled⟩ := settleConfig_eq s
  rw [settled]
  rfl

/-! ## The kitchen table (07 R134, R135) -/

theorem modAt_append {α : Type} {n : Nat} (v : Vector (List α) n) (i : Fin n) (xs ys : List α) :
    modAt (modAt v i (· ++ xs)) i (· ++ ys) = modAt v i (· ++ (xs ++ ys)) := by simp [modAt]

theorem modAt_append_nil {α : Type} {n : Nat} (v : Vector (List α) n) (i : Fin n) : modAt v i (· ++ []) = v := by simp [modAt]

/-- The notice of one kitchen made active: its first bucket not passed that holds more than the new CAPB. -/
def overloadOf (base c : Nat) (s : State) (k : Kitchen) : Option HandedNotice :=
  ((List.finRange 192).find? (fun i => decide ((s.kpl.staged[k]).capb < (s.kpl.maps[k])[i] ∧ c ≤ base * 96 + i.val))).map (fun i =>
    { note := { kind := .kitchenOverload, date := s.now .kpl, booking := none, order := none, room := none, panel := none,
                detail := detail2 k.val i.val },
      dated := true, owner := none, cause := none })

theorem overloadNotice_eq {base c : Nat} {s t : State} (kitchens : t.kpl.kitchens = s.kpl.staged) (maps : t.kpl.maps = s.kpl.maps)
    (times : t.times = s.times) (k : Kitchen) :
    overloadNotice base c k t = t.setWires
      { t.wires with notices := modAt t.wires.notices (producerIx .kpl) (· ++ (overloadOf base c s k).toList) } := by
  have now : t.now .kpl = s.now .kpl := by simp [State.now, State.timeOf, times]
  have first : (ixsWhere (fun l => (t.kpl.kitchens[k]).capb < l) t.kpl.maps[k]).find? (fun i => c ≤ base * 96 + i.val) =
      (List.finRange 192).find? (fun i => decide ((s.kpl.staged[k]).capb < (s.kpl.maps[k])[i] ∧ c ≤ base * 96 + i.val)) := by
    rw [ixsWhere_eq, List.find?_filter, kitchens, maps]
    simp only [Bool.decide_and, Bool.decide_eq_true]
  unfold overloadNotice overloadOf
  dsimp only
  rw [first, now]
  cases List.find? _ _ with
  | none =>
    simp only [Option.map_none, Option.toList_none, modAt_append_nil]
    rfl
  | some i => rfl

theorem kitchenApply_eq (base c : Nat) (s : State) :
    kitchenApply base c s = (s.setKpl { s.kpl with kitchens := s.kpl.staged, method := .none }).setWires
      { s.wires with
        notices := modAt s.wires.notices (producerIx .kpl) (· ++ (changedKitchens s).filterMap (overloadOf base c s)) } := by
  have handed (ks : List Kitchen) : ∀ t : State, t.kpl.kitchens = s.kpl.staged → t.kpl.maps = s.kpl.maps → t.times = s.times →
      ks.foldl (fun s k => overloadNotice base c k s) t = t.setWires
        { t.wires with notices := modAt t.wires.notices (producerIx .kpl) (· ++ ks.filterMap (overloadOf base c s)) } := by
    induction ks with
    | nil =>
      intro t _ _ _
      rw [List.filterMap_nil, modAt_append_nil]
      rfl
    | cons k ks ih =>
      intro t kitchens maps times
      rw [List.foldl_cons, overloadNotice_eq kitchens maps times]
      refine (ih _ (by exact kitchens) (by exact maps) (by exact times)).trans ?_
      have joined : (overloadOf base c s k).toList ++ ks.filterMap (overloadOf base c s) = (k :: ks).filterMap (overloadOf base c s) := by
        cases found : overloadOf base c s k <;> simp [found]
      simp only [State.setWires_wires, State.setWires_setWires, modAt_append, joined]
  exact handed (changedKitchens s) (s.setKpl { s.kpl with kitchens := s.kpl.staged, method := .none }) rfl rfl rfl

/-! ## APPLY and the rollover -/

theorem exec_apply_of_asks {p : Port} {h : HandedRequest} {rest : List HandedRequest} {s : State} (asks : s.asks p h rest) {table : Nat}
    (req : h.req = .apply table) : exec (.apply p) s = .next (applyWork (h.asker p) table (s.took p rest)) :=
  exec_of_asks rfl asks (by rw [req])

section
variable {q : Asker} {s : State} {table : Nat}

theorem applyWork_bad (bad : 3 < table) : applyWork q table s = reply q .badParam [] s := by
  unfold applyWork rztApplyWork
  rw [if_neg (by omega), if_pos (by omega)]

theorem applyWork_rooms (named : table ≤ 2) : applyWork q table s =
    (let sig := applySignal (table != 1) (table != 0) s
     let t := makeActive (table != 1) (table != 0) s
     if sig.changed.isEmpty then reply q .ok (e1 0) t else waitConfig q (e1 sig.changed.length) (handConfig sig t)) := by
  unfold applyWork rztApplyWork
  rw [if_neg (by omega), if_neg (by omega)]

end

/-- A command that takes a tick for a block, with one at the head of its list. -/
theorem exec_of_tick {cmd : Instr} {b : TimedBlock} {want : Clock → Bool} {work : Clock → State → State} {s : State} {c : Clock}
    (is : exec cmd s = .next (takeTick b want work s)) (head : s.timeHead b = some (.tick c)) (wanted : want c = true) :
    exec cmd s = .next (settleTime (work c (s.ticked b c))) := by
  rw [is, takeTick_of_tick head wanted]
  rfl

/-- Settles O17: the changed rooms are those with another view, and every apply is one writing of the tables with what it hands. -/
theorem stagedTablesBecomeActive : Obligations.StagedTablesBecomeActive := by
  refine ⟨fun doRooms doZones s r => ?_, fun base c s => ⟨rfl, kitchenApply_eq base c s⟩, fun p h rest s table asks req => ?_,
    fun _ _ => rfl, fun s => ?_, fun s c head => ?_⟩
  · intro rooms' zones' k k'
    refine ⟨mem_changedRooms, ?_, rfl⟩
    change r ∈ (applySignal doRooms doZones s).changed.filter (fun r => decide ((s.rzt.rooms[r]).panel ≠ (rooms'[r]).panel)) ↔ _
    rw [List.mem_filter, decide_eq_true_iff]
  · intro u sig v
    have run := exec_apply_of_asks asks req
    refine ⟨fun bad => ?_, fun kitchens => ?_, fun named same => ?_, fun named other => ?_⟩
    · rw [run, applyWork_bad bad]
      rfl
    · rw [run, applyWork, if_pos kitchens]
      rfl
    · have empty : (applySignal (table != 1) (table != 0) u).changed.isEmpty = true := List.isEmpty_iff.mpr same
      rw [run, applyWork_rooms named]
      exact congrArg _ (if_pos empty)
    · have some : ¬(applySignal (table != 1) (table != 0) u).changed.isEmpty = true := fun empty => other (List.isEmpty_iff.mp empty)
      rw [run, applyWork_rooms named]
      exact congrArg _ (if_neg some)
  · intro due t
    have ready : ConfigWait.ready = due := configWait_ready_eq
    refine ⟨?_, fun p => ?_, settleConfig_wires s, (only_settleConfig (by decide) (by decide)).mpr (.refl _ _)⟩
    · rw [← ready]
      exact settleConfig_rzt s
    · rw [← ready]
      exact settleConfig_answers s p
  · intro u rooms zones
    have run : exec .tableRolloverApply s = .next (settleTime (rztTick c u)) := exec_of_tick rfl head rfl
    refine ⟨fun quiet => ?_, fun rollover pending => ?_⟩
    · have still : (c.isRollover && (rooms || zones)) = false := by
        obtain later | ⟨noRooms, noZones⟩ := quiet
        · simp [Clock.isRollover, later]
        · simp [noRooms, noZones]
      rw [run]
      exact congrArg (fun x => Outcome.next (settleTime x)) (if_neg (by rw [Bool.not_eq_true]; exact still))
    · have due : (c.isRollover && (rooms || zones)) = true := by
        simp [Clock.isRollover, rollover, pending]
      rw [run]
      exact congrArg (fun x => Outcome.next (settleTime x)) (if_pos due)

end Sys2Proof.Machine

/-! PROOFS. Staging: the carried records judged, written over the staged ones, and the panels they share. -/

namespace Sys2Proof.Machine

open Host

/-! ## Carried records -/

section
variable {α β : Type} {f : α → Option β}

theorem judgeAll_eq_some {as : List α} {bs : List β} (judged : as.map f = bs.map some) : judgeAll f as = some bs := by
  induction as generalizing bs with
  | nil => cases bs <;> simp_all [judgeAll]
  | cons a as ih =>
    cases bs with
    | nil => simp at judged
    | cons b bs =>
      obtain ⟨here, rest⟩ := List.cons.inj judged
      simp [judgeAll, here, ih rest]

theorem judgeAll_eq_none {as : List α} (refused : ∃ a ∈ as, f a = none) : judgeAll f as = none := by
  induction as with
  | nil => obtain ⟨_, mem, _⟩ := refused; exact nomatch mem
  | cons a as ih =>
    obtain ⟨x, mem, none⟩ := refused
    obtain rfl | behind := List.mem_cons.mp mem
    · simp [judgeAll, none]
    · simp [judgeAll, ih ⟨x, behind, none⟩]

end

/-- What a place holds after records are written from an index up. -/
theorem writeFrom_get {α : Type} {n : Nat} (xs : List α) (v : Vector α n) (first : Nat) (i : Fin n) :
    (writeFrom v first xs)[i] = ((if first ≤ i.val then xs[i.val - first]? else none).getD v[i]) := by
  induction xs generalizing v first with
  | nil => simp [writeFrom]
  | cons x xs ih =>
    rw [writeFrom, ih]
    obtain below | rfl | above := Nat.lt_trichotomy i.val first
    · have other : (if h : first < n then put v ⟨first, h⟩ x else v)[i] = v[i] := by
        split
        · exact put_get_other _ _ (by rw [ne_eq, Fin.ext_iff]; simp; omega)
        · rfl
      rw [if_neg (by omega), if_neg (by omega), other]
    · simp
    · have other : (if h : first < n then put v ⟨first, h⟩ x else v)[i] = v[i] := by
        split
        · exact put_get_other _ _ (by rw [ne_eq, Fin.ext_iff]; simp; omega)
        · rfl
      have shift : i.val - first = (i.val - (first + 1)) + 1 := by omega
      rw [if_pos (by omega), if_pos (by omega), other, shift, List.getElem?_cons_succ]

theorem foldl_add_eq_sum (ns : List Nat) : ns.foldl (· + ·) 0 = ns.sum := List.sum_eq_foldl.symm

/-! ## Shared panels (02 R28) -/

/-- Two rooms that name one panel. -/
def Shares (rooms : Vector RoomRec 128) (a b : Room) : Prop :=
  a ≠ b ∧ ∃ x, (rooms[a]).panel = some x ∧ (rooms[b]).panel = some x

/-- The lowest other room that names a room's panel. -/
def sharer (rooms : Vector RoomRec 128) (r : Room) : Option Room :=
  (rooms[r]).panel.bind fun p => (List.finRange 128).find? (fun q => q ≠ r ∧ (rooms[q]).panel = some p)

theorem panelConflict_eq (rooms : Vector RoomRec 128) (rs : List Room) :
    panelConflict rooms rs = rs.findSome? fun r => (sharer rooms r).map fun q => (r, q) := by
  unfold panelConflict sharer
  congr 1
  funext r
  cases (rooms[r]).panel <;> rfl

/-- In an ascending list the first that meets a condition is the least that meets it. -/
theorem find?_eq_some_iff_of_ascending {α : Type} [LinearOrder α] {p : α → Bool} {l : List α} (asc : l.Pairwise (· < ·)) {a : α} :
    l.find? p = some a ↔ a ∈ l ∧ p a = true ∧ ∀ x ∈ l, p x = true → a ≤ x := by
  induction l with
  | nil => simp
  | cons y ys ih =>
    obtain ⟨least, rest⟩ := List.pairwise_cons.mp asc
    by_cases here : p y = true
    · rw [List.find?_cons_of_pos here]
      constructor
      · rintro ⟨rfl⟩
        refine ⟨List.mem_cons_self, here, fun x mem _ => ?_⟩
        obtain rfl | behind := List.mem_cons.mp mem
        exacts [le_rfl, (least x behind).le]
      · rintro ⟨mem, -, first⟩
        obtain rfl | behind := List.mem_cons.mp mem
        · rfl
        · exact absurd (first y List.mem_cons_self here) (least a behind).not_ge
    · rw [List.find?_cons_of_neg here, ih rest]
      constructor
      · rintro ⟨mem, holds, first⟩
        refine ⟨List.mem_cons_of_mem _ mem, holds, fun x among meets => ?_⟩
        obtain rfl | behind := List.mem_cons.mp among
        exacts [absurd meets here, first x behind meets]
      · rintro ⟨mem, holds, first⟩
        obtain rfl | behind := List.mem_cons.mp mem
        · exact absurd holds here
        · exact ⟨behind, holds, fun x among => first x (List.mem_cons_of_mem _ among)⟩

/-- In an ascending list the first value found is that of the least element that has one. -/
theorem findSome?_eq_some_iff_of_ascending {α β : Type} [LinearOrder α] {f : α → Option β} {l : List α} (asc : l.Pairwise (· < ·)) {b : β} :
    l.findSome? f = some b ↔ ∃ a ∈ l, f a = some b ∧ ∀ x ∈ l, x < a → f x = none := by
  induction l with
  | nil => simp
  | cons y ys ih =>
    obtain ⟨least, rest⟩ := List.pairwise_cons.mp asc
    cases here : f y with
    | some c =>
      rw [List.findSome?_cons_of_isSome (by simp [here])]
      constructor
      · intro same
        refine ⟨y, List.mem_cons_self, same, fun x mem below => ?_⟩
        obtain rfl | behind := List.mem_cons.mp mem
        exacts [absurd below (lt_irrefl _), absurd below (least x behind).not_gt]
      · rintro ⟨a, mem, found, first⟩
        obtain rfl | behind := List.mem_cons.mp mem
        · exact found
        · exact nomatch here.symm.trans (first y List.mem_cons_self (least a behind))
    | none =>
      rw [List.findSome?_cons_of_isNone (by simp [here]), ih rest]
      constructor
      · rintro ⟨a, mem, found, first⟩
        refine ⟨a, List.mem_cons_of_mem _ mem, found, fun x among below => ?_⟩
        obtain rfl | behind := List.mem_cons.mp among
        exacts [here, first x behind below]
      · rintro ⟨a, mem, found, first⟩
        obtain rfl | behind := List.mem_cons.mp mem
        · exact nomatch here.symm.trans found
        · exact ⟨a, behind, found, fun x among => first x (List.mem_cons_of_mem _ among)⟩

theorem pairwise_finRange (n : Nat) : (List.finRange n).Pairwise (· < ·) := (List.sortedLT_finRange n).pairwise

theorem sharer_eq_some_iff {rooms : Vector RoomRec 128} {a b : Room} :
    sharer rooms a = some b ↔ Shares rooms a b ∧ ∀ b', Shares rooms a b' → b ≤ b' := by
  unfold sharer Shares
  rw [Option.bind_eq_some_iff]
  simp only [find?_eq_some_iff_of_ascending (pairwise_finRange 128), List.mem_finRange, true_and, decide_eq_true_eq, forall_true_left]
  constructor
  · rintro ⟨x, mine, ⟨other, theirs⟩, first⟩
    refine ⟨⟨other.symm, x, mine, theirs⟩, ?_⟩
    rintro b' ⟨distinct, y, again, names⟩
    cases mine.symm.trans again
    exact first b' ⟨distinct.symm, names⟩
  · rintro ⟨⟨other, x, mine, theirs⟩, first⟩
    exact ⟨x, mine, ⟨other.symm, theirs⟩, fun b' ⟨distinct, names⟩ => first b' ⟨distinct.symm, x, mine, names⟩⟩

theorem sharer_eq_none_iff {rooms : Vector RoomRec 128} {a : Room} : sharer rooms a = none ↔ ∀ b, ¬Shares rooms a b := by
  unfold sharer Shares
  rw [Option.bind_eq_none_iff]
  simp only [List.find?_eq_none, List.mem_finRange, forall_true_left, decide_eq_true_eq, not_and, not_exists]
  constructor
  · exact fun none b other x mine theirs => none x mine b other.symm theirs
  · exact fun none x mine b other theirs => none b other.symm x mine theirs

section
variable {rooms : Vector RoomRec 128} {rs : List Room}

theorem panelConflict_eq_some_iff (asc : rs.Pairwise (· < ·)) {a b : Room} :
    panelConflict rooms rs = some (a, b) ↔
      a ∈ rs ∧ Shares rooms a b ∧ (∀ b', Shares rooms a b' → b ≤ b') ∧ ∀ a' ∈ rs, a' < a → ∀ b', ¬Shares rooms a' b' := by
  rw [panelConflict_eq, findSome?_eq_some_iff_of_ascending asc]
  simp only [Option.map_eq_some_iff, Prod.mk.injEq, Option.map_eq_none_iff, sharer_eq_none_iff]
  constructor
  · rintro ⟨_, mem, ⟨_, found, rfl, rfl⟩, first⟩
    obtain ⟨shares, lowest⟩ := sharer_eq_some_iff.mp found
    exact ⟨mem, shares, lowest, first⟩
  · rintro ⟨mem, shares, lowest, first⟩
    exact ⟨a, mem, ⟨b, sharer_eq_some_iff.mpr ⟨shares, lowest⟩, rfl, rfl⟩, first⟩

theorem panelConflict_eq_none_iff : panelConflict rooms rs = none ↔ ∀ a ∈ rs, ∀ b, ¬Shares rooms a b := by
  simp only [panelConflict_eq, List.findSome?_eq_none_iff, Option.map_eq_none_iff, sharer_eq_none_iff]

end

/-! ## STAGE_ROOMS -/

theorem methodOf_eq_none_iff {n : Nat} : methodOf n = none ↔ 2 < n := by
  match n with
  | 0 | 1 | 2 => simp [methodOf]
  | n + 3 => simp [methodOf]

section
variable {q : Asker} {s : State} {first method : Nat} {recs : List RoomParam}

theorem stageRoomsWork_unset (rollover : method = 1) (unset : s.clockSet .rzt = false) :
    stageRoomsWork q (first, recs, method) s = reply q .clockUnset [] s := if_pos (by simp [rollover, unset])

theorem stageRoomsWork_bad (set : method = 1 → s.clockSet .rzt = true)
    (bad : 127 < first ∨ recs = [] ∨ 16 < recs.length ∨ 128 < first + recs.length ∨ 2 < method ∨ ∃ x ∈ recs, RoomParam.judge x = none) :
    stageRoomsWork q (first, recs, method) s = reply q .badParam [] s := by
  unfold stageRoomsWork
  dsimp only
  rw [if_neg (by simpa using set)]
  split
  · rfl
  · next inRange =>
    have refused : judgeAll RoomParam.judge recs = none ∨ methodOf method = none := by
      simp only [Bool.or_eq_true, decide_eq_true_eq, List.length_eq_zero_iff, not_or] at inRange
      obtain ⟨⟨⟨hf, hr⟩, hn⟩, hl⟩ := inRange
      obtain h | h | h | h | h | h := bad
      exacts [absurd h hf, absurd h hr, absurd h hn, absurd h hl, .inr (methodOf_eq_none_iff.mpr h), .inl (judgeAll_eq_none h)]
    split
    · next judged named => simp [judged, named] at refused
    · rfl

variable (hf : first ≤ 127) (hn : 1 ≤ recs.length) (hm : recs.length ≤ 16) (hl : first + recs.length ≤ 128)
  (set : method = 1 → s.clockSet .rzt = true) {rs : List RoomRec} {m : Method} (named : methodOf method = some m)
  (judged : recs.map RoomParam.judge = rs.map some)
include hf hn hm hl set named judged

theorem stageRoomsWork_good :
    stageRoomsWork q (first, recs, method) s =
      (let staged := writeFrom s.rzt.stagedRooms first rs
       match panelConflict staged ((List.finRange 128).filter (fun r => first ≤ r.val ∧ r.val < first + recs.length)) with
       | some (a, b) => reply q .stageInvalid (eRoom a ++ eRoom b) s
       | none =>
         let u := s.setRzt { s.rzt with stagedRooms := staged, roomMethod := m.pend }
         let diff := e1 (roomsDiffering staged s.rzt.rooms)
         if m = .immediate then
           let sig := applySignal true false u
           waitConfig q (diff ++ e1 sig.changed.length) (handConfig sig (makeActive true false u))
         else reply q .ok diff u) := by
  unfold stageRoomsWork
  dsimp only
  rw [if_neg (by simpa using set), if_neg (by simp only [Bool.or_eq_true, decide_eq_true_eq]; omega), judgeAll_eq_some judged, named]
    <;> rfl

end

end Sys2Proof.Machine

/-! PROOFS. STAGE_ROOMS, STAGE_ZONES and STAGE_KITCHEN write the staged copies. -/

namespace Sys2Proof.Machine

open Host

/-! ## A carried room record -/

theorem optPanel_eq_none_iff {p : Option Nat} : optPanel p = none ↔ ∃ n, p = some n ∧ 127 < n := by
  cases p with
  | none => simp [optPanel]
  | some n => simp [optPanel, panelOf]; omega

theorem octet_of_optPanel {p : Option Nat} {x : Option PanelAddr} (judged : optPanel p = some x) :
    x.map (fun a => a.line.val * 32 + a.addr.val) = p := by
  cases p with
  | none => cases judged; rfl
  | some n =>
    simp only [optPanel, panelOf, Option.map_eq_some_iff] at judged
    obtain ⟨a, found, rfl⟩ := judged
    split at found
    · cases found
      simp only [Option.map_some, Fin.ofNat, Option.some.injEq]
      omega
    · exact nomatch found

theorem optKitchen_eq_none_iff {k : Option Nat} : optKitchen k = none ↔ ∃ n, k = some n ∧ 3 < n := by
  cases k with
  | none => simp [optKitchen]
  | some n => simp [optKitchen, kitchenOf]; omega

theorem val_of_optKitchen {k : Option Nat} {x : Option Kitchen} (judged : optKitchen k = some x) : x.map Fin.val = k := by
  cases k with
  | none => cases judged; rfl
  | some n =>
    simp only [optKitchen, kitchenOf, Option.map_eq_some_iff] at judged
    obtain ⟨a, found, rfl⟩ := judged
    split at found
    · cases found
      rfl
    · exact nomatch found

theorem roomParam_judge_eq_none_iff {q : RoomParam} :
    RoomParam.judge q = none ↔ 15 < q.bldg ∨ 4095 < q.travel ∨ (∃ n, q.panel = some n ∧ 127 < n) ∨
      ∃ n, (q.k1 = some n ∨ q.k2 = some n) ∧ 3 < n := by
  have kitchens : (∃ n, (q.k1 = some n ∨ q.k2 = some n) ∧ 3 < n) ↔ optKitchen q.k1 = none ∨ optKitchen q.k2 = none := by
    simp only [optKitchen_eq_none_iff, ← exists_or, or_and_right]
  have travel : 4095 < q.travel ↔ 4096 ≤ q.travel := Iff.rfl
  rw [kitchens, ← optPanel_eq_none_iff, travel]
  cases hp : optPanel q.panel <;> cases h1 : optKitchen q.k1 <;> cases h2 : optKitchen q.k2 <;>
    simp [RoomParam.judge, hp, h1, h2]
  omega

theorem roomParam_judge_eq_some {q : RoomParam} {x : RoomRec} (judged : RoomParam.judge q = some x) :
    x.cap = q.cap ∧ x.bldg = q.bldg ∧ x.label = q.label ∧ x.panel.map (fun a => a.line.val * 32 + a.addr.val) = q.panel ∧
      x.k1.map Fin.val = q.k1 ∧ x.k2.map Fin.val = q.k2 ∧ ∀ b : Fin 4, x.travel[b] = q.travel / 8 ^ b.val % 8 := by
  simp only [RoomParam.judge, Option.bind_eq_bind, Option.bind_eq_some_iff] at judged
  obtain ⟨panel, hp, k1, h1, k2, h2, last⟩ := judged
  split at last
  · exact nomatch last
  · cases last
    refine ⟨rfl, rfl, rfl, octet_of_optPanel hp, val_of_optKitchen h1, val_of_optKitchen h2, fun b => ?_⟩
    fin_cases b
    · exact congrArg (· % 8) (Nat.div_one _).symm
    · rfl
    · rfl
    · rfl

/-! ## STAGE_ZONES -/

theorem fiveAttrs_of_toList {as : List (ZoneAttr × Nat)} {attrs : Vector ZoneAttr 5} (five : attrs.toList = as.map Prod.fst) :
    fiveAttrs as = some (attrs, (as.map Prod.snd).sum) := by
  have length : as.length = 5 := by simpa using (congrArg List.length five).symm
  match as, length with
  | [a, b, c, d, e], _ =>
    have same : attrs = #v[a.1, b.1, c.1, d.1, e.1] := by
      apply Vector.toList_inj.mp
      simpa using five
    simp [fiveAttrs, same, Nat.add_assoc]

section
variable {q : Asker} {s : State} {a : ZonesArg}

theorem stageZonesWork_unset (rollover : a.method = 1) (unset : s.clockSet .rzt = false) :
    stageZonesWork q a s = reply q .clockUnset [] s := if_pos (by simp [rollover, unset])

theorem stageZonesWork_bad (set : a.method = 1 → s.clockSet .rzt = true)
    (bad : a.method = 0 ∨ 2 < a.method ∨ 128 < a.b1 ∨ 128 < a.b2 ∨ 128 < a.b3 ∨ 128 < a.b4 ∨ ∃ x ∈ a.attrs, ZoneParam.judge x = none) :
    stageZonesWork q a s = reply q .badParam [] s := by
  unfold stageZonesWork
  rw [if_neg (by simpa using set)]
  split
  · next m _ _ named judged =>
    refine if_pos ?_
    have sound : ¬∃ x ∈ a.attrs, ZoneParam.judge x = none := fun refused => by simp [judgeAll_eq_none refused] at judged
    have known : ¬2 < a.method := fun unknown => by simp [methodOf_eq_none_iff.mpr unknown] at named
    have immediate : a.method = 0 → m = .immediate := fun zero => by rw [zero] at named; cases named; rfl
    simp only [Bool.or_eq_true, decide_eq_true_eq]
    obtain h | h | h | h | h | h | h := bad
    exacts [.inl (.inl (.inl (.inl (immediate h)))), absurd h known, .inl (.inl (.inl (.inr h))), .inl (.inl (.inr h)), .inl (.inr h), .inr h,
      absurd h sound]
  · rfl

theorem stageZonesWork_good {as : List (ZoneAttr × Nat)} {attrs : Vector ZoneAttr 5} (set : a.method = 1 → s.clockSet .rzt = true)
    (named : a.method = 1 ∨ a.method = 2) (h1 : a.b1 ≤ 128) (h2 : a.b2 ≤ 128) (h3 : a.b3 ≤ 128) (h4 : a.b4 ≤ 128)
    (judged : a.attrs.map ZoneParam.judge = as.map some) (five : attrs.toList = as.map Prod.fst) :
    stageZonesWork q a s =
      if a.b1 ≤ a.b2 ∧ a.b2 ≤ a.b3 ∧ a.b3 ≤ a.b4 then
        reply q .ok (e1 (as.map Prod.snd).sum) (s.setRzt
          { s.rzt with
            stagedZones := { b1 := a.b1, b2 := a.b2, b3 := a.b3, b4 := a.b4, attrs := attrs }
            zoneMethod := if a.method = 1 then .rollover else .apply })
      else reply q .stageInvalid [] s := by
  have known : ∃ m, methodOf a.method = some m ∧ m ≠ .immediate ∧ m.pend = if a.method = 1 then .rollover else .apply := by
    obtain h | h := named
    · exact ⟨.rollover, by rw [h]; rfl, by decide, by rw [if_pos h]; rfl⟩
    · exact ⟨.apply, by rw [h]; rfl, by decide, by rw [if_neg (by omega)]; rfl⟩
  obtain ⟨m, method, later, pend⟩ := known
  unfold stageZonesWork
  rw [if_neg (by simpa using set), method, judgeAll_eq_some judged, Option.bind_some, fiveAttrs_of_toList five]
  dsimp only
  rw [if_neg (by simp only [Bool.or_eq_true, decide_eq_true_eq, later, false_or]; omega), pend]
  by_cases order : a.b1 ≤ a.b2 ∧ a.b2 ≤ a.b3 ∧ a.b3 ≤ a.b4
  · rw [if_pos order, if_neg (by simp; omega)]
  · rw [if_neg order, if_pos (by simp; omega)]

end

/-! ## STAGE_KITCHEN -/

section
variable {q : Asker} {s : State} {first method : Nat} {recs : List KitchenParam}

theorem stageKitchenWork_unset (rollover : method = 1) (unset : s.clockSet .kpl = false) :
    stageKitchenWork q (first, recs, method) s = reply q .clockUnset [] s := if_pos (by simp [rollover, unset])

theorem stageKitchenWork_bad (set : method = 1 → s.clockSet .kpl = true)
    (bad : 3 < first ∨ recs = [] ∨ 4 < recs.length ∨ 4 < first + recs.length ∨ 2 < method ∨ ∃ x ∈ recs, KitchenParam.judge x = none) :
    stageKitchenWork q (first, recs, method) s = reply q .badParam [] s := by
  unfold stageKitchenWork
  dsimp only
  rw [if_neg (by simpa using set)]
  split
  · rfl
  · next inRange =>
    have refused : judgeAll KitchenParam.judge recs = none ∨ methodOf method = none := by
      simp only [Bool.or_eq_true, decide_eq_true_eq, List.length_eq_zero_iff, not_or] at inRange
      obtain ⟨⟨⟨hf, hr⟩, hn⟩, hl⟩ := inRange
      obtain h | h | h | h | h | h := bad
      exacts [absurd h hf, absurd h hr, absurd h hn, absurd h hl, .inr (methodOf_eq_none_iff.mpr h), .inl (judgeAll_eq_none h)]
    split
    · next named judged => simp [judged, named] at refused
    · rfl

theorem stageKitchenWork_good (hf : first ≤ 3) (hn : 1 ≤ recs.length) (hm : recs.length ≤ 4) (hl : first + recs.length ≤ 4)
    (set : method = 1 → s.clockSet .kpl = true) {rs : List (KitchenRec × Nat)} {m : Method} (named : methodOf method = some m)
    (judged : recs.map KitchenParam.judge = rs.map some) :
    stageKitchenWork q (first, recs, method) s =
      (let u := s.setKpl { s.kpl with staged := writeFrom s.kpl.staged first (rs.map Prod.fst), method := m.pend }
       let clamped := e1 (rs.map Prod.snd).sum
       if m = .immediate then reply q .ok (clamped ++ e1 (changedKitchens u).length) (kitchenApply u.kplDay u.kplBucket u)
       else reply q .ok clamped u) := by
  unfold stageKitchenWork
  dsimp only
  rw [if_neg (by simpa using set), if_neg (by simp only [Bool.or_eq_true, decide_eq_true_eq]; omega), judgeAll_eq_some judged, named,
    ← foldl_add_eq_sum]

end

section
variable {p : Port} {h : HandedRequest} {rest : List HandedRequest} {s : State} (asks : s.asks p h rest)
include asks

theorem exec_stageRooms_of_asks {first method : Nat} {recs : List RoomParam} (req : h.req = .stageRooms first recs method) :
    exec (.stageRooms p) s = .next (stageRoomsWork (h.asker p) (first, recs, method) (s.took p rest)) :=
  exec_of_asks rfl asks (by rw [req])

theorem exec_stageZones_of_asks {b1 b2 b3 b4 method : Nat} {prms : List ZoneParam} (req : h.req = .stageZones b1 b2 b3 b4 prms method) :
    exec (.stageZones p) s = .next (stageZonesWork (h.asker p) ⟨b1, b2, b3, b4, prms, method⟩ (s.took p rest)) :=
  exec_of_asks rfl asks (by rw [req])

theorem exec_stageKitchen_of_asks {first method : Nat} {recs : List KitchenParam} (req : h.req = .stageKitchen first recs method) :
    exec (.stageKitchen p) s = .next (stageKitchenWork (h.asker p) (first, recs, method) (s.took p rest)) :=
  exec_of_asks rfl asks (by rw [req])

end

/-! ## Clamping -/

theorem zoneParam_judge_eq_none_iff {q : ZoneParam} :
    ZoneParam.judge q = none ↔ 1 < q.kind ∨ 7 < q.bookers ∨ 1 < q.autorelease ∨ 1 < q.presenceCheckin ∨ 1 < q.badgeOnly := by
  unfold ZoneParam.judge
  split <;> simp_all

theorem zoneParam_judge_eq_some {q : ZoneParam} {x : ZoneAttr} {n : Nat} (judged : ZoneParam.judge q = some (x, n)) :
    let moved (a b : Nat) : Nat := if a = b then 0 else 1
    x = { kind := if q.kind = 0 then .pooled else .named
          bookers := ⟨q.bookers.testBit 0, q.bookers.testBit 1, q.bookers.testBit 2⟩
          e := min q.e 6, g := max 1 (min q.g 6), h := if q.h = 1 then 2 else min q.h 12, autorelease := q.autorelease = 1,
          presenceCheckin := q.presenceCheckin = 1, badgeOnly := q.badgeOnly = 1, w := min q.w 15 } ∧
      n = moved x.e q.e + moved x.g q.g + moved x.h q.h + moved x.w q.w := by
  intro moved
  unfold ZoneParam.judge at judged
  split at judged
  · exact nomatch judged
  · have g : (if q.g = 0 then 1 else min q.g 6) = max 1 (min q.g 6) := by split <;> omega
    cases judged
    exact ⟨by rw [← g], rfl⟩

theorem kitchenParam_judge_eq_none_iff {q : KitchenParam} : KitchenParam.judge q = none ↔ 1 < q.enabled := by
  unfold KitchenParam.judge
  split <;> simp_all

theorem kitchenParam_judge_eq_some {q : KitchenParam} {x : KitchenRec} {n : Nat} (judged : KitchenParam.judge q = some (x, n)) :
    let moved (a b : Nat) : Nat := if a = b then 0 else 1
    x = { capb := q.capb, lead := max 1 (min q.lead 16), lateMargin := max 1 (min q.lateMargin 6), enabled := q.enabled = 1 } ∧
      n = moved x.lead q.lead + moved x.lateMargin q.lateMargin := by
  unfold KitchenParam.judge at judged
  split at judged
  · exact nomatch judged
  · cases judged
    exact ⟨rfl, rfl⟩

/-- Settles O15: each staging request by its checks, the records written by `writeFrom_get`, and the shared panel by
`panelConflict_eq_some_iff`. -/
theorem stagingWritesTheStagedCopies : Obligations.StagingWritesTheStagedCopies := by
  refine ⟨⟨rfl, rfl, rfl, fun n => methodOf_eq_none_iff.mpr, rfl, rfl, rfl⟩, fun p h rest s first method recs asks req => ?_,
    fun q => ⟨roomParam_judge_eq_none_iff, fun _ => roomParam_judge_eq_some⟩,
    fun p h rest s b1 b2 b3 b4 method prms asks req => ?_,
    fun q => ⟨zoneParam_judge_eq_none_iff, fun _ _ => zoneParam_judge_eq_some⟩,
    fun p h rest s first method recs asks req => ?_, fun s w waits done => ⟨?_, ?_⟩,
    fun q => ⟨kitchenParam_judge_eq_none_iff, fun _ _ => kitchenParam_judge_eq_some⟩⟩
  · have run := exec_stageRooms_of_asks asks req
    refine ⟨fun rollover unset => ?_, fun set => ⟨fun bad => ?_, fun rs m hf hn hm hl named judged => ?_⟩⟩
    · rw [run, stageRoomsWork_unset (s := s.took p rest) rollover unset]
      rfl
    · rw [run, stageRoomsWork_bad (s := s.took p rest) set bad]
      rfl
    · intro staged among shares u diff
      have asc : among.Pairwise (· < ·) := (pairwise_finRange 128).filter _
      have work := stageRoomsWork_good (q := h.asker p) (s := s.took p rest) hf hn hm hl set named judged
      refine ⟨writeFrom_get rs _ first, fun a b => panelConflict_eq_some_iff asc, panelConflict_eq_none_iff, fun a b conflict => ?_,
        fun apart later => ?_, fun apart immediate => ?_⟩
      · rw [run, work]
        change Outcome.next (match panelConflict staged among with | some (a, b) => _ | none => _) = _
        rw [conflict]
        rfl
      · rw [run, work]
        change Outcome.next (match panelConflict staged among with | some (a, b) => _ | none => _) = _
        rw [apart]
        exact congrArg Outcome.next (if_neg later)
      · rw [run, work]
        change Outcome.next (match panelConflict staged among with | some (a, b) => _ | none => _) = _
        rw [apart]
        exact congrArg Outcome.next (if_pos immediate)
  · have run := exec_stageZones_of_asks asks req
    refine ⟨fun rollover unset => ?_, fun set => ⟨fun bad => ?_, fun as attrs named h1 h2 h3 h4 judged five => ?_⟩⟩
    · rw [run, stageZonesWork_unset (s := s.took p rest) rollover unset]
      rfl
    · rw [run, stageZonesWork_bad (s := s.took p rest) set bad]
      rfl
    · have work := stageZonesWork_good (q := h.asker p) (s := s.took p rest) (a := ⟨b1, b2, b3, b4, prms, method⟩) set named h1 h2 h3 h4
        judged five
      refine ⟨fun order => ?_, fun h12 h23 h34 => ?_⟩
      · rw [run, work]
        exact congrArg Outcome.next (if_neg order)
      · rw [run, work]
        exact congrArg Outcome.next (if_pos ⟨h12, h23, h34⟩)
  · have run := exec_stageKitchen_of_asks asks req
    refine ⟨fun rollover unset => ?_, fun set => ⟨fun bad => ?_, fun rs m hf hn hm hl named judged => ?_⟩⟩
    · rw [run, stageKitchenWork_unset (s := s.took p rest) rollover unset]
      rfl
    · rw [run, stageKitchenWork_bad (s := s.took p rest) set bad]
      rfl
    · intro staged clamped u
      have work := stageKitchenWork_good (q := h.asker p) (s := s.took p rest) hf hn hm hl set named judged
      refine ⟨writeFrom_get _ _ first, fun later => ?_, fun immediate => ?_⟩
      · rw [run, work]
        exact congrArg Outcome.next (if_neg later)
      · rw [run, work]
        exact congrArg Outcome.next (if_pos immediate)
  · rw [settleConfig_answers]
    refine List.mem_append_right _ (List.mem_map.mpr ⟨w, List.mem_filter.mpr ⟨waits, ?_⟩, rfl⟩)
    simpa using configWait_ready_iff.mpr done
  · rw [settleConfig_rzt]
    simp [configWait_ready_iff.mpr done]

end Sys2Proof.Machine

/-! PROOFS. The book's records: entries in their schedules, reads, allocation and freeing. -/

namespace Sys2Proof.Machine

open Host

/-! ## Searches -/

theorem zip_finRange_toList {α : Type} {n : Nat} (v : Vector α n) :
    (List.finRange n).zip v.toList = (List.finRange n).map (fun i => (i, v[i])) := by
  apply List.ext_getElem <;> simp

theorem firstIx_eq {α : Type} {n : Nat} (p : α → Bool) (v : Vector α n) : firstIx p v = (List.finRange n).find? (fun i => p v[i]) := by
  unfold firstIx
  rw [zip_finRange_toList, List.find?_map, Option.map_map]
  exact Option.map_id_apply

theorem firstIx_eq_some_iff {α : Type} {n : Nat} {p : α → Bool} {v : Vector α n} {i : Fin n} :
    firstIx p v = some i ↔ p v[i] = true ∧ ∀ j, j < i → p v[j] = false := by
  rw [firstIx_eq, find?_eq_some_iff_of_ascending (pairwise_finRange n)]
  simp only [List.mem_finRange, true_and, forall_true_left]
  refine and_congr_right fun _ => forall_congr' fun j => ?_
  rw [← not_lt, ← Bool.not_eq_true]
  exact ⟨fun first below meets => first meets below, fun first meets below => first below meets⟩

theorem firstIx_eq_none_iff {α : Type} {n : Nat} {p : α → Bool} {v : Vector α n} : firstIx p v = none ↔ ∀ i : Fin n, p v[i] = false := by
  simp [firstIx_eq]

theorem freeIndex_eq_some_iff {s : State} {i : BookIx} :
    s.freeIndex = some i ↔ (s.bookRec i).life = .free ∧ ∀ j, j < i → (s.bookRec j).life ≠ .free := by
  unfold State.freeIndex
  rw [firstIx_eq_some_iff]
  simp only [decide_eq_true_eq, decide_eq_false_iff_not]
  rfl

theorem freeIndex_eq_none_iff {s : State} : s.freeIndex = none ↔ ∀ i, (s.bookRec i).life ≠ .free := by
  unfold State.freeIndex
  rw [firstIx_eq_none_iff]
  simp only [decide_eq_false_iff_not]
  rfl

/-! ## The entry of a record -/

/-- Whether an entry is the record entry, not the claim entry, of an index. -/
abbrev Entry.isOf (e : Entry) (i : BookIx) : Prop := e.index = i ∧ e.summary ≠ .claim

theorem isOf_iff {e : Entry} {i : BookIx} : (decide (e.index = i) && e.summary != .claim) = true ↔ e.isOf i := by simp

theorem entryOf_eq (i : BookIx) (s : State) :
    s.entryOf i = (List.finRange 128).findSome? (fun r => ((s.schedule r).find? (fun e => decide (e.isOf i))).map (fun e => (r, e))) := by
  unfold State.entryOf
  rw [zip_finRange_toList, List.findSome?_map]
  simp only [Function.comp_def]
  congr 1
  funext r
  congr 2
  funext e
  rw [Bool.eq_iff_iff, isOf_iff, decide_eq_true_iff]

/-- The entry found stands in the first room whose schedule holds one of the record, and is the first of it there. -/
theorem entryOf_eq_some_iff {s : State} {i : BookIx} {r : Room} {e : Entry} :
    s.entryOf i = some (r, e) ↔
      (s.schedule r).find? (fun e => decide (e.isOf i)) = some e ∧ ∀ r', r' < r → ∀ x ∈ s.schedule r', ¬x.isOf i := by
  rw [entryOf_eq, findSome?_eq_some_iff_of_ascending (pairwise_finRange 128)]
  simp only [List.mem_finRange, true_and, forall_true_left, Option.map_eq_some_iff, Option.map_eq_none_iff, List.find?_eq_none,
    decide_eq_true_eq, Prod.mk.injEq]
  constructor
  · rintro ⟨_, ⟨_, found, rfl, rfl⟩, first⟩
    exact ⟨found, first⟩
  · rintro ⟨found, first⟩
    exact ⟨r, ⟨e, found, rfl, rfl⟩, first⟩

theorem entryOf_eq_none_iff {s : State} {i : BookIx} : s.entryOf i = none ↔ ∀ r, ∀ e ∈ s.schedule r, ¬e.isOf i := by
  rw [entryOf_eq]
  simp

theorem entryOf_mem {s : State} {i : BookIx} {r : Room} {e : Entry} (found : s.entryOf i = some (r, e)) :
    e ∈ s.schedule r ∧ e.isOf i := by
  obtain ⟨here, -⟩ := entryOf_eq_some_iff.mp found
  exact ⟨List.mem_of_find?_eq_some here, by simpa using List.find?_some here⟩

theorem roomOf_of_entry {s : State} {i : BookIx} {r : Room} {e : Entry} (found : s.entryOf i = some (r, e)) : s.roomOf i = r := by
  simp [State.roomOf, found]

theorem ownerOf_of_entry {s : State} {i : BookIx} {r : Room} {e : Entry} (found : s.entryOf i = some (r, e)) : s.ownerOf i = e.owner := by
  simp [State.ownerOf, found]

/-! ## An entry changed -/

theorem insertEntry_perm (e : Entry) (es : List Entry) : (insertEntry e es).Perm (e :: es) := by
  induction es with
  | nil => exact .refl _
  | cons x xs ih =>
    simp only [insertEntry]
    split
    · exact .refl _
    · exact (ih.cons x).trans (.swap e x xs)

theorem insertAll_perm (f : Entry → Entry) (new es : List Entry) : (new.foldl (fun es e => insertEntry (f e) es) es).Perm (new.map f ++ es) := by
  induction new generalizing es with
  | nil => exact .refl _
  | cons e new ih =>
    refine (ih (insertEntry (f e) es)).trans ?_
    exact ((insertEntry_perm (f e) es).append_left _).trans List.perm_middle

theorem map_filter_append_perm {α : Type} (p : α → Bool) (f : α → α) (l : List α) :
    ((l.filter p).map f ++ l.filter (fun x => !p x)).Perm (l.map (fun x => if p x then f x else x)) := by
  induction l with
  | nil => exact .refl _
  | cons x xs ih =>
    by_cases here : p x = true
    · simpa [here] using ih
    · simp only [here, List.map_cons, Bool.false_eq_true, if_false, List.filter_cons_of_neg, not_false_eq_true, Bool.not_false,
        List.filter_cons_of_pos]
      exact List.perm_middle.trans (ih.cons x)

section
variable (r : Room) (i : BookIx) (f : Entry → Entry) (s : State)

theorem changeEntry_schedule_perm :
    ((changeEntry r i f s).schedule r).Perm ((s.schedule r).map (fun e => if e.isOf i then f e else e)) := by
  unfold changeEntry
  rw [setSchedule_schedule_same]
  refine (insertAll_perm f _ _).trans ((map_filter_append_perm _ f (s.schedule r)).trans (List.Perm.of_eq (List.map_congr_left fun e _ => ?_)))
  simp only [isOf_iff]

theorem changeEntry_schedule_other {r' : Room} (other : r' ≠ r) : (changeEntry r i f s).schedule r' = s.schedule r' :=
  setSchedule_schedule_other other _ _

theorem changeEntry_book : (changeEntry r i f s).book = { s.book with schedules := (changeEntry r i f s).book.schedules } := rfl

theorem changeEntry_wires : (changeEntry r i f s).wires = { s.wires with sched := s.wires.sched ++ [r] } := rfl

theorem only_changeEntry_self : Only [.book, .wires] s (changeEntry r i f s) := (only_changeEntry (by decide) (by decide)).mpr (.refl _ _)

end

/-- Summaries rewritten to one that is no claim leave each record in its room. -/
theorem setSummary_roomOf {x : Summary} (noClaim : x ≠ .claim) (i : BookIx) (s : State) : (setSummary i x s).roomOf i = s.roomOf i := by
  have mem {e : Entry} : e ∈ (setSummary i x s).schedule (s.roomOf i) ↔
      ∃ e' ∈ s.schedule (s.roomOf i), (if e'.isOf i then { e' with summary := x } else e') = e := by
    rw [← List.mem_map]
    exact (changeEntry_schedule_perm (s.roomOf i) i _ s).mem_iff
  have holds : (∃ e ∈ (setSummary i x s).schedule (s.roomOf i), e.isOf i) ↔ ∃ e ∈ s.schedule (s.roomOf i), e.isOf i := by
    constructor
    · rintro ⟨e, here, mine⟩
      obtain ⟨e', there, rfl⟩ := mem.mp here
      by_cases was : e'.isOf i
      · exact ⟨e', there, was⟩
      · rw [if_neg was] at mine
        exact absurd mine was
    · rintro ⟨e, here, mine⟩
      exact ⟨{ e with summary := x }, mem.mpr ⟨e, here, if_pos mine⟩, mine.1, noClaim⟩
  have others {r : Room} (other : r ≠ s.roomOf i) : (setSummary i x s).schedule r = s.schedule r := changeEntry_schedule_other _ _ _ _ other
  cases found : s.entryOf i with
  | some y =>
    obtain ⟨r, e⟩ := y
    have room := roomOf_of_entry found
    obtain ⟨here, first⟩ := entryOf_eq_some_iff.mp found
    rw [room] at holds others
    obtain ⟨e', there, mine⟩ := holds.mpr ⟨e, entryOf_mem found⟩
    cases found' : ((setSummary i x s).schedule r).find? (fun e => decide (e.isOf i)) with
    | none => exact absurd mine (by simpa using List.find?_eq_none.mp found' e' there)
    | some e'' =>
      rw [room]
      exact roomOf_of_entry (entryOf_eq_some_iff.mpr ⟨found', fun r' below => by rw [others below.ne]; exact first r' below⟩)
  | none =>
    have nowhere := entryOf_eq_none_iff.mp found
    have still : (setSummary i x s).entryOf i = none := entryOf_eq_none_iff.mpr fun r e mem mine => by
      by_cases same : r = s.roomOf i
      · subst same
        obtain ⟨e', there, was⟩ := holds.mp ⟨e, mem, mine⟩
        exact nowhere _ e' there was
      · rw [others same] at mem
        exact nowhere r e mem mine
    simp only [State.roomOf, still, found]
    rfl

/-! ## Reads of bodies (03 R62) -/

theorem readBody_corrected {i : BookIx} {s : State} (one : (s.bookRec i).body.faults = 1) :
    readBody i s =
      (some { (s.bookRec i).body with faults := 0 }, s.setBook
        { s.book with
          records := put s.book.records i { s.bookRec i with body := { (s.bookRec i).body with faults := 0 } }
          corrected := min (s.book.corrected + 1) 65535 }) := by
  unfold readBody
  dsimp only
  rw [if_neg (by omega), if_pos one]
  rfl

theorem readBody_damaged {i : BookIx} {s : State} (two : 2 ≤ (s.bookRec i).body.faults) : readBody i s = (none, damage i s) := by
  unfold readBody
  dsimp only
  rw [if_neg (by omega), if_neg (by omega)]

@[simp] theorem setRec_bookRec_same (i : BookIx) (x : BookRec) (s : State) : (setRec i x s).bookRec i = x := put_get_same _ _ _

theorem setRec_bookRec_other {i j : BookIx} (other : j ≠ i) (x : BookRec) (s : State) : (setRec i x s).bookRec j = s.bookRec j :=
  put_get_other _ _ other.symm

@[simp] theorem setRec_entryOf (i j : BookIx) (x : BookRec) (s : State) : (setRec i x s).entryOf j = s.entryOf j := rfl

@[simp] theorem setSummary_bookRec (i j : BookIx) (x : Summary) (s : State) : (setSummary i x s).bookRec j = s.bookRec j := rfl

/-- A record's life and links changed, its body kept: its room is the same. -/
theorem setRec_roomOf {i : BookIx} {x : BookRec} {s : State} (body : x.body = (s.bookRec i).body) : (setRec i x s).roomOf i = s.roomOf i := by
  simp [State.roomOf, body]

/-- The trap takes an index if it is empty. -/
theorem damage_eq (i : BookIx) (s : State) :
    let t := setSummary i .damaged (setRec i { s.bookRec i with life := .damaged } s)
    damage i s = recordNotice .recordDamaged i (if s.book.trap = none then 1 else 0) none
      (t.setBook { t.book with trap := s.book.trap.or (some i) }) := by
  intro t
  have kept : t.book.trap = s.book.trap := rfl
  unfold damage
  cases trap : s.book.trap with
  | none => rfl
  | some j =>
    have stands : t.setBook { t.book with trap := some j } = t := by rw [← trap, ← kept]; rfl
    dsimp only
    rw [Option.isNone_some, if_neg (by simp), Option.some_or, stands, if_neg (by simp)]
    rfl

theorem damage_roomOf (i : BookIx) (s : State) : (damage i s).roomOf i = s.roomOf i := by
  rw [damage_eq]
  exact (setSummary_roomOf (by decide) i _).trans (setRec_roomOf rfl)

theorem damage_notices (i : BookIx) (s : State) :
    (damage i s).wires.notices = modAt s.wires.notices (producerIx .rbk) (· ++
      [{ note := { kind := .recordDamaged, date := s.now .rbk, booking := some (s.handle i), order := (s.bookRec i).order,
                   room := some (s.roomOf i), panel := none, detail := if s.book.trap = none then 1 else 0 },
         dated := true, owner := ((damage i s).ownerOf i).port?, cause := none }]) := by
  have room := damage_roomOf i s
  rw [damage_eq] at room ⊢
  let t := setSummary i .damaged (setRec i { s.bookRec i with life := .damaged } s)
  have same : (t.setBook { t.book with trap := s.book.trap.or (some i) }).roomOf i = s.roomOf i := room
  have mine : (t.setBook { t.book with trap := s.book.trap.or (some i) }).bookRec i = { s.bookRec i with life := .damaged } :=
    setRec_bookRec_same i { s.bookRec i with life := .damaged } s
  have handle : (t.setBook { t.book with trap := s.book.trap.or (some i) }).handle i = s.handle i := by
    unfold State.handle
    rw [mine]
  have order : ((t.setBook { t.book with trap := s.book.trap.or (some i) }).bookRec i).order = (s.bookRec i).order := by
    rw [mine]
  unfold recordNotice
  rw [same, handle, order]
  rfl

/-! ## Freeing (03 R37) -/

theorem freeRecord_eq (i : BookIx) (kind : NoticeKind) (detail : Nat) (cause : Option Port) (s : State) :
    freeRecord i kind detail cause s =
      ((s.setBook
        { s.book with
          records := put s.book.records i (BookRec.blank ((s.bookRec i).gen + 1))
          schedules := put s.book.schedules (s.roomOf i) ((s.schedule (s.roomOf i)).filter (fun e => e.index != i)) }).setWires
        { s.wires with
          sched := s.wires.sched ++ [s.roomOf i]
          toPlanner := s.wires.toPlanner ++ ((s.bookRec i).order.toList.map (fun o => .bookingLeft (s.handle i) o))
          notices := modAt s.wires.notices (producerIx .rbk) (· ++
            [{ note := { kind := kind, date := s.now .rbk, booking := some (s.handle i), order := none, room := some (s.roomOf i),
                         panel := none, detail := detail },
               dated := true, owner := (s.ownerOf i).port?, cause := cause }]) }) := by
  unfold freeRecord
  dsimp only
  cases (s.bookRec i).order with
  | none =>
    simp only [Option.toList_none, List.map_nil, List.append_nil]
    rfl
  | some o => rfl

/-- Settles O22: the laws of reading, allocating, changing and freeing, each proved once above. -/
theorem recordsAreReadAllocatedAndFreed : Obligations.RecordsAreReadAllocatedAndFreed := by
  refine ⟨fun i s => ⟨readBody_sound, readBody_corrected, fun two => ?_⟩, fun i s => ⟨fun r e found => ?_, fun r e mem index summary none => ?_⟩,
    fun s => ⟨freeIndex_eq_none_iff, fun i => freeIndex_eq_some_iff⟩, fun r i f x s => ?_, ⟨rfl, fun _ => rfl⟩, fun kind i detail cause s => rfl,
    fun i b s => ?_, fun i kind detail cause s => ?_⟩
  · refine ⟨damage i s, readBody_damaged two, ?_⟩
    have records : (damage i s).book.records = put s.book.records i { s.bookRec i with life := .damaged } := by rw [damage_eq]; rfl
    have mine : (damage i s).bookRec i = { s.bookRec i with life := .damaged } := by
      unfold State.bookRec
      rw [records]
      exact put_get_same _ _ _
    have schedules (r : Room) : (damage i s).schedule r = (changeEntry (s.roomOf i) i (fun e => { e with summary := .damaged })
        (setRec i { s.bookRec i with life := .damaged } s)).schedule r := by
      rw [damage_eq, ← setRec_roomOf (x := { s.bookRec i with life := .damaged }) rfl]
      rfl
    refine ⟨by rw [mine], by rw [mine], by rw [mine], fun j other => ?_, by rw [damage_eq]; rfl, by rw [damage_eq]; rfl, ?_, fun r other => ?_,
      ?_, damage_notices i s, (only_damage (by decide) (by decide)).mpr (.refl _ _)⟩
    · unfold State.bookRec
      rw [records]
      exact put_get_other _ _ other.symm
    · rw [schedules]
      exact changeEntry_schedule_perm _ _ _ _
    · rw [schedules]
      exact changeEntry_schedule_other _ _ _ _ other
    · rw [damage_eq, ← setRec_roomOf (x := { s.bookRec i with life := .damaged }) rfl]
      rfl
  · obtain ⟨mem, index, summary⟩ := entryOf_mem found
    exact ⟨mem, index, summary, roomOf_of_entry found, ownerOf_of_entry found⟩
  · exact entryOf_eq_none_iff.mp none r e mem ⟨index, summary⟩
  · refine ⟨changeEntry_schedule_perm r i f s, fun ordered => ?_, fun r' other => changeEntry_schedule_other r i f s other,
      changeEntry_book r i f s, changeEntry_wires r i f s, only_changeEntry_self r i f s, rfl⟩
    unfold changeEntry
    rw [setSchedule_schedule_same]
    exact ascending_insertAll _ (ordered.filter _)
  · refine ⟨rfl, fun r other => setSchedule_schedule_other other _ _, ?_, fun ordered => ?_, rfl,
      (only_allocate (by decide) (by decide)).mpr (.refl _ _)⟩
    · unfold allocate
      rw [setSchedule_schedule_same]
      exact insertEntry_perm _ _
    · unfold allocate
      rw [setSchedule_schedule_same]
      exact ascending_insertEntry _ ordered
  · exact ⟨by rw [freeRecord_eq]; rfl, by rw [freeRecord_eq]; rfl, (only_freeRecord (by decide) (by decide)).mpr (.refl _ _)⟩

end Sys2Proof.Machine

/-! PROOFS. The usage counters (04 R74 to R78), the round of the book's grant (03 R41), and requests that name a record in no state for
them (03 R36). -/

namespace Sys2Proof.Machine

open Host

/-! ## The reads of a count do not look at the counters, and change the book alone -/

theorem scrubOne_setPsl (i : BookIx) (s : State) (x : Psl) : scrubOne i (s.setPsl x) = (scrubOne i s).setPsl x := by
  have damaged : damage i (s.setPsl x) = (damage i s).setPsl x := by
    unfold damage
    dsimp only
    split
    · next empty => exact (if_pos empty).symm ▸ rfl
    · next full => exact (if_neg full).symm ▸ rfl
  have read : (readBody i (s.setPsl x)).2 = (readBody i s).2.setPsl x := by
    change (if (s.bookRec i).body.faults = 0 then _ else if (s.bookRec i).body.faults = 1 then _ else (none, damage i (s.setPsl x))).2 =
      (if (s.bookRec i).body.faults = 0 then _ else if (s.bookRec i).body.faults = 1 then _ else (none, damage i s)).2.setPsl x
    split_ifs
    · rfl
    · rfl
    · exact damaged
  unfold scrubOne
  change (if (s.bookRec i).life = .live then (readBody i (s.setPsl x)).2 else s.setPsl x) = _
  rw [read]
  split_ifs <;> rfl

theorem readForUsage_eq (s : State) (r : Room) : readForUsage s r =
    if s.ocu.presence[r] ≠ .occupied ∧ panelCondition s r = true then
      ((s.schedule r).find? (fun e => e.summary = .active)).elim s (fun e => scrubOne e.index s)
    else s := by
  unfold readForUsage readAll
  simp only [Bool.and_eq_true, bne_iff_ne, ne_eq]
  split
  · cases (s.schedule r).find? (fun e => e.summary = .active) <;> rfl
  · rfl

theorem readForUsage_setPsl (s : State) (r : Room) (x : Psl) : readForUsage (s.setPsl x) r = (readForUsage s r).setPsl x := by
  rw [readForUsage_eq, readForUsage_eq]
  change (if s.ocu.presence[r] ≠ .occupied ∧ panelCondition s r = true then
    ((s.schedule r).find? (fun e => e.summary = .active)).elim (s.setPsl x) (fun e => scrubOne e.index (s.setPsl x))
    else s.setPsl x) = _
  split
  · cases (s.schedule r).find? (fun e => e.summary = .active) with
    | none => rfl
    | some e => exact scrubOne_setPsl e.index s x
  · rfl

theorem foldl_readForUsage_setPsl (rooms : List Room) (s : State) (x : Psl) :
    rooms.foldl readForUsage (s.setPsl x) = (rooms.foldl readForUsage s).setPsl x := by
  induction rooms generalizing s with
  | nil => rfl
  | cons r rooms ih => rw [List.foldl_cons, List.foldl_cons, readForUsage_setPsl, ih]

theorem foldl_readForUsage_recomposed (rooms : List Room) (s : State) : Recomposed s (rooms.foldl readForUsage s) := by
  refine Recomposed.foldl (fun s r => ?_) rooms s
  rw [readForUsage_eq]
  split
  · cases (s.schedule r).find? (fun e => e.summary = .active) with
    | none => exact .refl s
    | some e => exact scrubOne_recomposed _ s
  · exact .refl s

theorem foldl_readForUsage_only (rooms : List Room) (s : State) : Only [.book, .wires] s (rooms.foldl readForUsage s) :=
  (only_foldl _ (fun _ _ => only_readForUsage (by decide) (by decide)) _ _).mpr (.refl _ _)

theorem readForUsage_sound {s : State} {r : Room} (sound : ∀ e ∈ s.schedule r, e.summary = .active → (s.bookRec e.index).body.faults = 0) :
    readForUsage s r = s := by
  rw [readForUsage_eq]
  split
  · cases found : (s.schedule r).find? (fun e => e.summary = .active) with
    | none => rfl
    | some e => exact scrubOne_sound fun _ => sound e (List.mem_of_find?_eq_some found) (by simpa using List.find?_some found)
  · rfl

theorem foldl_readForUsage_sound {s : State} (rooms : List Room)
    (sound : ∀ r : Room, ∀ e ∈ s.schedule r, e.summary = .active → (s.bookRec e.index).body.faults = 0) :
    rooms.foldl readForUsage s = s := by
  induction rooms with
  | nil => rfl
  | cons r rooms ih => rw [List.foldl_cons, readForUsage_sound (sound r), ih]

/-! ## The basis of a room's count (04 R74) -/

theorem panelCondition_iff {s : State} {r : Room} :
    panelCondition s r = true ↔ (s.roomRec r).panel = none ∨ s.panelOnline r = false ∨ s.pwc.sstate = .retain := by
  simp [panelCondition, or_assoc]

theorem basisOf_of_active {s : State} {r : Room} {e : Entry} (absent : s.ocu.presence[r] ≠ .occupied) (panel : panelCondition s r = true)
    (found : (s.schedule r).find? (fun x => x.summary = .active) = some e) :
    basisOf s r = if (s.bookRec e.index).body.unverified then .unverified else .booked := by
  unfold basisOf activeUnverified
  rw [if_neg absent, if_pos panel, found]
  rw [Option.map_some]
  unfold State.bookRec
  cases (s.book.records[e.index]).body.unverified <;> rfl

/-! ## PSL's tick (04 R77, R78) -/

/-- PSL as the halving of a tick leaves it. -/
def Psl.halvedAt (x : Psl) (c : Clock) : Psl :=
  if c.minute = 0 ∧ c.day % 7 = x.levelDay then { x with usage := mapV (· / 2) x.usage, lastHalved := some c.day } else x

/-- PSL as a count by the bases of `v` leaves it. -/
def Psl.countedBy (x : Psl) (v : State) : Psl :=
  { x with
    usage := tabulate (fun r => if basisOf v r = .none then x.usage[r] else satInc x.usage[r])
    basis := tabulate (basisOf v) }

theorem halvingDue_iff {s : State} {c : Clock} : halvingDue s c = true ↔ c.minute = 0 ∧ c.day % 7 = s.psl.levelDay := by
  unfold halvingDue Clock.isRollover Clock.weekday
  rw [Bool.and_eq_true, decide_eq_true_eq, decide_eq_true_eq]

theorem countUsage_setPsl (s : State) (x : Psl) : countUsage (s.setPsl x) =
    ((List.finRange 128).foldl readForUsage s).setPsl (x.countedBy ((List.finRange 128).foldl readForUsage s)) := by
  unfold countUsage
  rw [foldl_readForUsage_setPsl]
  generalize (List.finRange 128).foldl readForUsage s = v
  rfl

theorem pslTick_halved (c : Clock) (s : State) : (if halvingDue s c = true then halve c.day s else s) = s.setPsl (s.psl.halvedAt c) := by
  unfold Psl.halvedAt
  simp only [halvingDue_iff]
  split_ifs <;> rfl

theorem pslTick_slot {c : Clock} (slot : c.minute % 5 = 0) (s : State) : pslTick c s =
    ((List.finRange 128).foldl readForUsage s).setPsl
      ((s.psl.halvedAt c).countedBy ((List.finRange 128).foldl readForUsage s)) := by
  unfold pslTick
  rw [pslTick_halved, if_pos (by simpa [Clock.isSlotBoundary] using slot)]
  exact countUsage_setPsl s _

theorem pslTick_between {c : Clock} (between : c.minute % 5 ≠ 0) (s : State) : pslTick c s = s.setPsl (s.psl.halvedAt c) := by
  unfold pslTick
  rw [pslTick_halved, if_neg (by simpa [Clock.isSlotBoundary] using between)]

theorem only_ticked (s : State) (b : TimedBlock) (c : Clock) : Only [.times, .ctu, .wires] s (s.ticked b c) :=
  (only_setTime (by decide)).mpr ((only_popTime (by decide) (by decide)).mpr (.refl _ _))

/-- Settles O21: a tick halves the counters, then reads the bodies and counts, and the reads do not look at the counters. -/
theorem usageIsHalvedThenCounted : Obligations.UsageIsHalvedThenCounted := by
  refine ⟨fun s c head => ?_, fun s r => ?_⟩
  · intro due v
    have run : exec .usageCount s = .next (settleTime (pslTick c (s.ticked .psl c))) := exec_of_tick rfl head rfl
    have halving (d : due) : exec .levellingHalving s = .next (settleTime (pslTick c (s.ticked .psl c))) :=
      exec_of_tick rfl head (halvingDue_iff.mpr d)
    have read : Recomposed (s.ticked .psl c) v := foldl_readForUsage_recomposed _ _
    have only : Only [.book, .wires] (s.ticked .psl c) v := foldl_readForUsage_only _ _
    have usage (r : Room) : (s.psl.halvedAt c).usage[r] = if due then s.psl.usage[r] / 2 else s.psl.usage[r] := by
      unfold Psl.halvedAt
      split_ifs
      · exact mapV_get _ _ _
      · rfl
    have last : (s.psl.halvedAt c).lastHalved = if due then some c.day else s.psl.lastHalved := by
      unfold Psl.halvedAt
      split_ifs <;> rfl
    have level : (s.psl.halvedAt c).levelDay = s.psl.levelDay := by
      unfold Psl.halvedAt
      split_ifs <;> rfl
    have basis : (s.psl.halvedAt c).basis = s.psl.basis := by
      unfold Psl.halvedAt
      split_ifs <;> rfl
    have sound (h : ∀ r : Room, ∀ e ∈ s.schedule r, e.summary = .active → (s.bookRec e.index).body.faults = 0) :
        v.book = s.book ∧ ∀ r, basisOf v r = basisOf s r := by
      have same : v = s.ticked .psl c := foldl_readForUsage_sound _ h
      rw [same]
      exact ⟨rfl, fun _ => rfl⟩
    have touched : Only [.times, .psl, .ctu, .book, .wires] s (settleTime (pslTick c (s.ticked .psl c))) :=
      (only_settleTime (by decide) (by decide)).mpr
        ((only_pslTick (by decide) (by decide) (by decide)).mpr ((only_ticked s .psl c).mono (by decide)))
    have times : v.times = (s.ticked .psl c).times := only.agree .times (by decide)
    have time := read.wires_time
    refine ⟨_, run, halving, ?_⟩
    by_cases slot : c.minute % 5 = 0
    · have tick : pslTick c (s.ticked .psl c) = v.setPsl ((s.psl.halvedAt c).countedBy v) := pslTick_slot slot _
      clear_value v
      rw [tick] at touched ⊢
      refine ⟨?_, ?_, ?_, ?_, ?_, fun r => ⟨fun _ => ⟨?_, ?_⟩, fun no => absurd slot no⟩, sound, touched⟩
      · unfold State.timeOf
        rw [settleTime_times, State.setPsl_times, times]
        exact put_get_same _ _ _
      · rw [settleTime_wires_time, State.setPsl_wires, time]
        rfl
      · rw [settleTime_psl]
        exact level
      · rw [settleTime_psl]
        exact last
      · rw [settleTime_book, if_pos slot]
        rfl
      · rw [settleTime_psl]
        exact tabulate_get _ _
      · rw [settleTime_psl, ← usage]
        exact tabulate_get _ _
    · clear_value v
      rw [pslTick_between slot] at touched ⊢
      refine ⟨?_, ?_, ?_, ?_, ?_, fun r => ⟨fun yes => absurd yes slot, fun _ => ⟨?_, ?_⟩⟩, sound, touched⟩
      · unfold State.timeOf
        rw [settleTime_times]
        exact put_get_same _ _ _
      · rw [settleTime_wires_time]
        rfl
      · rw [settleTime_psl]
        exact level
      · rw [settleTime_psl]
        exact last
      · rw [settleTime_book, if_neg slot]
        rfl
      · rw [settleTime_psl]
        exact congrArg (·[r]) basis
      · rw [settleTime_psl]
        exact usage r
  · intro panel
    have cond : panelCondition s r = true ↔ panel := panelCondition_iff
    have unread (h : ¬(s.ocu.presence[r] ≠ .occupied ∧ panel)) : readForUsage s r = s := by
      rw [readForUsage_eq, if_neg (by rw [cond]; exact h)]
    refine ⟨fun occupied => ⟨if_pos occupied, unread fun both => both.1 occupied⟩, fun absent => ⟨fun no => ⟨?_, unread fun both => no both.2⟩,
      fun yes idle => ?_, fun yes e found => ⟨?_, basisOf_of_active absent (cond.mpr yes) found⟩⟩⟩
    · unfold basisOf
      rw [if_neg absent, if_neg (by rwa [cond])]
    · have nothing : (s.schedule r).find? (fun e => e.summary = .active) = none :=
        List.find?_eq_none.mpr fun e mem => by simpa using idle e mem
      refine ⟨?_, ?_⟩
      · unfold basisOf activeUnverified
        rw [if_neg absent, if_pos (cond.mpr yes), nothing]
        rfl
      · rw [readForUsage_eq, nothing]
        exact ite_self _
    · rw [readForUsage_eq, if_pos ⟨absent, cond.mpr yes⟩, found]
      rfl

/-! ## The book's grant goes round (03 R41) -/

theorem find?_ofFn_eq_some_iff {α : Type} {n : Nat} {f : Fin n → α} {q : α → Bool} {x : α} :
    (List.ofFn f).find? q = some x ↔ ∃ d, x = f d ∧ q x = true ∧ ∀ d' < d, q (f d') = false := by
  rw [List.find?_eq_some_iff_getElem]
  constructor
  · rintro ⟨holds, i, lt, is, before⟩
    rw [List.length_ofFn] at lt
    refine ⟨⟨i, lt⟩, by simpa using is.symm, holds, fun d' less => ?_⟩
    simpa using before d'.val less
  · rintro ⟨d, rfl, holds, before⟩
    exact ⟨holds, d.val, by simp, by simp, fun j less => by simpa using before ⟨j, less.trans d.isLt⟩ less⟩

theorem find?_ofFn_eq_none_iff {α : Type} {n : Nat} {f : Fin n → α} {q : α → Bool} :
    (List.ofFn f).find? q = none ↔ ∀ d, q (f d) = false := by
  simp

/-- Settles O23: the order after the requester granted last is the round from its place on. -/
theorem grantGoesRound : Obligations.GrantGoesRound := by
  intro s order
  refine ⟨fun frozen => if_pos frozen, fun free k last => ?_⟩
  have round : granted s = (List.ofFn fun d : Fin 5 => order[k + 1 + d]).find? (bookWaiting s) := by
    unfold granted
    rw [if_neg (by simp [free]), last]
    fin_cases k <;> rfl
  rw [round]
  refine ⟨?_, fun r => find?_ofFn_eq_some_iff⟩
  rw [find?_ofFn_eq_none_iff]
  refine ⟨fun none n => ?_, fun none d => none _⟩
  have place : k + 1 + (n - (k + 1)) = n := add_sub_cancel _ _
  simpa only [place] using none (n - (k + 1))

/-! ## Book requests as their work on the state after the request is taken -/

section
variable {p : Port} {h : HandedRequest} {rest : List HandedRequest} {s : State} (asks : s.bookAsks p h rest)
include asks

theorem exec_hold_of_asks {target : TargetParam} {span : Span} {att disp : Nat} {org : BitVec 32} {time : Option Nat}
    (req : h.req = .hold target span att org disp time) :
    exec (.hold p) s = .next (makeBooking (h.asker p) ⟨target, span, att, org, disp, some time⟩ (s.bookTook p rest)) :=
  exec_of_bookAsks rfl asks (by rw [req])

theorem exec_book_of_asks {target : TargetParam} {span : Span} {att disp : Nat} {org : BitVec 32}
    (req : h.req = .book target span att org disp) :
    exec (.book p) s = .next (makeBooking (h.asker p) ⟨target, span, att, org, disp, none⟩ (s.bookTook p rest)) :=
  exec_of_bookAsks rfl asks (by rw [req])

variable {id : BookingId}

theorem exec_confirm_of_asks (req : h.req = .confirm id) :
    exec (.confirm p) s = .next (confirmWork (h.asker p) id (s.bookTook p rest)) :=
  exec_of_bookAsks rfl asks (by rw [req])

theorem exec_findFree_of_asks {zone : Nat} {span : Span} {att : Nat} (req : h.req = .findFree zone span att) :
    exec (.findFree p) s = .next (findFreeWork (h.asker p) (zone, span, att) (s.bookTook p rest)) :=
  exec_of_bookAsks rfl asks (by rw [req])

theorem exec_cancel_of_asks (req : h.req = .cancel id) :
    exec (.cancel p) s = .next (cancelWork (h.asker p) id (s.bookTook p rest)) :=
  exec_of_bookAsks rfl asks (by rw [req])

theorem exec_modify_of_asks {start len att : Option Nat} (req : h.req = .modify id start len att) :
    exec (.modify p) s = .next (modifyWork (h.asker p) ⟨id, start, len, att⟩ (s.bookTook p rest)) :=
  exec_of_bookAsks rfl asks (by rw [req])

theorem exec_checkIn_of_asks (req : h.req = .checkIn id) :
    exec (.checkIn p) s = .next (checkInWork (h.asker p) id (s.bookTook p rest)) :=
  exec_of_bookAsks rfl asks (by rw [req])

theorem exec_order_of_asks {prm : OrderParam} (req : h.req = .order id prm) :
    exec (.order p) s = .next (orderWork (h.asker p) (id, prm) (s.bookTook p rest)) :=
  exec_of_bookAsks rfl asks (by rw [req])

theorem exec_blockRoom_of_asks {room : Nat} {span : Span} {cause display force : Nat}
    (req : h.req = .blockRoom room span cause display force) :
    exec (.blockRoom p) s = .next (blockRoomWork (h.asker p) ⟨room, span, cause, display, force⟩ (s.bookTook p rest)) :=
  exec_of_bookAsks rfl asks (by rw [req])

theorem exec_unblock_of_asks (req : h.req = .unblock id) :
    exec (.unblock p) s = .next (unblockWork (h.asker p) id (s.bookTook p rest)) :=
  exec_of_bookAsks rfl asks (by rw [req])

theorem exec_clearBookStats_of_asks (req : h.req = .clearBookStats) :
    exec (.clearBookStats p) s = .next (clearBookStatsWork (h.asker p) () (s.bookTook p rest)) :=
  exec_of_bookAsks rfl asks (by rw [req])

theorem exec_queryRoom_of_asks {room day : Nat} {cont : Option Nat} (req : h.req = .queryRoom room day cont) :
    exec (.queryRoom p) s = .next (queryRoomWork (h.asker p) (room, day, cont) (s.bookTook p rest)) :=
  exec_of_bookAsks rfl asks (by rw [req])

theorem exec_queryBooking_of_asks (req : h.req = .queryBooking id) :
    exec (.queryBooking p) s = .next (queryBookingWork (h.asker p) id (s.bookTook p rest)) :=
  exec_of_bookAsks rfl asks (by rw [req])

theorem exec_queryBookStats_of_asks (req : h.req = .queryBookStats) :
    exec (.queryBookStats p) s = .next (queryBookStatsWork (h.asker p) () (s.bookTook p rest)) :=
  exec_of_bookAsks rfl asks (by rw [req])

end

/-! ## Records in no state for a request (03 R36) -/

/-- Settles O24: each of the five requests goes on from the record its handle names. -/
theorem staleDamagedAndBusyRecords : Obligations.StaleDamagedAndBusyRecords := by
  intro p h rest s id c asks named r
  obtain ⟨work, run⟩ : ∃ work, exec c s = .next (onRecord (h.asker p) id noItems work (s.bookTook p rest)) := by
    rcases named with ⟨rfl, req⟩ | ⟨rfl, ⟨a, b, d, req⟩, set⟩ | ⟨rfl, req, set⟩ | ⟨rfl, ⟨prm, req⟩, set⟩ | ⟨rfl, req⟩
    · exact ⟨_, exec_confirm_of_asks asks req⟩
    · exact ⟨_, (exec_modify_of_asks asks req).trans (congrArg Outcome.next (if_neg (by simp [set])))⟩
    · exact ⟨_, (exec_checkIn_of_asks asks req).trans (congrArg Outcome.next (if_neg (by simp [set])))⟩
    · exact ⟨_, (exec_order_of_asks asks req).trans (congrArg Outcome.next (if_neg (by simp [set])))⟩
    · exact ⟨_, exec_unblock_of_asks asks req⟩
  refine ⟨fun stale => ?_, fun damaged gen => ?_, fun live gen move => ?_⟩
  · rw [run]
    exact congrArg _ (onRecord_stale stale)
  · rw [run]
    exact congrArg _ (onRecord_damaged damaged gen)
  · rw [run]
    exact congrArg _ (onRecord_busy live gen move)

end Sys2Proof.Machine

/-! PROOFS. HOLD, BOOK and FIND_FREE (03 R42, R43, R45), and the book's queries (R64, R66). -/

namespace Sys2Proof.Machine

open Host

/-! ## The checks of a request (03 R42) -/

theorem judge_room {n : Nat} (hn : n < 128) : TargetParam.judge ⟨0, n⟩ = some (.room ⟨n, hn⟩) := dif_pos hn

theorem judge_pool {n : Nat} (hn : n < 5) : TargetParam.judge ⟨1, n⟩ = some (.pool ⟨n, hn⟩) := dif_pos hn

theorem judge_none {k n : Nat} (out : 1 < k ∨ (k = 0 ∧ 127 < n) ∨ (k = 1 ∧ 4 < n)) : TargetParam.judge ⟨k, n⟩ = none := by
  obtain kind | ⟨rfl, room⟩ | ⟨rfl, pool⟩ := out
  · exact (if_neg (by dsimp only; omega)).trans (if_neg (by dsimp only; omega))
  · exact dif_neg (by dsimp only; omega)
  · exact dif_neg (by dsimp only; omega)

theorem badSpan_iff {sp : Span} : badSpan sp = true ↔ 18874367 < sp.start ∨ sp.len = 0 ∨ 96 < sp.len := by
  unfold badSpan
  rw [Bool.or_eq_true, Bool.or_eq_true, decide_eq_true_eq, decide_eq_true_eq, decide_eq_true_eq, or_assoc]
  rfl

theorem badAttendees_iff {n : Nat} : badAttendees n = true ↔ n = 0 ∨ 255 < n := by simp [badAttendees]

section
variable {u : State} {span sp : Span}

theorem prepareSpan_ended (ended : span.start + span.len ≤ u.bookSlot) : prepareSpan u span = .error .tooLate := if_pos ended

variable (standing : u.bookSlot < span.start + span.len) (start : sp.start = max span.start u.bookSlot)
  (stop : sp.start + sp.len = span.start + span.len)
include standing start stop

/-- The span a request asks for, clamped to the current slot. -/
theorem clamped_eq : (if span.start < u.bookSlot then ⟨u.bookSlot, span.stop - u.bookSlot⟩ else span : Span) = sp := by
  obtain ⟨first, len⟩ := sp
  obtain ⟨first', len'⟩ := span
  dsimp only [Span.stop] at *
  split <;> simp only [Span.mk.injEq] <;> omega

theorem prepareSpan_far (far : (u.now .rbk).day + 14 < sp.start / 288) : prepareSpan u span = .error .horizon := by
  unfold prepareSpan
  dsimp only
  rw [if_neg (show ¬span.stop ≤ u.bookSlot from Nat.not_le.mpr standing), clamped_eq standing start stop, if_pos far]

theorem prepareSpan_good (near : sp.start / 288 ≤ (u.now .rbk).day + 14) : prepareSpan u span = .ok sp := by
  unfold prepareSpan
  dsimp only
  rw [if_neg (show ¬span.stop ≤ u.bookSlot from Nat.not_le.mpr standing), clamped_eq standing start stop, if_neg (Nat.not_lt.mpr near)]

end

/-! ## The room of a HOLD or a BOOK (03 R43) -/

section
variable {q : Asker} {u : State} {sp : Span} {att : Nat}

theorem firstOverlap_eq (u : State) (r : Room) (sp : Span) : firstOverlap u r sp =
    (u.schedule r).find? (fun e => decide (e.start < sp.start + sp.len ∧ sp.start < e.stop)) := by
  unfold firstOverlap
  congr 1
  funext e
  exact (Bool.decide_and _ _).symm

variable {r : Room}

theorem seekRoom_noRoom (out : (u.roomRec r).cap = 0) : seekRoom q (.room r) sp att u = .error (.noRoom, []) := if_pos out

theorem seekRoom_denied (serves : (u.roomRec r).cap ≠ 0) (denied : (u.attrOf r).bookers.admits q.role = false) :
    seekRoom q (.room r) sp att u = .error (.denied, []) :=
  (if_neg serves).trans (if_pos (by simp [denied]))

theorem seekRoom_conflict {e : Entry} (serves : (u.roomRec r).cap ≠ 0) (admitted : (u.attrOf r).bookers.admits q.role = true)
    (found : firstOverlap u r sp = some e) : seekRoom q (.room r) sp att u = .error (.conflict, conflictItems e) := by
  simp [seekRoom, serves, admitted, found]

theorem seekRoom_room (serves : (u.roomRec r).cap ≠ 0) (admitted : (u.attrOf r).bookers.admits q.role = true)
    (free : firstOverlap u r sp = none) : seekRoom q (.room r) sp att u = .ok r := by
  simp [seekRoom, serves, admitted, free]

variable {k : Zone}

theorem seekRoom_named (named : u.kindOf k = .named) : seekRoom q (.pool k) sp att u = .error (.noRoom, []) := if_pos named

variable (pooled : u.kindOf k = .pooled)
include pooled

theorem seekRoom_poolDenied (denied : (u.zoneAttr k).bookers.admits q.role = false) :
    seekRoom q (.pool k) sp att u = .error (.denied, []) := by
  simp [seekRoom, pooled, denied]

theorem seekRoom_poolFull (admitted : (u.zoneAttr k).bookers.admits q.role = true) (full : choose u ⟨k, sp, att, none⟩ = none) :
    seekRoom q (.pool k) sp att u = .error (.noRoom, []) := by
  simp [seekRoom, pooled, admitted, full]

theorem seekRoom_pool {n : Nat} (admitted : (u.zoneAttr k).bookers.admits q.role = true)
    (chosen : choose u ⟨k, sp, att, none⟩ = some (r, n)) : seekRoom q (.pool k) sp att u = .ok r := by
  simp [seekRoom, pooled, admitted, chosen]

end

/-! ## HOLD and BOOK -/

theorem allocate_handle (i : BookIx) (b : Body) (s : State) : (allocate i b s).handle i = s.handle i := by
  have mine : (allocate i b s).bookRec i = { body := b, life := .live, gen := (s.bookRec i).gen, order := none, pending := .none } :=
    put_get_same _ _ _
  unfold State.handle
  rw [mine]

section
variable {q : Asker} {a : BookArg} {u : State}

theorem makeBooking_unset (unset : u.clockSet .rbk = false) : makeBooking q a u = reply q .clockUnset [] u := if_pos (by simp [unset])

variable (set : u.clockSet .rbk = true)
include set

theorem makeBooking_bad (bad : a.target.judge = none ∨ badSpan a.span = true ∨ badAttendees a.attendees = true ∨ a.hold = some (some 0)) :
    makeBooking q a u = reply q .badParam [] u := by
  unfold makeBooking
  rw [if_neg (by simp [set])]
  cases judged : a.target.judge with
  | none => rfl
  | some t => exact if_pos (by simpa [judged, or_assoc] using bad)

variable {t : Target} (judged : a.target.judge = some t) (good : ¬(badSpan a.span = true ∨ badAttendees a.attendees = true ∨ a.hold = some (some 0)))
include judged good

theorem makeBooking_unprepared {c : Code} (refused : prepareSpan u a.span = .error c) : makeBooking q a u = reply q c [] u := by
  unfold makeBooking
  simp only [set, judged, refused]
  exact (if_neg (by simp)).trans (if_neg (by simpa [or_assoc] using good))

variable {sp : Span} (prepared : prepareSpan u a.span = .ok sp)
include prepared

theorem makeBooking_refused {c : Code} {items : List Byte} (refused : seekRoom q t sp a.attendees u = .error (c, items)) :
    makeBooking q a u = reply q c items u := by
  unfold makeBooking
  simp only [set, judged, prepared, refused]
  exact (if_neg (by simp)).trans (if_neg (by simpa [or_assoc] using good))

variable {r : Room} (found : seekRoom q t sp a.attendees u = .ok r)
include found

theorem makeBooking_full (full : u.freeIndex = none) : makeBooking q a u = reply q .bookFull [] u := by
  unfold makeBooking
  simp only [set, judged, prepared, found, full]
  exact (if_neg (by simp)).trans (if_neg (by simpa [or_assoc] using good))

theorem makeBooking_made {i : BookIx} (free : u.freeIndex = some i) : makeBooking q a u =
    reply q .ok
      (eBookingId (u.handle i) ++ eRoom r ++ eSpan sp ++ eFlags (newBody q a t sp r u) ++ (newBody q a t sp r u).holdExpiry.elim [] e4)
      (recordNotice .booked i (detail2 (newBody q a t sp r u).state.toNat t.isPool.toNat) (some q.port)
        (allocate i (newBody q a t sp r u) u)) := by
  have handle : (recordNotice .booked i (detail2 (newBody q a t sp r u).state.toNat t.isPool.toNat) (some q.port)
      (allocate i (newBody q a t sp r u) u)).handle i = u.handle i := allocate_handle i _ u
  rw [← handle]
  unfold makeBooking
  simp only [set, judged, prepared, found, free]
  exact (if_neg (by simp)).trans (if_neg (by simpa [or_assoc] using good))

end

/-- Settles O25: the checks of the span, of the target and of the free list in turn, and the booking made. -/
theorem holdAndBookMakeRecords : Obligations.HoldAndBookMakeRecords := by
  refine ⟨⟨fun n hn => judge_room hn, fun n hn => judge_pool hn, fun k n out => judge_none out, fun b => ⟨rfl, rfl, rfl, rfl⟩⟩, ?_⟩
  intro p h rest s target span att disp org hold c asks named refused bad
  let a : BookArg := ⟨target, span, att, org, disp, hold⟩
  have run : exec c s = .next (makeBooking (h.asker p) a (s.bookTook p rest)) := by
    obtain ⟨rfl, req, rfl⟩ | ⟨time, rfl, req, rfl⟩ := named
    · exact exec_book_of_asks asks req
    · exact exec_hold_of_asks asks req
  have badly : bad ↔ target.judge = none ∨ badSpan span = true ∨ badAttendees att = true ∨ hold = some (some 0) := by
    rw [badSpan_iff, badAttendees_iff]
    simp only [bad, or_assoc]
  have refuse {code : Code} {items : List Byte}
      (is : makeBooking (h.asker p) a (s.bookTook p rest) = reply (h.asker p) code items (s.bookTook p rest)) : refused code items :=
    run.trans (congrArg Outcome.next is)
  refine ⟨fun unset => refuse (makeBooking_unset (u := s.bookTook p rest) unset), fun set isBad => refuse (makeBooking_bad (u := s.bookTook p rest) set (badly.mp isBad)),
    fun t clock isGood judged => ?_⟩
  have set : (s.bookTook p rest).clockSet .rbk = true := clock
  have good : ¬(badSpan a.span = true ∨ badAttendees a.attendees = true ∨ a.hold = some (some 0)) := fun x => isGood (badly.mpr (.inr x))
  refine ⟨fun ended => refuse (makeBooking_unprepared set judged good (prepareSpan_ended ended)), ?_⟩
  intro sp standing start stop overlap
  refine ⟨fun far => refuse (makeBooking_unprepared set judged good (prepareSpan_far standing start stop far)), fun near => ?_⟩
  have prepared : prepareSpan (s.bookTook p rest) a.span = .ok sp := prepareSpan_good standing start stop near
  have refuseRoom {code : Code} {items : List Byte}
      (is : seekRoom (h.asker p) t sp att (s.bookTook p rest) = .error (code, items)) : refused code items :=
    refuse (makeBooking_refused set judged good prepared is)
  have first (r : Room) : firstOverlap (s.bookTook p rest) r sp = overlap r := firstOverlap_eq _ r sp
  refine ⟨?_, ?_, fun r where_ => ?_⟩
  · rintro r rfl
    exact ⟨fun out => refuseRoom (seekRoom_noRoom out), fun serves denied => refuseRoom (seekRoom_denied serves denied),
      fun e serves admitted found => refuseRoom (seekRoom_conflict serves admitted ((first r).trans found))⟩
  · rintro k rfl
    exact ⟨fun isNamed => refuseRoom (seekRoom_named isNamed), fun pooled denied => refuseRoom (seekRoom_poolDenied pooled denied),
      fun pooled admitted full => refuseRoom (seekRoom_poolFull pooled admitted full)⟩
  · have found : seekRoom (h.asker p) t sp att (s.bookTook p rest) = .ok r := by
      obtain ⟨rfl, serves, admitted, free⟩ | ⟨k, n, rfl, pooled, admitted, chosen⟩ := where_
      · exact seekRoom_room serves admitted ((first r).trans free)
      · exact seekRoom_pool pooled admitted chosen
    refine ⟨fun full => refuse (makeBooking_full set judged good prepared found full), fun i free => ?_⟩
    intro b u
    have made := makeBooking_made set judged good prepared found (free : (s.bookTook p rest).freeIndex = some i)
    exact run.trans (congrArg Outcome.next made)

/-! ## FIND_FREE (03 R45) -/

section
variable {q : Asker} {zone : Nat} {span : Span} {att : Nat} {u : State}

theorem findFreeWork_unset (unset : u.clockSet .rbk = false) : findFreeWork q (zone, span, att) u = reply q .clockUnset [] u :=
  if_pos (by simp [unset])

variable (set : u.clockSet .rbk = true)
include set

theorem findFreeWork_bad (bad : 4 < zone ∨ badSpan span = true ∨ badAttendees att = true) :
    findFreeWork q (zone, span, att) u = reply q .badParam [] u := by
  unfold findFreeWork
  rw [if_neg (by simp [set])]
  by_cases inRange : zone < 5
  · exact (dif_pos inRange).trans (if_pos (by simpa [show ¬4 < zone by omega] using bad))
  · exact dif_neg inRange

variable {k : Zone} (good : ¬(badSpan span = true ∨ badAttendees att = true))
include good

theorem findFreeWork_unprepared {c : Code} (refused : prepareSpan u span = .error c) :
    findFreeWork q (k.val, span, att) u = reply q c [] u := by
  unfold findFreeWork
  simp only [set, refused]
  exact (if_neg (by simp)).trans ((dif_pos k.isLt).trans (if_neg (by simpa using good)))

variable {sp : Span} (prepared : prepareSpan u span = .ok sp)
include prepared

theorem findFreeWork_prepared : findFreeWork q (k.val, span, att) u =
    if u.kindOf k = .named then reply q .noRoom [] u
    else if !((u.zoneAttr k).bookers.admits q.role) then reply q .denied [] u
    else (choose u ⟨k, sp, att, none⟩).elim (reply q .noRoom [] u) (fun x => reply q .ok (eRoom x.1 ++ e4 x.2 ++ eSpan sp) u) := by
  unfold findFreeWork
  simp only [set, prepared]
  refine (if_neg (by simp)).trans ((dif_pos k.isLt).trans ((if_neg (by simpa using good)).trans ?_))
  cases choose u ⟨k, sp, att, none⟩ <;> rfl

end

/-! ## The book's queries (03 R64, R66) -/

section
variable {q : Asker} {u : State}

theorem queryRoomWork_good (r : Room) (day : Nat) (cont : Option Nat) : queryRoomWork q (r.val, day, cont) u =
    (let es := (u.schedule r).filter (fun e =>
       decide (e.start < day * 288 + 288 ∧ day * 288 < e.stop) && cont.all (fun c => decide (c ≤ e.start)))
     reply q .ok
       (eOpt e4 u.book.releaseMarks[r] ++ eList (entryItems u) (es.take 96) ++ eOpt (fun e => e4 e.start) (es.drop 96).head?) u) := by
  have overlaps : (fun e : Entry => e.overlaps ⟨day * 288, 288⟩ && cont.all (fun c => decide (c ≤ e.start))) =
      (fun e => decide (e.start < day * 288 + 288 ∧ day * 288 < e.stop) && cont.all (fun c => decide (c ≤ e.start))) := by
    funext e
    rw [Bool.decide_and]
    rfl
  unfold queryRoomWork
  rw [dif_pos r.isLt]
  dsimp only
  rw [overlaps]

theorem queryRoomWork_bad {room day : Nat} {cont : Option Nat} (bad : 127 < room) :
    queryRoomWork q (room, day, cont) u = reply q .badParam [] u := dif_neg (by dsimp only; omega)

theorem damagedItems_eq (i : BookIx) (s : State) : damagedItems i s = (s.entryOf i).elim []
    (fun y => e4 y.2.start ++ e4 y.2.stop ++ e1 y.2.owner.toNat ++ eRoom y.1 ++ eOpt eOrderId (s.bookRec i).order) := by
  unfold damagedItems
  cases s.entryOf i <;> rfl

theorem damage_bookRec (i : BookIx) (s : State) : (damage i s).bookRec i = { s.bookRec i with life := .damaged } := by
  have records : (damage i s).book.records = put s.book.records i { s.bookRec i with life := .damaged } := by
    rw [damage_eq]
    rfl
  unfold State.bookRec
  rw [records]
  exact put_get_same _ _ _

variable {id : BookingId} {d : State → List Byte} {work : Body → State → State} (live : (u.bookRec id.index).life = .live)
  (gen : (u.bookRec id.index).gen = id.gen) (still : (u.bookRec id.index).pending ≠ .move)
include live gen still

theorem onRecord_corrected (one : (u.bookRec id.index).body.faults = 1) : onRecord q id d work u =
    work { (u.bookRec id.index).body with faults := 0 } (readBody id.index u).2 := by
  simp [onRecord, resolve, live, gen, still, readBody_corrected one]

theorem onRecord_ruined (two : 2 ≤ (u.bookRec id.index).body.faults) : onRecord q id d work u =
    reply q .damaged (d (readBody id.index u).2) (readBody id.index u).2 := by
  simp [onRecord, resolve, live, gen, still, readBody_damaged two]

end

/-- Settles O26: FIND_FREE by the checks of a HOLD and PSL's choice, the queries by what stands and what a read leaves. -/
theorem findFreeAndBookQueriesReport : Obligations.FindFreeAndBookQueriesReport := by
  refine ⟨fun p h rest s zone span att asks req => ?_, fun p h rest s k span sp att asks clock req first least most few many standing start stop near => ?_,
    fun p h rest s asks => ⟨fun req => exec_clearBookStats_of_asks asks req, fun r day cont req => ?_, fun room day cont req bad => ?_,
      fun id req => ?_, fun i b => rfl, fun id b req named => ?_, fun req => exec_queryBookStats_of_asks asks req⟩⟩
  · have run := exec_findFree_of_asks asks req
    have badly : 4 < zone ∨ 18874367 < span.start ∨ span.len = 0 ∨ 96 < span.len ∨ att = 0 ∨ 255 < att ↔
        4 < zone ∨ badSpan span = true ∨ badAttendees att = true := by
      rw [badSpan_iff, badAttendees_iff]
      simp only [or_assoc]
    have refuse {c : Code} (set : s.clockSet .rbk = true)
        (isGood : ¬(4 < zone ∨ 18874367 < span.start ∨ span.len = 0 ∨ 96 < span.len ∨ att = 0 ∨ 255 < att))
        (refused : prepareSpan (s.bookTook p rest) span = .error c) : exec (.findFree p) s = .next (s.bookAnswered p h rest c []) := by
      rw [badly, not_or, Nat.not_lt] at isGood
      exact run.trans (congrArg Outcome.next
        (findFreeWork_unprepared (k := ⟨zone, Nat.lt_succ_of_le isGood.1⟩) (u := s.bookTook p rest) set isGood.2 refused))
    refine ⟨fun unset => run.trans (congrArg Outcome.next (findFreeWork_unset (u := s.bookTook p rest) unset)),
      fun set bad => run.trans (congrArg Outcome.next (findFreeWork_bad (u := s.bookTook p rest) set (badly.mp bad))),
      fun set isGood ended => refuse set isGood (prepareSpan_ended ended), fun set isGood standing far => refuse set isGood ?_⟩
    exact prepareSpan_far (sp := ⟨max span.start s.bookSlot, span.start + span.len - max span.start s.bookSlot⟩) standing rfl
      (by dsimp only; omega) far
  · have set : (s.bookTook p rest).clockSet .rbk = true := clock
    have good : ¬(badSpan span = true ∨ badAttendees att = true) := by
      rw [badSpan_iff, badAttendees_iff]
      omega
    have prepared : prepareSpan (s.bookTook p rest) span = .ok sp := prepareSpan_good standing start stop near
    have run := (exec_findFree_of_asks asks req).trans (congrArg Outcome.next (findFreeWork_prepared (k := k) set good prepared))
    refine ⟨fun named => ?_, fun pooled denied => ?_, fun pooled admitted => ⟨fun full => ?_, fun r n chosen => ?_⟩⟩
    · exact run.trans (congrArg Outcome.next (if_pos named))
    · exact run.trans (congrArg Outcome.next ((if_neg (by simp [show (s.bookTook p rest).kindOf k = .pooled from pooled])).trans
        (if_pos (show (!((s.zoneAttr k).bookers.admits h.role)) = true by rw [denied]; rfl))))
    all_goals
      refine run.trans (congrArg Outcome.next ((if_neg (by simp [show (s.bookTook p rest).kindOf k = .pooled from pooled])).trans
        ((if_neg (show ¬(!((s.zoneAttr k).bookers.admits h.role)) = true by rw [admitted]; decide)).trans ?_)))
    · rw [show choose (s.bookTook p rest) _ = none from full]
      rfl
    · rw [show choose (s.bookTook p rest) _ = some (r, n) from chosen]
      rfl
  · exact (exec_queryRoom_of_asks asks req).trans (congrArg Outcome.next (queryRoomWork_good r day cont))
  · exact (exec_queryRoom_of_asks asks req).trans (congrArg Outcome.next (queryRoomWork_bad bad))
  · intro i r u v standing current
    have run := exec_queryBooking_of_asks asks req
    have items (x : State) (same : (x.bookRec i).order = r.order) : damagedItems i x = standing x := by rw [damagedItems_eq, same]
    refine ⟨fun stale => run.trans (congrArg Outcome.next (onRecord_stale stale)), fun damaged gen => ?_,
      fun live gen move => run.trans (congrArg Outcome.next (onRecord_busy live gen move)), ?_, ?_⟩
    · rw [run]
      have items : damagedItems id.index (s.bookTook p rest) = standing s := items _ rfl
      rw [← items]
      exact congrArg Outcome.next (onRecord_damaged (s := s.bookTook p rest) damaged gen)
    · rintro ⟨live, gen, still⟩ two
      have read : v = damage i u := congrArg Prod.snd (readBody_damaged (s := u) two)
      have mine : (v.bookRec i).order = r.order := by
        rw [read, damage_bookRec]
        rfl
      rw [← items v mine]
      exact run.trans (congrArg Outcome.next (onRecord_ruined (u := u) live gen still two))
    · rintro ⟨live, gen, still⟩ one
      exact run.trans (congrArg Outcome.next (onRecord_corrected (u := u) live gen still one))
  · exact (exec_queryBooking_of_asks asks req).trans (congrArg Outcome.next (onRecord_named (named.took p rest)))

end Sys2Proof.Machine

/-! PROOFS. CONFIRM, CANCEL and UNBLOCK (03 R44, R46, R61), MODIFY (R47, R48) and CHECK_IN by request (R53). -/

namespace Sys2Proof.Machine

open Host

/-! ## Who may change a record -/

section
variable {p : Port} {h : HandedRequest} {o : Owner}

theorem privileged_iff {r : Role} : r.privileged = true ↔ r = .console ∨ r = .facilities := by
  cases r <;> decide

theorem mayChange_iff : mayChange (h.asker p) o = true ↔ o = .port p ∨ h.role = .console ∨ h.role = .facilities := by
  unfold mayChange
  rw [Bool.or_eq_true, decide_eq_true_eq, privileged_iff]
  rfl

theorem not_mayChange_of (not : ¬(o = .port p ∨ h.role = .console ∨ h.role = .facilities)) : (!mayChange (h.asker p) o) = true := by
  rw [Bool.not_eq_true', ← Bool.not_eq_true, mayChange_iff]
  exact not

theorem mayChange_of (may : o = .port p ∨ h.role = .console ∨ h.role = .facilities) : ¬(!mayChange (h.asker p) o) = true := by
  rw [mayChange_iff.mpr may]
  decide

end

/-! ## CONFIRM, CANCEL, UNBLOCK -/

section
variable {p : Port} {h : HandedRequest} {rest : List HandedRequest} {s : State} (asks : s.bookAsks p h rest) {id : BookingId} {b : Body}
include asks

/-- CONFIRM on a sound record goes on with its body. -/
theorem exec_confirm_of_named (req : h.req = .confirm id) (named : NamedRecord s id b) : exec (.confirm p) s = .next
    (let u := s.bookTook p rest
     if !mayChange (h.asker p) b.owner then reply (h.asker p) .denied [] u
     else if b.state = .held then
       reply (h.asker p) .ok (eSpan b.span ++ eFlags b) (recordNotice .changed id.index 0 (some p)
         (setSummary id.index .confirmed (setBody id.index { b with holdExpiry := none, state := .confirmed } u)))
     else reply (h.asker p) .badState [] u) :=
  (exec_confirm_of_asks asks req).trans (congrArg Outcome.next (onRecord_named (named.took p rest)))

theorem exec_unblock_of_named (req : h.req = .unblock id) (named : NamedRecord s id b) : exec (.unblock p) s = .next
    (let u := s.bookTook p rest
     if b.state = .block then
       reply (h.asker p) .ok [] (freeRecord id.index .cancelled BState.block.toNat (some p) u)
     else reply (h.asker p) .badState [] u) :=
  (exec_unblock_of_asks asks req).trans (congrArg Outcome.next (onRecord_named (named.took p rest)))

end

section
variable {q : Asker} {id : BookingId} {b : Body} {u : State}

theorem cancelWork_stale (stale : (u.bookRec id.index).life = .free ∨ (u.bookRec id.index).gen ≠ id.gen) :
    cancelWork q id u = reply q .unknown [] u := by
  unfold cancelWork resolve
  rw [if_pos stale]

variable (gen : (u.bookRec id.index).gen = id.gen)
include gen

theorem cancelWork_moving (taken : (u.bookRec id.index).life ≠ .free) (move : (u.bookRec id.index).pending = .move) :
    cancelWork q id u = reply q .busyRecord [] u := by
  simp [cancelWork, resolve, gen, taken, move]

variable (still : (u.bookRec id.index).pending ≠ .move)
include still

theorem cancelWork_damaged (damaged : (u.bookRec id.index).life = .damaged) : cancelWork q id u = cancelDamaged q id.index u := by
  simp [cancelWork, resolve, gen, still, damaged]

theorem cancelWork_named (live : (u.bookRec id.index).life = .live) (sound : (u.bookRec id.index).body.faults = 0) :
    cancelWork q id u =
      (let b := (u.bookRec id.index).body
       if !mayChange q b.owner then reply q .denied [] u
       else if b.state = .block then reply q .badState [] u
       else reply q .ok [] (freeRecord id.index .cancelled b.state.toNat (some q.port) u)) := by
  simp [cancelWork, resolve, gen, still, live, readBody_sound sound]

end

/-- Settles O27: each request by the state, the owner and the role. -/
theorem confirmCancelAndUnblock : Obligations.ConfirmCancelAndUnblock := by
  refine ⟨fun p h rest s id b asks req named => ?_, fun p h rest s id asks req => ?_, fun p h rest s id b asks req named => ?_⟩
  · intro may u
    have run := exec_confirm_of_named asks req named
    refine ⟨fun not => ?_, fun can other => ?_, fun can held => ?_⟩
    · exact run.trans (congrArg Outcome.next (if_pos (not_mayChange_of not)))
    · exact run.trans (congrArg Outcome.next ((if_neg (mayChange_of can)).trans (if_neg other)))
    · exact run.trans (congrArg Outcome.next ((if_neg (mayChange_of can)).trans (if_pos held)))
  · intro r privileged freed
    have run := exec_cancel_of_asks asks req
    refine ⟨fun stale => ?_, fun taken gen move => ?_, ?_, fun damaged gen still => ?_⟩
    · exact run.trans (congrArg Outcome.next (cancelWork_stale (u := s.bookTook p rest) stale))
    · exact run.trans (congrArg Outcome.next (cancelWork_moving (u := s.bookTook p rest) gen taken move))
    · rintro b ⟨live, gen, still, rfl, sound⟩
      have run := run.trans (congrArg Outcome.next (cancelWork_named (u := s.bookTook p rest) gen still live sound))
      refine ⟨fun other unprivileged => ?_, fun can block => ?_, fun can other => ?_⟩
      · exact run.trans (congrArg Outcome.next (if_pos (not_mayChange_of (not_or.mpr ⟨other, unprivileged⟩))))
      · exact run.trans (congrArg Outcome.next ((if_neg (mayChange_of can)).trans (if_pos block)))
      · exact run.trans (congrArg Outcome.next ((if_neg (mayChange_of can)).trans (if_neg other)))
    · have run := run.trans (congrArg Outcome.next (cancelWork_damaged (u := s.bookTook p rest) gen still damaged))
      have role : (h.asker p).role.privileged = true ↔ privileged := privileged_iff
      refine ⟨fun can => ?_, fun unprivileged mine => ?_, fun unprivileged other => ?_⟩
      · exact run.trans (congrArg Outcome.next (if_pos (role.mpr can)))
      · exact run.trans (congrArg Outcome.next ((if_neg (mt role.mp unprivileged)).trans (if_pos mine)))
      · exact run.trans (congrArg Outcome.next ((if_neg (mt role.mp unprivileged)).trans (if_neg other)))
  · have run := exec_unblock_of_named asks req named
    exact ⟨fun block => run.trans (congrArg Outcome.next (if_pos block)), fun other => run.trans (congrArg Outcome.next (if_neg other))⟩

/-! ## MODIFY (03 R47, R48) -/

section
variable {a : ModifyArg} {b : Body} {s : State}

theorem modifyArg_bad_iff : a.bad = true ↔ a.start.any (fun x => decide (18874367 < x)) = true ∨
    a.len.any (fun n => decide (n = 0 ∨ 96 < n)) = true ∨ a.attendees.any (fun n => decide (n = 0 ∨ 255 < n)) = true := by
  unfold ModifyArg.bad
  rw [Bool.or_eq_true, Bool.or_eq_true, or_assoc]
  simp only [Bool.decide_or]
  rfl

theorem startChange_iff : a.startChange b = true ↔ a.start.getD b.span.start ≠ b.span.start := by
  unfold ModifyArg.startChange
  rw [bne_iff_ne]
  rfl

/-- The checks of MODIFY after DENIED, in their order. -/
theorem modifyRefused_eq (a : ModifyArg) (b : Body) (s : State) : modifyRefused a b s =
    if b.state = .block then some (.badState, [])
    else if a.bad = true then some (.badParam, [])
    else if b.state = .active ∧ (a.startChange b = true ∨ a.newAttendees b ≠ b.attendees) then some (.badState, [])
    else if b.state = .active ∧ (a.newSpan b).stop ≤ s.bookSlot then some (.tooLate, [])
    else if b.state ≠ .active ∧ ∃ x, a.start = some x ∧ x < s.bookSlot then some (.tooLate, [])
    else if a.startChange b = true ∧ b.state = .confirmed ∧ b.span.start ≤ s.bookSlot + (s.attrOf b.room).e then some (.badState, [])
    else if ∃ x, a.start = some x ∧ (s.now .rbk).day + 14 < x / 288 then some (.horizon, [])
    else if a.startChange b = true ∧ (s.bookRec a.id.index).pending = .attach then some (.busyRecord, [])
    else (otherOverlap s a.id.index b.room (a.newSpan b)).map (fun e => (.conflict, conflictItems e)) := by
  unfold modifyRefused
  simp only [Bool.and_eq_true, Bool.or_eq_true, decide_eq_true_eq, bne_iff_ne, Option.any_eq_true, and_assoc]

/-- The checks that look at the time passed, the rest of MODIFY's. -/
theorem modifyRefused_of_inTime (state : b.state ≠ .block) (good : ¬a.bad = true)
    (active : b.state = .active → ¬a.startChange b = true ∧ a.newAttendees b = b.attendees ∧ s.bookSlot < (a.newSpan b).stop)
    (later : b.state ≠ .active → ∀ x, a.start = some x → s.bookSlot ≤ x)
    (closed : b.state = .confirmed → a.startChange b = true → s.bookSlot + (s.attrOf b.room).e < b.span.start) :
    modifyRefused a b s =
      if ∃ x, a.start = some x ∧ (s.now .rbk).day + 14 < x / 288 then some (.horizon, [])
      else if a.startChange b = true ∧ (s.bookRec a.id.index).pending = .attach then some (.busyRecord, [])
      else (otherOverlap s a.id.index b.room (a.newSpan b)).map (fun e => (.conflict, conflictItems e)) := by
  rw [modifyRefused_eq, if_neg state, if_neg good, if_neg, if_neg, if_neg, if_neg]
  · rintro ⟨moves, confirmed, opened⟩
    exact absurd (closed confirmed moves) (Nat.not_lt.mpr opened)
  · rintro ⟨other, x, start, past⟩
    exact absurd (later other x start) (Nat.not_le.mpr past)
  · rintro ⟨is, ended⟩
    exact absurd (active is).2.2 (Nat.not_lt.mpr ended)
  · rintro ⟨is, moves | people⟩
    · exact (active is).1 moves
    · exact people (active is).2.1

end

/-- MODIFY on a sound record goes on with its body. -/
theorem exec_modify_of_named {p : Port} {h : HandedRequest} {rest : List HandedRequest} {s : State} (asks : s.bookAsks p h rest)
    {id : BookingId} {start len att : Option Nat} (req : h.req = .modify id start len att) (set : s.clockSet .rbk = true) {b : Body}
    (named : NamedRecord s id b) : exec (.modify p) s = .next
      (let u := s.bookTook p rest
       let a : ModifyArg := ⟨id, start, len, att⟩
       if !mayChange (h.asker p) b.owner then reply (h.asker p) .denied [] u
       else
         (modifyRefused a b u).elim
           ((u.bookRec id.index).order.elim (modifyAtOnce (h.asker p) a b u)
             (fun o => if a.startChange b then sendMove (h.asker p) a b o u else modifyAtOnce (h.asker p) a b u))
           (fun x => reply (h.asker p) x.1 x.2 u)) := by
  rw [exec_modify_of_asks asks req]
  refine congrArg Outcome.next ((if_neg (by simp [set])).trans ((onRecord_named (named.took p rest)).trans ?_))
  dsimp only
  generalize s.bookTook p rest = u
  split
  · rfl
  · cases modifyRefused ⟨id, start, len, att⟩ b u with
    | none => cases (u.bookRec id.index).order <;> rfl
    | some x => rfl

/-- Settles O28: the checks in their order, and the change or the move that passes them. -/
theorem modifyChangesOrMoves : Obligations.ModifyChangesOrMoves := by
  refine ⟨fun a b s => ?_, fun p h rest s id start len att asks req unset => ?_, fun p h rest s id start len att b asks req set named => ?_⟩
  · intro now sp people bad moves inTime near busy
    have isBad : a.bad = true ↔ bad := modifyArg_bad_iff
    have isMove : a.startChange b = true ↔ moves := startChange_iff
    have rest (ok : inTime) : modifyRefused a b s =
        if ∃ x, a.start = some x ∧ (s.now .rbk).day + 14 < x / 288 then some (.horizon, [])
        else if a.startChange b = true ∧ (s.bookRec a.id.index).pending = .attach then some (.busyRecord, [])
        else (otherOverlap s a.id.index b.room (a.newSpan b)).map (fun e => (.conflict, conflictItems e)) := by
      obtain ⟨state, good, active, later, closed⟩ := ok
      rw [← isBad] at good
      rw [← isMove] at active closed
      exact modifyRefused_of_inTime state good active later closed
    have isNear (n : near) : ¬∃ x, a.start = some x ∧ (s.now .rbk).day + 14 < x / 288 := by
      rintro ⟨x, start, far⟩
      exact absurd (n x start) (Nat.not_le.mpr far)
    have isIdle (idle : ¬busy) : ¬(a.startChange b = true ∧ (s.bookRec a.id.index).pending = .attach) := by rwa [isMove]
    refine ⟨fun block => ?_, fun state isB => ?_, fun active good change => ?_, fun active good still same ended => ?_,
      fun state good x start past => ?_, fun confirmed good change later opened => ?_, fun ok far => ?_, fun ok n waits => ?_,
      fun ok n idle e found => ?_, fun ok n idle free => ?_⟩
    · rw [modifyRefused_eq, if_pos block]
    · rw [modifyRefused_eq, if_neg state, if_pos (isBad.mpr isB)]
    · rw [modifyRefused_eq, if_neg (by simp [active]), if_neg (mt isBad.mp good), if_pos ⟨active, change.imp_left isMove.mpr⟩]
    · rw [modifyRefused_eq, if_neg (by simp [active]), if_neg (mt isBad.mp good), if_neg, if_pos ⟨active, ended⟩]
      rintro ⟨-, moved | people⟩
      · exact still (isMove.mp moved)
      · exact people same
    · have other : b.state ≠ .active := by rintro is; simp [is] at state
      rw [modifyRefused_eq, if_neg (by rintro is; simp [is] at state), if_neg (mt isBad.mp good), if_neg fun is => other is.1,
        if_neg fun is => other is.1, if_pos ⟨other, x, start, past⟩]
    · have other : b.state ≠ .active := by simp [confirmed]
      rw [modifyRefused_eq, if_neg (by simp [confirmed]), if_neg (mt isBad.mp good), if_neg fun is => other is.1,
        if_neg fun is => other is.1, if_neg, if_pos ⟨isMove.mpr change, confirmed, opened⟩]
      rintro ⟨-, x, start, past⟩
      have first : sp.start = x := by simp [sp, start]
      omega
    · rw [rest ok, if_pos]
      simp only [near, not_forall, Nat.not_le] at far
      obtain ⟨x, start, far⟩ := far
      exact ⟨x, start, far⟩
    · rw [rest ok, if_neg (isNear n), if_pos ⟨isMove.mpr waits.1, waits.2⟩]
    · rw [rest ok, if_neg (isNear n), if_neg (isIdle idle)]
      exact congrArg _ found
    · rw [rest ok, if_neg (isNear n), if_neg (isIdle idle)]
      have none : otherOverlap s a.id.index b.room (a.newSpan b) = none := by
        refine List.find?_eq_none.mpr fun x mem overlaps => ?_
        rw [Bool.and_eq_true, bne_iff_ne, Entry.overlaps, Bool.and_eq_true, decide_eq_true_eq, decide_eq_true_eq] at overlaps
        obtain ⟨other, before, after⟩ := overlaps
        obtain early | late := free x mem other
        · exact absurd after (Nat.not_lt.mpr early)
        · exact absurd before (Nat.not_lt.mpr late)
      rw [none]
      rfl
  · exact (exec_modify_of_asks asks req).trans (congrArg Outcome.next (if_pos (by simp [unset])))
  · intro may sp people i b'
    have run := exec_modify_of_named asks req set named
    refine ⟨fun not => ?_, fun can c items refused => ?_, fun can good => ⟨fun once => ?_, fun o order moves => ?_⟩⟩
    · exact run.trans (congrArg Outcome.next (if_pos (not_mayChange_of not)))
    all_goals
      refine run.trans (congrArg Outcome.next ((if_neg (mayChange_of can)).trans ?_))
    · rw [show modifyRefused ⟨id, start, len, att⟩ b (s.bookTook p rest) = _ from refused]
      rfl
    all_goals
      rw [show modifyRefused ⟨id, start, len, att⟩ b (s.bookTook p rest) = _ from good]
    · have now : modifyAtOnce (h.asker p) ⟨id, start, len, att⟩ b (s.bookTook p rest) = answer p h.reqno .ok (eSpan sp ++ eFlags b')
          (recordNotice .changed i 1 (some p) (changeEntry b.room i (fun e => { e with start := sp.start, stop := sp.start + sp.len })
            (setBody i b' (s.bookTook p rest)))) := rfl
      cases order : (s.bookRec i).order with
      | none =>
        rw [show ((s.bookTook p rest).bookRec id.index).order = none from order]
        exact now
      | some o =>
        have still : sp.start = b.span.start := once.resolve_left (by simp [order])
        rw [show ((s.bookTook p rest).bookRec id.index).order = some o from order]
        exact (if_neg (mt startChange_iff.mp (not_not.mpr still))).trans now
    · rw [show ((s.bookTook p rest).bookRec id.index).order = some o from order]
      exact (if_pos (startChange_iff.mpr moves)).trans rfl

/-! ## CHECK_IN by request (03 R53) -/

section
variable {i : BookIx} {b : Body} {path : Nat} {cause : Option Port} {s : State}

theorem setBody_bookRec (i : BookIx) (b : Body) (s : State) : (setBody i b s).bookRec i = { s.bookRec i with body := b } :=
  setRec_bookRec_same i { s.bookRec i with body := b } s

theorem checkInConfirmed_already (already : b.earlyIn = true) : checkInConfirmed i b path cause s = (.already, s) := if_pos already

theorem checkInConfirmed_early (fresh : b.earlyIn = false) (before : s.bookSlot < b.span.start) : checkInConfirmed i b path cause s =
    (.checkedInEarly, recordNotice .checkedIn i (detail2 0 path) cause
      (handSched b.room (setBody i { b with earlyIn := true, checkinMinute := some s.bookMinute } s))) :=
  (if_neg (by simp [fresh])).trans (if_pos before)

theorem checkInConfirmed_begun (fresh : b.earlyIn = false) (begun : b.span.start ≤ s.bookSlot) : checkInConfirmed i b path cause s =
    (.checkedIn, recordNotice .checkedIn i (detail2 1 path) cause
      (setSummary i .active (setBody i { b with checkinMinute := some s.bookMinute, state := .active } s))) :=
  (if_neg (by simp [fresh])).trans (if_neg (Nat.not_lt.mpr begun))

theorem checkInActive_unverified (unverified : b.unverified = true) : checkInActive i b path cause s =
    (.verified, recordNotice .checkedIn i (detail2 2 path) cause
      (handSched b.room (setBody i { b with unverified := false, checkinMinute := some s.bookMinute } s))) :=
  if_pos unverified

theorem checkInActive_verified (verified : b.unverified = false) : checkInActive i b path cause s = (.already, s) :=
  if_neg (by simp [verified])

end

/-- CHECK_IN on a sound record goes on with its body. -/
theorem exec_checkIn_of_named {p : Port} {h : HandedRequest} {rest : List HandedRequest} {s : State} (asks : s.bookAsks p h rest)
    {id : BookingId} (req : h.req = .checkIn id) (set : s.clockSet .rbk = true) {b : Body} (named : NamedRecord s id b) :
    exec (.checkIn p) s = .next
      (let u := s.bookTook p rest
       if b.state = .confirmed then
         if b.earlyIn then reply (h.asker p) .ok [] u
         else if inWindow (u.attrOf b.room) b.span.start u.bookSlot then
           let t := (checkInConfirmed id.index b 2 (some p) u).2
           reply (h.asker p) .ok (stateOctet id.index t) t
         else if b.span.start + (u.attrOf b.room).g ≤ u.bookSlot then reply (h.asker p) .tooLate [] u
         else reply (h.asker p) .badState [] u
       else if b.state = .active then reply (h.asker p) .ok [] (checkInActive id.index b 2 (some p) u).2
       else reply (h.asker p) .badState [] u) := by
  rw [exec_checkIn_of_asks asks req]
  refine congrArg Outcome.next ((if_neg (by simp [set])).trans ((onRecord_named (named.took p rest)).trans ?_))
  dsimp only
  cases b.state <;> rfl

/-- Settles O29: by the state, the window and what the record holds already. -/
theorem checkInByRequest : Obligations.CheckInByRequest := by
  refine ⟨fun p h rest s id asks req unset => ?_, fun p h rest s id b asks req set named => ?_⟩
  · exact (exec_checkIn_of_asks asks req).trans (congrArg Outcome.next (if_pos (by simp [unset])))
  · intro now early grace i u b' window
    have run := exec_checkIn_of_named asks req set named
    have opened : inWindow (u.attrOf b.room) b.span.start u.bookSlot = true ↔ window := by
      unfold inWindow
      rw [Bool.and_eq_true, decide_eq_true_eq, decide_eq_true_eq]
      rfl
    refine ⟨fun state => ?_, fun confirmed fresh => ?_, fun confirmed already => ?_, fun active unverified => ?_, fun active verified => ?_⟩
    · refine run.trans (congrArg Outcome.next ((if_neg ?_).trans (if_neg ?_)))
      · rintro is
        simp [is] at state
      · rintro is
        simp [is] at state
    · have run := run.trans (congrArg Outcome.next ((if_pos confirmed).trans (if_neg (by simp [fresh]))))
      refine ⟨fun before => ?_, fun after => ?_, fun inside before => ?_, fun inside begun => ?_⟩
      · refine run.trans (congrArg Outcome.next ((if_neg ?_).trans (if_neg ?_)))
        · exact fun is => absurd (opened.mp is).1 (Nat.not_le.mpr before)
        · exact fun late : b.span.start + grace ≤ now => by omega
      · refine run.trans (congrArg Outcome.next ((if_neg ?_).trans (if_pos after)))
        exact fun is => absurd (opened.mp is).2 (Nat.not_lt.mpr after)
      · have octet : stateOctet i (setBody i { b' with earlyIn := true } u) = e1 BState.confirmed.toNat := by
          unfold stateOctet
          rw [setBody_bookRec, ← confirmed]
        refine run.trans (congrArg Outcome.next ((if_pos (opened.mpr inside)).trans ?_))
        rw [← octet]
        dsimp only
        rw [checkInConfirmed_early (s := s.bookTook p rest) fresh before]
        rfl
      · have octet : stateOctet i (setBody i { b' with state := .active } u) = e1 BState.active.toNat := by
          unfold stateOctet
          rw [setBody_bookRec]
        refine run.trans (congrArg Outcome.next ((if_pos (opened.mpr inside)).trans ?_))
        rw [← octet]
        dsimp only
        rw [checkInConfirmed_begun (s := s.bookTook p rest) fresh begun]
        rfl
    · exact run.trans (congrArg Outcome.next ((if_pos confirmed).trans (if_pos already)))
    · refine run.trans (congrArg Outcome.next ((if_neg (by simp [active])).trans ((if_pos active).trans ?_)))
      rw [checkInActive_unverified unverified]
      rfl
    · refine run.trans (congrArg Outcome.next ((if_neg (by simp [active])).trans ((if_pos active).trans ?_)))
      rw [checkInActive_verified verified]
      rfl

end Sys2Proof.Machine

/-! PROOFS. The book's side of an order: ORDER, the answer to an attach, and the planner's events (03 R56 to R58). -/

namespace Sys2Proof.Machine

open Host

/-! ## ORDER (03 R56) -/

/-- ORDER on a sound record goes on with its body. -/
theorem exec_order_of_named {p : Port} {h : HandedRequest} {rest : List HandedRequest} {s : State} (asks : s.bookAsks p h rest)
    {id : BookingId} {prm : OrderParam} (req : h.req = .order id prm) (set : s.clockSet .rbk = true) {b : Body}
    (named : NamedRecord s id b) : exec (.order p) s = .next
      (let u := s.bookTook p rest
       if b.state = .held ∨ b.state = .block then reply (h.asker p) .badState [] u
       else if (u.bookRec id.index).order.isSome || (u.bookRec id.index).pending = .attach then reply (h.asker p) .badState [] u
       else if (u.bookRec id.index).pending = .abandoned then reply (h.asker p) .busyRecord [] u
       else sendAttach (h.asker p) id prm b u) := by
  rw [exec_order_of_asks asks req]
  refine congrArg Outcome.next ((if_neg (by simp [set])).trans ((onRecord_named (named.took p rest)).trans ?_))
  dsimp only
  cases b.state <;> rfl

/-! ## The planner's messages -/

section
variable {α : Type} {c : Instr} {sel : PlanMsg → Option α} {work : α → State → State} {s : State} {m : PlanMsg} {a : α}

/-- A command that takes the planner's message at the head of the lane. -/
theorem exec_of_plan (is : exec c s = .next (takePlan sel work s)) (head : s.wires.toBook.head? = some m) (chosen : sel m = some a) :
    exec c s = .next (work a (s.setWires { s.wires with toBook := s.wires.toBook.tail })) := by
  rw [is, takePlan, head]
  exact congrArg Outcome.next (by rw [Option.bind_some, chosen])

end

section
variable {id : BookingId} {s : State}

theorem resolve_stale (stale : (s.bookRec id.index).life = .free ∨ (s.bookRec id.index).gen ≠ id.gen) : resolve id s = none := if_pos stale

theorem resolve_named (live : (s.bookRec id.index).life ≠ .free) (gen : (s.bookRec id.index).gen = id.gen) :
    resolve id s = some (s.bookRec id.index) :=
  if_neg (by simp [live, gen])

theorem setRec_setRec (i : BookIx) (x y : BookRec) (s : State) : setRec i y (setRec i x s) = setRec i y s := by
  have records : put (put s.book.records i x) i y = put s.book.records i y := put_put _ _ _ _
  unfold setRec
  change s.setBook { s.book with records := put (put s.book.records i x) i y } = _
  rw [records]

section
variable {o : OrderId} {d : Bool}

theorem orderEndedWork_other (other : (s.bookRec id.index).life = .free ∨ (s.bookRec id.index).gen ≠ id.gen ∨ (s.bookRec id.index).order ≠ some o) :
    orderEndedWork id o d s = s := by
  unfold orderEndedWork
  by_cases stale : (s.bookRec id.index).life = .free ∨ (s.bookRec id.index).gen ≠ id.gen
  · rw [resolve_stale stale]
  · obtain ⟨live, gen⟩ := not_or.mp stale
    have unnamed : (s.bookRec id.index).order ≠ some o := (other.resolve_left live).resolve_left gen
    rw [resolve_named live (not_not.mp gen)]
    exact if_neg unnamed

variable (live : (s.bookRec id.index).life ≠ .free) (gen : (s.bookRec id.index).gen = id.gen) (named : (s.bookRec id.index).order = some o)
include live gen named

theorem orderEndedWork_named : orderEndedWork id o d s =
    (let u := setRec id.index { s.bookRec id.index with order := none } s
     if d && (s.bookRec id.index).life = .live then
       (readBody id.index u).1.elim (readBody id.index u).2
         (fun b => handSched b.room (setBody id.index { b with cateringDelivered := true } (readBody id.index u).2))
     else u) := by
  unfold orderEndedWork
  rw [resolve_named live gen]
  dsimp only
  rw [if_pos named]
  generalize setRec id.index _ s = u
  split_ifs
  · cases read : readBody id.index u with
    | mk b v => cases b <;> rfl
  · rfl

end

theorem answerExchange_of_who {x : Exchange} {p : Port} {n : Fin 256} (who : x.who = some (p, n)) (code : Code) (items : List Byte)
    (s : State) : answerExchange x code items s = answer p n code items s := by
  unfold answerExchange
  rw [who]

section
variable {n : Nat} {result : Except Code OrderId} {x : Exchange} {rest : List Exchange}
  (found : takeExchange (fun y => y.serial = n && y.move.isNone) s.book.exchanges = some (x, rest))
include found

theorem attachAnswered_stale (stale : (s.bookRec id.index).life = .free ∨ (s.bookRec id.index).gen ≠ id.gen) :
    attachAnswered n id result s =
      answerExchange x .unknown [] (dropOrder id result.toOption (s.setBook { s.book with exchanges := rest })) := by
  unfold attachAnswered
  rw [found]
  dsimp only
  rw [resolve_stale (s := s.setBook { s.book with exchanges := rest }) stale]

variable (gen : (s.bookRec id.index).gen = id.gen)
include gen

theorem attachAnswered_abandoned (taken : (s.bookRec id.index).life ≠ .free) (abandoned : (s.bookRec id.index).pending = .abandoned) :
    attachAnswered n id result s =
      dropOrder id result.toOption (setPending id.index .none (s.setBook { s.book with exchanges := rest })) := by
  have pending : ((s.setBook { s.book with exchanges := rest }).bookRec id.index).pending = .abandoned := abandoned
  unfold attachAnswered
  rw [found]
  dsimp only
  rw [resolve_named (s := s.setBook { s.book with exchanges := rest }) taken gen]
  dsimp only
  rw [pending]

variable (attaching : (s.bookRec id.index).pending = .attach)
include attaching

theorem attachAnswered_ordered {o : OrderId} (live : (s.bookRec id.index).life = .live) : attachAnswered n id (.ok o) s =
    answerExchange x .ok (eOrderId o) (setRec id.index { s.bookRec id.index with order := some o, pending := .none }
      (s.setBook { s.book with exchanges := rest })) := by
  have same : (s.setBook { s.book with exchanges := rest }).bookRec id.index = s.bookRec id.index := rfl
  unfold attachAnswered
  rw [found]
  dsimp only
  rw [resolve_named (s := s.setBook { s.book with exchanges := rest }) (by rw [same, live]; decide) gen, same]
  generalize s.bookRec id.index = r at live attaching ⊢
  obtain ⟨body, life, gen, order, pending⟩ := r
  cases live
  cases attaching
  rfl

theorem attachAnswered_failed {c : Code} (live : (s.bookRec id.index).life = .live) : attachAnswered n id (.error c) s =
    answerExchange x c [] (setRec id.index { s.bookRec id.index with pending := .none }
      (s.setBook { s.book with exchanges := rest })) := by
  have pending : ((s.setBook { s.book with exchanges := rest }).bookRec id.index).pending = .attach := attaching
  have life : ((s.setBook { s.book with exchanges := rest }).bookRec id.index).life = .live := live
  unfold attachAnswered
  rw [found]
  dsimp only
  rw [resolve_named (s := s.setBook { s.book with exchanges := rest }) (by rw [life]; decide) gen]
  dsimp only
  rw [pending, life]
  rfl

theorem attachAnswered_damaged (damaged : (s.bookRec id.index).life = .damaged) : attachAnswered n id result s =
    answerExchange x .damaged [] (dropOrder id result.toOption (setRec id.index { s.bookRec id.index with pending := .none }
      (s.setBook { s.book with exchanges := rest }))) := by
  have pending : ((s.setBook { s.book with exchanges := rest }).bookRec id.index).pending = .attach := attaching
  have life : ((s.setBook { s.book with exchanges := rest }).bookRec id.index).life = .damaged := damaged
  unfold attachAnswered
  rw [found]
  dsimp only
  rw [resolve_named (s := s.setBook { s.book with exchanges := rest }) (by rw [life]; decide) gen]
  dsimp only
  rw [pending, life]
  cases result <;> rfl

end

theorem attachAnswered_none {n : Nat} {result : Except Code OrderId}
    (moves : ∀ y ∈ s.book.exchanges, y.serial = n → y.move.isSome = true) : attachAnswered n id result s = s := by
  have nothing : takeExchange (fun y => y.serial = n && y.move.isNone) s.book.exchanges = none := by
    rw [takeExchange_none, List.any_eq_false]
    intro y mem
    by_cases serial : y.serial = n
    · simp [Option.isNone_iff_eq_none, Option.isSome_iff_ne_none.mp (moves y mem serial)]
    · simp [serial]
  unfold attachAnswered
  rw [nothing]

end

/-- Settles O30: ORDER, the answers to attaches, and the planner's events, each by the record it names. -/
theorem ordersAreAttachedAndEnded : Obligations.OrdersAreAttachedAndEnded := by
  refine ⟨fun p h rest s id prm asks req unset => ?_, fun p h rest s id prm b asks req set named => ?_, fun s k id result head => ?_,
    fun s id o => ?_⟩
  · exact (exec_order_of_asks asks req).trans (congrArg Outcome.next (if_pos (by simp [unset])))
  · intro r u
    have run := exec_order_of_named asks req set named
    refine ⟨fun state => run.trans (congrArg Outcome.next (if_pos state)), fun state => ?_⟩
    have other : ¬(b.state = .held ∨ b.state = .block) := by
      obtain is | is := state <;> simp [is]
    have run := run.trans (congrArg Outcome.next (if_neg other))
    refine ⟨fun has => ?_, fun none abandoned => ?_, fun none free => ?_⟩
    · exact run.trans (congrArg Outcome.next (if_pos (by
        rw [Bool.or_eq_true, decide_eq_true_eq]
        exact has)))
    all_goals
      have order : ((s.bookTook p rest).bookRec id.index).order = .none := none
    · have pending : ((s.bookTook p rest).bookRec id.index).pending = .abandoned := abandoned
      exact run.trans (congrArg Outcome.next ((if_neg (by rw [order, pending]; decide)).trans (if_pos pending)))
    · have pending : ((s.bookTook p rest).bookRec id.index).pending = .none := free
      exact run.trans (congrArg Outcome.next ((if_neg (by rw [order, pending]; decide)).trans (if_neg (by rw [pending]; decide))))
  · intro taken
    have run : exec .attachAnswer s = .next (attachAnswered k id result taken) := by
      have is : exec .attachAnswer s = execAttachAnswer s := rfl
      rw [is, execAttachAnswer, takePlan, head]
      cases result <;> rfl
    refine ⟨fun none => run.trans (congrArg Outcome.next (attachAnswered_none none)), fun x rest found => ?_⟩
    intro r u dropped
    have drop (t : State) : dropOrder id result.toOption t = dropped t := by cases result <;> rfl
    refine ⟨fun p n who => ⟨fun stale => ?_, fun gen live attaching => ⟨?_, ?_⟩, fun gen damaged attaching => ?_⟩,
      fun gen live abandoned => ?_⟩
    · rw [← drop, ← answerExchange_of_who who]
      exact run.trans (congrArg Outcome.next (attachAnswered_stale (s := taken) found stale))
    · rintro o rfl
      rw [← answerExchange_of_who who]
      exact run.trans (congrArg Outcome.next (attachAnswered_ordered (s := taken) found gen attaching live))
    · rintro c rfl
      rw [← answerExchange_of_who who]
      exact run.trans (congrArg Outcome.next (attachAnswered_failed (s := taken) found gen attaching live))
    · rw [← drop, ← answerExchange_of_who who]
      exact run.trans (congrArg Outcome.next (attachAnswered_damaged (s := taken) found gen attaching damaged))
    · rw [← drop]
      exact run.trans (congrArg Outcome.next (attachAnswered_abandoned (s := taken) found gen live abandoned))
  · intro r u
    refine ⟨fun d head => ?_, fun head => exec_of_plan (work := fun _ s => s) (a := ()) rfl head rfl,
      fun head => exec_of_plan (work := fun _ s => s) (a := ()) rfl head rfl⟩
    have run : exec .orderEnded s = .next (orderEndedWork id o d u) := by
      have is : exec .orderEnded s = execOrderEnded s := rfl
      rw [is, execOrderEnded, takePlan, head]
      rfl
    refine ⟨fun other => run.trans (congrArg Outcome.next ?_), fun live gen named plain => run.trans (congrArg Outcome.next ?_),
      fun live gen named delivered sound => run.trans (congrArg Outcome.next ?_)⟩
    · exact orderEndedWork_other (s := u) other
    · refine (orderEndedWork_named (s := u) live gen named).trans (if_neg ?_)
      obtain rfl | damaged := plain
      · simp
      · rw [show (u.bookRec id.index).life = .damaged from damaged]
        simp
    · refine (orderEndedWork_named (s := u) (by rw [show (u.bookRec id.index).life = .live from live]; decide) gen named).trans ((if_pos ?_).trans ?_)
      · rw [delivered, show (u.bookRec id.index).life = .live from live]
        rfl
      · have body : (setRec id.index { u.bookRec id.index with order := none } u).bookRec id.index = { r with order := none } :=
          setRec_bookRec_same id.index { u.bookRec id.index with order := none } u
        have read := readBody_sound (i := id.index) (s := setRec id.index { u.bookRec id.index with order := none } u) (by rw [body]; exact sound)
        rw [read, body]
        dsimp only [Option.elim_some]
        unfold setBody
        rw [setRec_setRec, body]

end Sys2Proof.Machine

/-! PROOFS. BLOCK_ROOM: its checks, the displacement cascade and the block (03 R59, R60). -/

namespace Sys2Proof.Machine

open Host

/-! ## A reseat (03 R60) -/

/-- The book after the reseat of record `i` from the blocked room to `r`, before its notice. -/
def reseated (i : BookIx) (b : Body) (r : Room) (s : State) : State :=
  let es := (s.schedule b.room).filter (fun e => e.index = i)
  let s := setSchedule b.room ((s.schedule b.room).filter (fun e => e.index != i)) s
  let s := setSchedule r (es.foldl (fun xs e => insertEntry e xs) (s.schedule r)) s
  setBody i { b with room := r, earlyIn := false, overCapacity := false, fromPool := true } s

section
variable (i : BookIx) (b : Body) (r : Room) (s : State)

theorem reseat_eq (q : Asker) : reseat q i b r s =
    (((reseated i b r s).bookRec i).order.elim (recordNotice .reseated i b.room.val (some q.port) (reseated i b r s))
      (fun o => handPlanner (.reseat ((reseated i b r s).handle i) o r)
        (recordNotice .reseated i b.room.val (some q.port) (reseated i b r s)))) := by
  change (match (recordNotice .reseated i b.room.val (some q.port) (reseated i b r s)).bookRec i |>.order with
    | some o => handPlanner (.reseat ((recordNotice .reseated i b.room.val (some q.port) (reseated i b r s)).handle i) o r)
        (recordNotice .reseated i b.room.val (some q.port) (reseated i b r s))
    | none => recordNotice .reseated i b.room.val (some q.port) (reseated i b r s)) = _
  change (match ((reseated i b r s).bookRec i).order with
    | some o => handPlanner (.reseat ((reseated i b r s).handle i) o r) (recordNotice .reseated i b.room.val (some q.port) (reseated i b r s))
    | none => recordNotice .reseated i b.room.val (some q.port) (reseated i b r s)) = _
  cases ((reseated i b r s).bookRec i).order <;> rfl

theorem reseat_book (q : Asker) : (reseat q i b r s).book = (reseated i b r s).book := by
  rw [reseat_eq]
  cases ((reseated i b r s).bookRec i).order <;> rfl

theorem reseated_bookRec : (reseated i b r s).bookRec i =
    { s.bookRec i with body := { b with room := r, earlyIn := false, overCapacity := false, fromPool := true } } :=
  setBody_bookRec i _ _

theorem reseated_bookRec_other {j : BookIx} (other : j ≠ i) : (reseated i b r s).bookRec j = s.bookRec j :=
  setRec_bookRec_other other _ _

theorem reseated_handle : (reseated i b r s).handle i = s.handle i := by
  unfold State.handle
  rw [reseated_bookRec]

theorem reseat_wires (q : Asker) : (reseat q i b r s).wires =
    { s.wires with
      sched := s.wires.sched ++ [b.room, r]
      toPlanner := s.wires.toPlanner ++ ((s.bookRec i).order.toList.map (fun o => .reseat (s.handle i) o r))
      notices := modAt s.wires.notices (producerIx .rbk) (· ++
        [{ note := { kind := .reseated, date := s.now .rbk, booking := some (s.handle i), order := (s.bookRec i).order,
                     room := some ((reseated i b r s).roomOf i), panel := none, detail := b.room.val },
           dated := true, owner := ((reseated i b r s).ownerOf i).port?, cause := some q.port }]) } := by
  have order : ((reseated i b r s).bookRec i).order = (s.bookRec i).order := by rw [reseated_bookRec]
  have handle := reseated_handle i b r s
  have sched : (reseated i b r s).wires = { s.wires with sched := s.wires.sched ++ [b.room, r] } := by
    rw [show s.wires.sched ++ [b.room, r] = s.wires.sched ++ [b.room] ++ [r] by simp]
    rfl
  have now : (reseated i b r s).now .rbk = s.now .rbk := rfl
  rw [reseat_eq]
  unfold recordNotice
  rw [order, handle]
  generalize reseated i b r s = w at sched now
  cases (s.bookRec i).order with
  | none =>
    rw [Option.elim_none, Option.toList_none, List.map_nil, List.append_nil, ← now]
    unfold bookNotice handNotice
    rw [State.setWires_wires, sched]
  | some o =>
    rw [Option.elim_some, ← now]
    unfold bookNotice handNotice handPlanner
    rw [State.setWires_wires, State.setWires_wires, sched]
    rfl

variable {r} (moves : r ≠ b.room)
include moves

theorem reseated_schedule_left : (reseated i b r s).schedule b.room = (s.schedule b.room).filter (fun e => e.index != i) :=
  (setSchedule_schedule_other moves.symm _ _).trans (setSchedule_schedule_same _ _ _)

theorem reseated_schedule_reached : (reseated i b r s).schedule r =
    ((s.schedule b.room).filter (fun e => e.index = i)).foldl (fun xs e => insertEntry e xs) (s.schedule r) := by
  refine (setSchedule_schedule_same _ _ _).trans ?_
  rw [setSchedule_schedule_other moves]

omit moves in
theorem reseated_schedule_other {r' : Room} (new : r' ≠ r) (old : r' ≠ b.room) : (reseated i b r s).schedule r' = s.schedule r' :=
  (setSchedule_schedule_other new _ _).trans (setSchedule_schedule_other old _ _)

/-- A record that stood in the blocked room alone is found in the room it went to. -/
theorem reseated_roomOf (alone : ∀ r', r' ≠ b.room → ∀ e ∈ s.schedule r', e.index ≠ i) : (reseated i b r s).roomOf i = r := by
  cases found : (reseated i b r s).entryOf i with
  | none =>
    unfold State.roomOf
    rw [found, reseated_bookRec]
    rfl
  | some x =>
    obtain ⟨r', e⟩ := x
    rw [roomOf_of_entry found]
    obtain ⟨mem, index, -⟩ := entryOf_mem found
    by_contra other
    by_cases old : r' = b.room
    · rw [old, reseated_schedule_left i b s moves, List.mem_filter] at mem
      simp [index] at mem
    · rw [reseated_schedule_other i b s other old] at mem
      exact alone r' old e mem index

end

/-! ## One record of the cascade -/

section
variable {q : Asker} {c : Cascade} {i : BookIx}

theorem cascadeOne_displaced
    (stays : ¬((c.state.bookRec i).body.state = .confirmed ∧ c.state.kindOf (c.state.zoneOf (c.state.bookRec i).body.room) = .pooled)) :
    cascadeOne q c i = ⟨c.displaced + 1, c.reseated,
      freeRecord i .displaced (detail2 (c.state.bookRec i).body.state.toNat 0) (some q.port) c.state⟩ :=
  if_neg (by simpa using stays)

variable
  (seeks : (c.state.bookRec i).body.state = .confirmed ∧ c.state.kindOf (c.state.zoneOf (c.state.bookRec i).body.room) = .pooled)
include seeks

theorem cascadeOne_unplaced
    (full : choose c.state ⟨c.state.zoneOf (c.state.bookRec i).body.room, (c.state.bookRec i).body.span,
      (c.state.bookRec i).body.attendees.getD 1, some (c.state.bookRec i).body.room⟩ = none) :
    cascadeOne q c i = ⟨c.displaced + 1, c.reseated,
      freeRecord i .displaced (detail2 (c.state.bookRec i).body.state.toNat 1) (some q.port) c.state⟩ := by
  unfold cascadeOne
  dsimp only
  rw [if_pos (by simpa using seeks), full]

theorem cascadeOne_reseated {r : Room} {n : Nat}
    (chosen : choose c.state ⟨c.state.zoneOf (c.state.bookRec i).body.room, (c.state.bookRec i).body.span,
      (c.state.bookRec i).body.attendees.getD 1, some (c.state.bookRec i).body.room⟩ = some (r, n)) :
    cascadeOne q c i = ⟨c.displaced, c.reseated + 1, reseat q i (c.state.bookRec i).body r c.state⟩ := by
  unfold cascadeOne
  dsimp only
  rw [if_pos (by simpa using seeks), chosen]

end

/-! ## The cascade leaves a free record where there was one -/

theorem freeIndex_ne_none_iff {s : State} : s.freeIndex ≠ none ↔ ∃ j, (s.bookRec j).life = .free := by
  simp [freeIndex_eq_none_iff]

theorem freeRecord_free {i j : BookIx} {kind : NoticeKind} {detail : Nat} {cause : Option Port} {s : State}
    (free : (s.bookRec j).life = .free) : ((freeRecord i kind detail cause s).bookRec j).life = .free := by
  rw [freeRecord_eq]
  change ((put s.book.records i (BookRec.blank ((s.bookRec i).gen + 1)))[j]).life = .free
  by_cases same : j = i
  · subst same
    rw [put_get_same]
    rfl
  · rw [put_get_other _ _ (Ne.symm same)]
    exact free

theorem reseat_free {q : Asker} {i j : BookIx} {b : Body} {r : Room} {s : State} (free : (s.bookRec j).life = .free) :
    ((reseat q i b r s).bookRec j).life = .free := by
  unfold State.bookRec
  rw [reseat_book]
  by_cases same : j = i
  · subst same
    exact (congrArg BookRec.life (reseated_bookRec j b r s)).trans free
  · exact (congrArg BookRec.life (reseated_bookRec_other i b r s same)).trans free

theorem cascadeOne_free {q : Asker} {c : Cascade} {i j : BookIx} (free : (c.state.bookRec j).life = .free) :
    ((cascadeOne q c i).state.bookRec j).life = .free := by
  by_cases seeks : (c.state.bookRec i).body.state = .confirmed ∧ c.state.kindOf (c.state.zoneOf (c.state.bookRec i).body.room) = .pooled
  · cases chosen : choose c.state ⟨c.state.zoneOf (c.state.bookRec i).body.room, (c.state.bookRec i).body.span,
      (c.state.bookRec i).body.attendees.getD 1, some (c.state.bookRec i).body.room⟩ with
    | none =>
      rw [cascadeOne_unplaced seeks chosen]
      exact freeRecord_free free
    | some x =>
      rw [cascadeOne_reseated seeks chosen]
      exact reseat_free free
  · rw [cascadeOne_displaced seeks]
    exact freeRecord_free free

theorem cascade_free {q : Asker} {j : BookIx} (is : List BookIx) {c : Cascade} (free : (c.state.bookRec j).life = .free) :
    ((is.foldl (cascadeOne q) c).state.bookRec j).life = .free := by
  induction is generalizing c with
  | nil => exact free
  | cons i is ih => exact ih (cascadeOne_free free)

/-! ## The checks (03 R59) -/

section
variable {q : Asker} {room : Nat} {span : Span} {cause disp force : Nat} {u : State}

theorem blockRoomWork_unset (unset : u.clockSet .rbk = false) :
    blockRoomWork q ⟨room, span, cause, disp, force⟩ u = reply q .clockUnset [] u := if_pos (by simp [unset])

variable (set : u.clockSet .rbk = true)
include set

theorem blockRoomWork_bad (bad : 127 < room ∨ badSpan span = true ∨ 15 < cause ∨ 1 < force) :
    blockRoomWork q ⟨room, span, cause, disp, force⟩ u = reply q .badParam [] u := by
  unfold blockRoomWork
  rw [if_neg (by simp [set])]
  by_cases inRange : room < 128
  · exact (dif_pos inRange).trans (if_pos (by simpa [show ¬127 < room by omega, or_assoc] using bad))
  · exact dif_neg inRange

variable {r : Room} (good : ¬(badSpan span = true ∨ 15 < cause ∨ 1 < force))
include good

theorem blockRoomWork_unprepared {c : Code} (refused : prepareSpan u span = .error c) :
    blockRoomWork q ⟨r.val, span, cause, disp, force⟩ u = reply q c [] u := by
  unfold blockRoomWork
  simp only [set, refused]
  exact (if_neg (by simp)).trans ((dif_pos r.isLt).trans (if_neg (by simpa [or_assoc] using good)))

variable {sp : Span} (prepared : prepareSpan u span = .ok sp)
include prepared

/-- With the span prepared, the room's entries are judged. -/
theorem blockRoomWork_prepared : blockRoomWork q ⟨r.val, span, cause, disp, force⟩ u =
    if (u.roomRec r).cap = 0 then reply q .noRoom [] u
    else if (overlapping u r sp).any
        (fun e => e.summary = .claim || (u.bookRec e.index).pending = .attach || (u.bookRec e.index).pending = .move) then
      reply q .busyRecord [] u
    else
      let v := readAll ((overlapping u r sp).map Entry.index) u
      (blockRefused (overlapping v r sp) (force = 1) v).elim (carryBlock q ⟨r.val, span, cause, disp, force⟩ r sp v)
        (fun x => reply q x.1 x.2 v) := by
  unfold blockRoomWork
  simp only [set, prepared]
  refine (if_neg (by simp)).trans ((dif_pos r.isLt).trans ((if_neg (by simpa [or_assoc] using good)).trans ?_))
  simp only [Fin.eta]
  split
  · rfl
  · split
    · rfl
    · generalize readAll _ u = v
      generalize blockRefused _ _ v = x
      cases x with
      | none => rw [Option.elim_none]
      | some x => rw [Option.elim_some]

end

/-! ## The overlapping entries -/

section
variable {es : List Entry} {force : Bool} {v : State}

theorem blockRefused_damaged (damaged : ∃ e ∈ es, e.summary = .damaged) : blockRefused es force v = some (.damaged, []) :=
  if_pos (by simpa using damaged)

variable (sound : ∀ e ∈ es, e.summary ≠ .damaged)
include sound

theorem blockRefused_conflict {e : Entry} (found : es.find? (fun x => x.summary = .block) = some e) :
    blockRefused es force v = some (.conflict, conflictItems e) := by
  refine (if_neg (by simpa using sound)).trans ?_
  rw [found]

variable (clear : ∀ e ∈ es, e.summary ≠ .block)
include clear

theorem blockRefused_clear : blockRefused es force v =
    if es.any (fun e => e.summary = .active) && !force then some (.badState, [])
    else if v.freeIndex.isNone then some (.bookFull, []) else none := by
  have nothing : es.find? (fun x => x.summary = .block) = none := List.find?_eq_none.mpr fun e mem => by simpa using clear e mem
  refine (if_neg (by simpa using sound)).trans ?_
  rw [nothing]

end

theorem carryBlock_of_free {q : Asker} {a : BlockArg} {r : Room} {sp : Span} {v : State} {i : BookIx}
    (free : (((overlapping v r sp).map Entry.index).foldl (cascadeOne q) ⟨0, 0, v⟩).state.freeIndex = some i) :
    carryBlock q a r sp v =
      (let c := ((overlapping v r sp).map Entry.index).foldl (cascadeOne q) ⟨0, 0, v⟩
       reply q .ok (eBookingId (c.state.handle i) ++ e1 c.displaced ++ e1 c.reseated)
         (recordNotice .booked i (detail2 BState.block.toNat a.cause) (some q.port) (allocate i (blockBody q r sp a) c.state))) := by
  unfold carryBlock
  generalize ((overlapping v r sp).map Entry.index).foldl (cascadeOne q) ⟨0, 0, v⟩ = c at free ⊢
  have handle : (recordNotice .booked i (detail2 BState.block.toNat a.cause) (some q.port)
      (allocate i (blockBody q r sp a) c.state)).handle i = c.state.handle i := allocate_handle i _ c.state
  dsimp only
  rw [free, ← handle]

/-- Settles O31: the checks in their order, each record of the cascade, and the block written in a record that stayed free. -/
theorem blockRoomDisplacesOrReseats : Obligations.BlockRoomDisplacesOrReseats := by
  refine ⟨fun p h rest s room span cause disp force asks req => ?_,
    fun p h rest s r span sp cause disp force asks req clock first least most small flag standing start stop near serves => ?_, fun q c i => ?_⟩
  · intro refused bad
    have run := exec_blockRoom_of_asks asks req
    have badly : bad ↔ 127 < room ∨ badSpan span = true ∨ 15 < cause ∨ 1 < force := by
      rw [badSpan_iff]
      simp only [bad, or_assoc]
    have inRange (isGood : ¬bad) : room < 128 := by
      rw [badly] at isGood
      omega
    have good (isGood : ¬bad) : ¬(badSpan span = true ∨ 15 < cause ∨ 1 < force) := fun x => isGood (badly.mpr (.inr x))
    have clamp (isGood : ¬bad) (standing : s.bookSlot < span.start + span.len) : max span.start s.bookSlot +
        (span.start + span.len - max span.start s.bookSlot) = span.start + span.len := by
      omega
    refine ⟨fun unset => ?_, fun set isBad => ?_, fun set isGood ended => ?_, fun set isGood standing => ⟨fun far => ?_, fun near r is out => ?_⟩⟩
    · exact run.trans (congrArg Outcome.next (blockRoomWork_unset (u := s.bookTook p rest) unset))
    · exact run.trans (congrArg Outcome.next (blockRoomWork_bad (u := s.bookTook p rest) set (badly.mp isBad)))
    · exact run.trans (congrArg Outcome.next (blockRoomWork_unprepared (r := ⟨room, inRange isGood⟩) (u := s.bookTook p rest) set
        (good isGood) (prepareSpan_ended ended)))
    · exact run.trans (congrArg Outcome.next (blockRoomWork_unprepared (r := ⟨room, inRange isGood⟩) (u := s.bookTook p rest) set
        (good isGood) (prepareSpan_far (sp := ⟨max span.start s.bookSlot, _⟩) standing rfl (clamp isGood standing) far)))
    · subst is
      exact run.trans (congrArg Outcome.next ((blockRoomWork_prepared (u := s.bookTook p rest) set (good isGood)
        (prepareSpan_good (sp := ⟨max span.start s.bookSlot, _⟩) standing rfl (clamp isGood standing) near)).trans (if_pos out)))
  · intro q u es held v es' sound c b
    have good : ¬(badSpan span = true ∨ 15 < cause ∨ 1 < force) := by
      rw [badSpan_iff]
      omega
    have set : u.clockSet .rbk = true := clock
    have run := (exec_blockRoom_of_asks asks req).trans (congrArg Outcome.next
      ((blockRoomWork_prepared (u := u) set good (prepareSpan_good standing start stop near)).trans (if_neg serves)))
    have judged (free : held = false) : exec (.blockRoom p) s = .next
        ((blockRefused es' (force = 1) v).elim (carryBlock q ⟨r.val, span, cause, disp, force⟩ r sp v) (fun x => reply q x.1 x.2 v)) :=
      run.trans (congrArg Outcome.next (if_neg (Bool.not_eq_true _ ▸ free)))
    refine ⟨fun busy => run.trans (congrArg Outcome.next (if_pos busy)), fun free damaged => ?_, ?_, ?_, fun sounds => ?_⟩
    · rw [judged free, blockRefused_damaged damaged]
      rfl
    · rintro ⟨free, whole⟩ e found
      rw [judged free, blockRefused_conflict whole found]
      rfl
    · rintro ⟨free, whole⟩ clear
      rw [judged free, blockRefused_clear whole clear]
      refine ⟨fun active unforced => ?_, fun may => ?_⟩
      · rw [if_pos (by simpa [unforced] using active)]
        rfl
      · rw [if_neg (by
          obtain idle | forced := may
          · simpa using fun e mem is => absurd is (idle e mem)
          · simp [forced])]
        refine ⟨fun full => ?_, fun some => ?_⟩
        · rw [if_pos (by simp [full])]
          rfl
        · obtain ⟨j, wasFree⟩ := freeIndex_ne_none_iff.mp some
          obtain ⟨i, found⟩ := Option.ne_none_iff_exists'.mp (freeIndex_ne_none_iff.mpr ⟨j, cascade_free (q := q) (c := ⟨0, 0, v⟩) (es'.map Entry.index) wasFree⟩)
          refine ⟨i, found, ?_⟩
          have made := carryBlock_of_free (a := ⟨r.val, span, cause, disp, force⟩) (r := r) (sp := sp) (v := v) found
          rw [if_neg (by simpa using some), Option.elim_none, made]
          rfl
    · exact readAll_sound fun i mem => by
        obtain ⟨e, inside, rfl⟩ := List.mem_map.mp mem
        exact sounds e inside
  · intro s b k seeks choice t
    refine ⟨fun stays => cascadeOne_displaced stays, fun isSeeking full => cascadeOne_unplaced isSeeking full, fun r n isSeeking chosen => ?_⟩
    have moves : r ≠ b.room := by
      obtain ⟨fits, -⟩ := choose_eq_some_iff.mp chosen
      obtain ⟨-, -, -, other⟩ := candidate_iff.mp fits
      exact fun same => other (by rw [same])
    have one : cascadeOne q c i = ⟨c.displaced, c.reseated + 1, reseat q i b r s⟩ := cascadeOne_reseated isSeeking chosen
    have is : t = reseat q i b r s := by rw [show t = (cascadeOne q c i).state from rfl, one]
    have book : t.book = (reseated i b r s).book := by rw [is, reseat_book]
    have record (j : BookIx) : t.bookRec j = (reseated i b r s).bookRec j := by
      unfold State.bookRec
      rw [book]
    have schedule (x : Room) : t.schedule x = (reseated i b r s).schedule x := by
      unfold State.schedule
      rw [book]
    refine ⟨moves, by rw [one], by rw [one], (record i).trans (reseated_bookRec i b r s),
      fun j other => (record j).trans (reseated_bookRec_other i b r s other), (schedule _).trans (reseated_schedule_left i b s moves), ?_, fun ordered => ?_,
      fun r' new old => (schedule r').trans (reseated_schedule_other i b s new old), ?_, ?_⟩
    · rw [schedule, reseated_schedule_reached i b s moves]
      simpa using insertAll_perm (fun e => e) ((s.schedule b.room).filter (fun e => e.index = i)) (s.schedule r)
    · rw [schedule, reseated_schedule_reached i b s moves]
      exact ascending_insertAll _ ordered
    · rw [is, reseat_wires]
      refine ⟨_, rfl, rfl, rfl, rfl, rfl, rfl, rfl, fun alone => ?_⟩
      exact congrArg some (reseated_roomOf i b s moves alone)
    · rw [is]
      exact (only_reseat (by decide) (by decide)).mpr (.refl _ _)

end Sys2Proof.Machine

/-! PROOFS. What work on records can change (`Worked`), the passes of the book's tick and the deadlines of one record (03 R44, R50, R51,
R64). -/

namespace Sys2Proof.Machine

open Host

/-! ## Work on records -/

/-- From `s` to `t` the book has worked on records that `among` selects: every other record stands, no record has come to wait for a move,
and the book's exchanges, scrub pointer and boundary tables stand. What has been handed is indications, notices and messages to the
planner. -/
structure Worked (among : BookIx → Prop) (s t : State) : Prop where
  only : Only [.book, .wires] s t
  others : ∀ j, ¬among j → t.bookRec j = s.bookRec j
  still : ∀ j, (s.bookRec j).pending ≠ .move → (t.bookRec j).pending ≠ .move
  book : t.book.exchanges = s.book.exchanges ∧ t.book.scrub = s.book.scrub ∧ t.book.boundaryRooms = s.book.boundaryRooms ∧
    t.book.boundaryZones = s.book.boundaryZones
  wires : ∃ sched toPlanner notices, t.wires = { s.wires with sched := sched, toPlanner := toPlanner, notices := notices }

section
variable {among : BookIx → Prop} {s t u : State}

theorem Worked.refl (among : BookIx → Prop) (s : State) : Worked among s s :=
  ⟨.refl _ _, fun _ _ => rfl, fun _ h => h, ⟨rfl, rfl, rfl, rfl⟩, ⟨_, _, _, rfl⟩⟩

theorem Worked.trans (first : Worked among s t) (later : Worked among t u) : Worked among s u := by
  obtain ⟨only, others, still, ⟨exchanges, scrub, rooms, zones⟩, ⟨_, _, _, wires⟩⟩ := first
  obtain ⟨only', others', still', ⟨exchanges', scrub', rooms', zones'⟩, ⟨_, _, _, wires'⟩⟩ := later
  exact ⟨only.trans only', fun j not => (others' j not).trans (others j not), fun j h => still' j (still j h),
    ⟨exchanges'.trans exchanges, scrub'.trans scrub, rooms'.trans rooms, zones'.trans zones⟩, ⟨_, _, _, by rw [wires', wires]⟩⟩

theorem Worked.mono {more : BookIx → Prop} (worked : Worked among s t) (wider : ∀ j, among j → more j) : Worked more s t :=
  ⟨worked.only, fun j not => worked.others j (mt (wider j) not), worked.still, worked.book, worked.wires⟩

theorem Worked.foldl {α : Type} {f : State → α → State} (xs : List α) (each : ∀ s, ∀ x ∈ xs, Worked among s (f s x)) (s : State) :
    Worked among s (xs.foldl f s) := by
  induction xs generalizing s with
  | nil => exact .refl among s
  | cons x xs ih =>
    exact (each s x List.mem_cons_self).trans (ih (fun s y mem => each s y (List.mem_cons_of_mem _ mem)) _)

/-- A change that leaves every record. -/
theorem Worked.of_records (only : Only [.book, .wires] s t) (records : t.book.records = s.book.records)
    (book : t.book.exchanges = s.book.exchanges ∧ t.book.scrub = s.book.scrub ∧ t.book.boundaryRooms = s.book.boundaryRooms ∧
      t.book.boundaryZones = s.book.boundaryZones)
    (wires : ∃ sched toPlanner notices, t.wires = { s.wires with sched := sched, toPlanner := toPlanner, notices := notices }) :
    Worked among s t := by
  have same (j : BookIx) : t.bookRec j = s.bookRec j := by
    unfold State.bookRec
    rw [records]
  exact ⟨only, fun j _ => same j, fun j h => by rwa [same j], book, wires⟩

end

section
variable {i : BookIx} {s : State}

theorem setRec_worked {x : BookRec} (still : (s.bookRec i).pending ≠ .move → x.pending ≠ .move) : Worked (· = i) s (setRec i x s) := by
  refine ⟨only_setBook (by decide) |>.mpr (.refl _ _), fun j other => setRec_bookRec_other other x s, fun j h => ?_, ⟨rfl, rfl, rfl, rfl⟩,
    ⟨_, _, _, rfl⟩⟩
  by_cases same : j = i
  · subst same
    rw [setRec_bookRec_same]
    exact still h
  · rw [setRec_bookRec_other same]
    exact h

theorem setBody_worked (b : Body) : Worked (· = i) s (setBody i b s) := setRec_worked fun h => h

theorem setPending_worked {x : BPending} (settled : x ≠ .move) : Worked (· = i) s (setPending i x s) := setRec_worked fun _ => settled

theorem setSummary_worked (x : Summary) : Worked (· = i) s (setSummary i x s) :=
  .of_records ((only_setSummary (by decide) (by decide)).mpr (.refl _ _)) rfl ⟨rfl, rfl, rfl, rfl⟩ ⟨_, _, _, rfl⟩

theorem setState_worked (b : Body) (x : BState) : Worked (· = i) s (setState i b x s) := (setBody_worked _).trans (setSummary_worked _)

theorem recordNotice_worked (kind : NoticeKind) (detail : Nat) (cause : Option Port) : Worked (· = i) s (recordNotice kind i detail cause s) :=
  .of_records ((only_recordNotice (by decide)).mpr (.refl _ _)) rfl ⟨rfl, rfl, rfl, rfl⟩ ⟨_, _, _, rfl⟩

theorem setReleaseMarks_worked (x : Vector (Option Nat) 128) : Worked (· = i) s (s.setBook { s.book with releaseMarks := x }) :=
  .of_records (only_setBook (by decide) |>.mpr (.refl _ _)) rfl ⟨rfl, rfl, rfl, rfl⟩ ⟨_, _, _, rfl⟩

theorem freeRecord_worked (kind : NoticeKind) (detail : Nat) (cause : Option Port) : Worked (· = i) s (freeRecord i kind detail cause s) := by
  have records : (freeRecord i kind detail cause s).book.records = put s.book.records i (BookRec.blank ((s.bookRec i).gen + 1)) := by
    rw [freeRecord_eq]
    rfl
  have record (j : BookIx) : (freeRecord i kind detail cause s).bookRec j = (setRec i (BookRec.blank ((s.bookRec i).gen + 1)) s).bookRec j := by
    unfold State.bookRec
    rw [records]
    rfl
  refine ⟨(only_freeRecord (by decide) (by decide)).mpr (.refl _ _), fun j other => ?_, fun j h => ?_, ?_, ?_⟩
  · rw [record, setRec_bookRec_other other]
  · rw [record]
    exact (setRec_worked (x := BookRec.blank ((s.bookRec i).gen + 1)) fun _ => (by decide : BPending.none ≠ .move)).still j h
  · rw [freeRecord_eq]
    exact ⟨rfl, rfl, rfl, rfl⟩
  · rw [freeRecord_eq]
    exact ⟨_, _, _, rfl⟩

theorem damage_worked : Worked (· = i) s (damage i s) := by
  have marked (t : State) (x : Option BookIx) : Worked (· = i) t (t.setBook { t.book with trap := x }) :=
    .of_records (only_setBook (by decide) |>.mpr (.refl _ _)) rfl ⟨rfl, rfl, rfl, rfl⟩ ⟨_, _, _, rfl⟩
  have ruined : Worked (· = i) s (setSummary i .damaged (setRec i { s.bookRec i with life := .damaged } s)) :=
    (setRec_worked (x := { s.bookRec i with life := .damaged }) fun h => h).trans (setSummary_worked _)
  unfold damage
  dsimp only
  split
  · exact (ruined.trans (marked _ _)).trans (recordNotice_worked _ _ _)
  · exact ruined.trans (recordNotice_worked _ _ _)

theorem readBody_worked : Worked (· = i) s (readBody i s).2 := by
  unfold readBody
  dsimp only
  split
  · exact .refl _ s
  · split
    · exact (setBody_worked _).trans
        (.of_records (only_setBook (by decide) |>.mpr (.refl _ _)) rfl ⟨rfl, rfl, rfl, rfl⟩ ⟨_, _, _, rfl⟩)
    · exact damage_worked

theorem scrubOne_worked : Worked (· = i) s (scrubOne i s) := by
  unfold scrubOne
  split
  · exact readBody_worked
  · exact .refl _ s

/-- A read followed by work on what was read. -/
theorem Worked.of_read {o : Option Body} {t u : State} (read : readBody i s = (o, t)) (work : Worked (· = i) t u) : Worked (· = i) s u := by
  have first : Worked (· = i) s t := by
    have := readBody_worked (i := i) (s := s)
    rwa [read] at this
  exact first.trans work

theorem holdExpiryOn_worked (minute : Nat) : Worked (· = i) s (holdExpiryOn minute i s) := by
  unfold holdExpiryOn
  split
  · cases read : readBody i s with
    | mk o t =>
      refine .of_read read ?_
      cases o with
      | none => exact .refl _ t
      | some b =>
        dsimp only
        split
        · exact freeRecord_worked _ _ _
        · exact .refl _ t
  · exact .refl _ s

theorem endOn_worked (now : Nat) : Worked (· = i) s (endOn now i s) := by
  unfold endOn
  split
  · split
    · exact freeRecord_worked _ _ _
    · cases read : readBody i s with
      | mk o t =>
        refine .of_read read ?_
        cases o with
        | none => exact freeRecord_worked _ _ _
        | some b =>
          dsimp only
          split <;> exact freeRecord_worked _ _ _
  · exact .refl _ s

theorem noShow_worked (rooms : Vector RoomRec 128) (z : ZoneTable) (b : Body) : Worked (· = i) s (noShow rooms z i b s) := by
  unfold noShow
  dsimp only
  split
  · exact setState_worked _ _
  · exact (freeRecord_worked _ _ _).trans (setReleaseMarks_worked _)

theorem noShowOn_worked (rooms : Vector RoomRec 128) (z : ZoneTable) (now : Nat) : Worked (· = i) s (noShowOn rooms z now i s) := by
  unfold noShowOn
  split
  · cases read : readBody i s with
    | mk o t =>
      refine .of_read read ?_
      cases o with
      | none => exact .refl _ t
      | some b =>
        dsimp only
        split
        · exact noShow_worked _ _ _
        · exact .refl _ t
  · exact .refl _ s

theorem startOn_worked (now : Nat) : Worked (· = i) s (startOn now i s) := by
  unfold startOn
  split
  · cases read : readBody i s with
    | mk o t =>
      refine .of_read read ?_
      cases o with
      | none => exact .refl _ t
      | some b =>
        dsimp only
        split
        · exact setState_worked _ _
        · exact .refl _ t
  · exact .refl _ s

theorem heldDeadlines_worked (now : Nat) : Worked (· = i) s (heldDeadlines now i s) :=
  ((endOn_worked now).trans (noShowOn_worked _ _ now)).trans (startOn_worked now)

end

/-! ## The scrub (03 R64) -/

/-- A record as a read leaves it. -/
def BookRec.read (r : BookRec) : BookRec :=
  if r.life = .live then
    if r.body.faults = 0 then r
    else if r.body.faults = 1 then { r with body := { r.body with faults := 0 } } else { r with life := .damaged }
  else r

theorem BookRec.read_read (r : BookRec) : r.read.read = r.read := by
  unfold BookRec.read
  split_ifs <;> simp_all

theorem scrubOne_bookRec (i : BookIx) (s : State) : (scrubOne i s).bookRec i = (s.bookRec i).read := by
  unfold scrubOne BookRec.read
  split
  · by_cases none : (s.bookRec i).body.faults = 0
    · rw [readBody_sound none, if_pos none]
    · by_cases one : (s.bookRec i).body.faults = 1
      · rw [readBody_corrected one, if_neg none, if_pos one]
        exact put_get_same _ _ _
      · rw [readBody_damaged (by omega), if_neg none, if_neg one]
        exact damage_bookRec i s
  · rfl

theorem readAll_bookRec (is : List BookIx) (s : State) (i : BookIx) :
    (readAll is s).bookRec i = if i ∈ is then (s.bookRec i).read else s.bookRec i := by
  induction is generalizing s with
  | nil => rfl
  | cons j is ih =>
    change (readAll is (scrubOne j s)).bookRec i = _
    rw [ih]
    by_cases same : i = j
    · subst same
      rw [scrubOne_bookRec, BookRec.read_read, ite_self, if_pos List.mem_cons_self]
    · rw [(scrubOne_worked (i := j) (s := s)).others i same]
      simp [same]

/-- The 16 indices of a scrub (03 R64). -/
def State.scrubbed (s : State) : List BookIx := (List.range 16).map (fun n => Fin.ofNat 2048 (s.book.scrub.val + n))

theorem scrub_eq (s : State) : scrub s =
    (readAll s.scrubbed s).setBook { (readAll s.scrubbed s).book with scrub := Fin.ofNat 2048 (s.book.scrub.val + 16) } := by
  unfold scrub
  dsimp only
  rw [← State.scrubbed, ← readAll]

theorem scrub_bookRec (s : State) (i : BookIx) :
    (scrub s).bookRec i = if i ∈ s.scrubbed then (s.bookRec i).read else s.bookRec i := by
  rw [scrub_eq, ← readAll_bookRec]
  generalize readAll s.scrubbed s = v
  rfl

theorem foldl_read_eq_readAll (is : List BookIx) (s : State) :
    is.foldl (fun t i => if (t.bookRec i).life = .live then (readBody i t).2 else t) s = readAll is s := rfl

/-! ## The deadlines of one sound record (03 R44, R50, R51) -/

section
variable {i : BookIx} {s : State} {b : Body} {r : Room} {e : Entry} (sound : SoundRecord s i b r e)
include sound

theorem SoundRecord.readBody : readBody i s = (some b, s) := by
  obtain ⟨-, rfl, faultless, -⟩ := sound
  exact readBody_sound faultless

theorem SoundRecord.holdExpiryOn {minute m : Nat} (held : b.state = .held) (summary : e.summary = .held) (expiry : b.holdExpiry = some m) :
    holdExpiryOn minute i s = if m ≤ minute then freeRecord i .holdExpired 0 none s else s := by
  obtain ⟨live, -, -, found⟩ := id sound
  unfold Machine.holdExpiryOn
  rw [if_pos (by simp [live, found, summary]), sound.readBody]
  simp [held, expiry]

theorem SoundRecord.endOn_ended {now : Nat} (free : (s.bookRec i).pending ≠ .move) (ended : e.stop ≤ now) : endOn now i s =
    if b.state = .held then freeRecord i .holdExpired 1 none s else freeRecord i .ended (detail2 0 b.state.toNat) none s := by
  obtain ⟨live, -, -, found⟩ := id sound
  unfold endOn
  rw [if_pos (by simp [tested, live, free, found, ended]), if_neg (by simp [live]), sound.readBody]

theorem SoundRecord.endOn_running {now : Nat} (running : now < e.stop) : endOn now i s = s := by
  obtain ⟨-, -, -, found⟩ := sound
  exact if_neg (by simp [found, running])

theorem SoundRecord.noShowOn_due {rooms : Vector RoomRec 128} {z : ZoneTable} {now : Nat} (free : (s.bookRec i).pending ≠ .move)
    (summary : e.summary = .confirmed) (due : e.start + (z.attrOf r).g ≤ now) : noShowOn rooms z now i s =
      if b.state = .confirmed ∧ b.earlyIn = false then noShow rooms z i b s else s := by
  obtain ⟨live, -, -, found⟩ := id sound
  unfold noShowOn
  rw [if_pos (by simp [tested, live, free, found, summary, due]), sound.readBody]
  simp

theorem SoundRecord.noShowOn_early {rooms : Vector RoomRec 128} {z : ZoneTable} {now : Nat} (early : now < e.start + (z.attrOf r).g) :
    noShowOn rooms z now i s = s := by
  obtain ⟨-, -, -, found⟩ := sound
  exact if_neg (by simp [found, early])

theorem SoundRecord.startOn_due {now : Nat} (free : (s.bookRec i).pending ≠ .move) (summary : e.summary = .confirmed)
    (due : e.start ≤ now) : startOn now i s =
      if b.state = .confirmed ∧ b.earlyIn = true then setSummary i .active (setBody i { b with state := .active, earlyIn := false } s) else s := by
  obtain ⟨live, -, -, found⟩ := id sound
  unfold startOn
  rw [if_pos (by simp [tested, live, free, found, summary, due]), sound.readBody]
  simp only [Bool.and_eq_true, decide_eq_true_eq]
  rfl

theorem SoundRecord.startOn_early {now : Nat} (early : now < e.start) : startOn now i s = s := by
  obtain ⟨-, -, -, found⟩ := sound
  exact if_neg (by simp [found, early])

end

/-- A record that a move holds is left alone by the boundaries (03 R50). -/
theorem tested_of_move {i : BookIx} {s : State} (move : (s.bookRec i).pending = .move) : tested s i = false := by simp [tested, move]

theorem noShow_active {rooms : Vector RoomRec 128} {z : ZoneTable} {i : BookIx} {b : Body} {s : State}
    (kept : s.panelOnlineIn rooms b.room = false ∨ s.pwc.sstate = .retain ∨ (z.attrOf b.room).autorelease = false) :
    noShow rooms z i b s = setSummary i .active (setBody i { b with state := .active, unverified := true, checkinMinute := none } s) :=
  if_pos (by simpa [or_assoc] using kept)

theorem noShow_released {rooms : Vector RoomRec 128} {z : ZoneTable} {i : BookIx} {b : Body} {s : State}
    (online : s.panelOnlineIn rooms b.room = true) (supplied : s.pwc.sstate ≠ .retain) (auto : (z.attrOf b.room).autorelease = true) :
    noShow rooms z i b s =
      (let t := freeRecord i .released (z.attrOf b.room).g none s
       t.setBook { t.book with releaseMarks := put t.book.releaseMarks b.room (some (b.span.start + b.span.len)) }) :=
  if_neg (by simp [online, supplied, auto])

/-! ## The tick -/

theorem entryIxs_eq (p : Entry → Bool) (s : State) :
    entryIxs p s = (List.finRange 128).flatMap (fun r => ((s.schedule r).filter p).map Entry.index) := by
  have rooms : s.book.schedules.toList = (List.finRange 128).map (fun r => s.book.schedules[r]) := by
    apply List.ext_getElem <;> simp
  unfold entryIxs
  rw [rooms, List.flatMap_map]
  rfl

/-- The three passes of a slot boundary. -/
theorem bookBoundary_worked (now : Nat) (s : State) : Worked (fun _ => True)
    (s.setBook { s.book with boundaryRooms := s.rzt.rooms, boundaryZones := s.rzt.zones }) (bookBoundary now s) := by
  have ends (is : List BookIx) (t : State) : Worked (fun _ => True) t (is.foldl (fun t i => endOn now i t) t) :=
    .foldl is (fun t i _ => (endOn_worked (i := i) now).mono fun _ _ => trivial) t
  have noShows (is : List BookIx) (t : State) :
      Worked (fun _ => True) t (is.foldl (fun t i => noShowOn s.rzt.rooms s.rzt.zones now i t) t) :=
    .foldl is (fun t i _ => (noShowOn_worked (i := i) _ _ now).mono fun _ _ => trivial) t
  have starts (is : List BookIx) (t : State) : Worked (fun _ => True) t (is.foldl (fun t i => startOn now i t) t) :=
    .foldl is (fun t i _ => (startOn_worked (i := i) now).mono fun _ _ => trivial) t
  exact ((ends _ _).trans (noShows _ _)).trans (starts _ _)

/-- Settles O32: the tick by its passes, the scrub by its reads, and the deadline rows on one sound record. -/
theorem bookTakesATickByPasses : Obligations.BookTakesATickByPasses := by
  refine ⟨fun s c head => ?_, entryIxs_eq, fun s => ?_, fun i s b r e sound room => ?_⟩
  · intro u held v rooms z b w x y
    have run : exec .bookMinuteTick s = .next (settleTime (bookTick c u)) := exec_of_tick rfl head rfl
    have expired : Worked (fun _ => True) u held := .foldl _ (fun s i _ => (holdExpiryOn_worked (i := i) _).mono fun _ _ => trivial) _
    have tick : bookTick c u = if c.isSlotBoundary then bookBoundary c.slot v else v := rfl
    have passes : bookBoundary c.slot v = y := rfl
    have rzt : v.rzt = s.rzt := (((only_scrub (by decide) (by decide)).mpr expired.only).agree .rzt (by decide)).trans rfl
    have tables := (bookBoundary_worked c.slot v).book
    have pointer : v.book.scrub.val = (held.book.scrub.val + 16) % 2048 := by
      rw [show v = scrub held from rfl, scrub_eq]
      rfl
    rw [passes] at tables tick
    clear_value y v
    refine ⟨fun between => ?_, fun slot => ⟨?_, ?_, ?_⟩, ?_⟩
    · rw [run, tick, if_neg (by simpa [Clock.isSlotBoundary] using between)]
    · rw [run, tick, if_pos (by simpa [Clock.isSlotBoundary] using slot)]
    · rw [← rzt]
      exact tables.2.2.1
    · rw [← rzt]
      exact tables.2.2.2
    · rw [pointer, expired.book.2.1]
      rfl
  · intro ixs t v
    have eq : t = v.setBook { v.book with scrub := Fin.ofNat 2048 (s.book.scrub.val + 16) } := by
      rw [show v = readAll s.scrubbed s from foldl_read_eq_readAll s.scrubbed s]
      exact scrub_eq s
    refine ⟨eq, fun i => ?_⟩
    intro r
    have read : t.bookRec i = if i ∈ ixs then r.read else r := scrub_bookRec s i
    rw [read]
    unfold BookRec.read
    refine ⟨fun stands => ?_, fun mem live one => ?_, fun mem live two => ?_⟩
    · split_ifs <;> simp_all
    · rw [if_pos mem, if_pos live, if_neg (by omega), if_pos one]
    · rw [if_pos mem, if_pos live, if_neg (by omega), if_neg (by omega)]
  · subst room
    intro now boundary free a online released
    have slot (is : boundary) : (s.now .rbk).isSlotBoundary = true := decide_eq_true is
    refine ⟨fun m held summary expiry => ⟨fun due => ?_, fun early => ?_⟩, fun is free ended => ⟨fun held => ?_, fun other => ?_⟩,
      fun is free state summary fresh due => ⟨fun kept => ?_, fun on supplied auto => ?_⟩, fun is early => ?_,
      fun is free state summary early due => ?_, fun is moving => ?_⟩
    · exact congrArg Outcome.next ((sound.holdExpiryOn held summary expiry).trans (if_pos due))
    · exact congrArg Outcome.next ((sound.holdExpiryOn held summary expiry).trans (if_neg (Nat.not_le.mpr early)))
    · exact congrArg Outcome.next ((if_pos (slot is)).trans ((sound.endOn_ended free ended).trans (if_pos held)))
    · exact congrArg Outcome.next ((if_pos (slot is)).trans ((sound.endOn_ended free ended).trans (if_neg other)))
    · exact congrArg Outcome.next ((if_pos (slot is)).trans
        ((sound.noShowOn_due free summary due).trans ((if_pos ⟨state, fresh⟩).trans (noShow_active kept))))
    · exact congrArg Outcome.next ((if_pos (slot is)).trans
        ((sound.noShowOn_due free summary due).trans ((if_pos ⟨state, fresh⟩).trans (noShow_released on supplied auto))))
    · exact congrArg Outcome.next ((if_pos (slot is)).trans (sound.noShowOn_early early))
    · exact congrArg Outcome.next ((if_pos (slot is)).trans ((sound.startOn_due free summary due).trans (if_pos ⟨state, early⟩)))
    · have untested : tested s i = false := tested_of_move (not_not.mp moving)
      exact ⟨congrArg Outcome.next ((if_pos (slot is)).trans (if_neg (by simp [untested]))),
        congrArg Outcome.next ((if_pos (slot is)).trans (if_neg (by simp [untested]))),
        congrArg Outcome.next ((if_pos (slot is)).trans (if_neg (by simp [untested])))⟩

end Sys2Proof.Machine

/-! PROOFS. What the book does with OCU's requests: PANEL_CHECKIN, END_NOW, EXTEND, GHOST_RELEASE and WALKUP (03 R52, R54, R55). -/

namespace Sys2Proof.Machine

open Host

/-! ## Taking OCU's item -/

/-- A command that takes OCU's item, when it is the request it takes and OCU has the grant. -/
theorem exec_of_ocuAsks {c : Instr} {req : OcuRequest} {work : Item → State → BookOutcome × State} {s : State} {it : Item}
    (is : exec c s = .next (onOcuRequest req (giveOutcome work) s)) (grant : granted s = some .ocu) (item : s.ocu.presented = some it)
    (asks : it.request = req) {o : BookOutcome} {t : State} (does : work it (setGrant .ocu s) = (o, t)) :
    exec c s = .next (handOutcome o t) := by
  rw [is, onOcuRequest_of_granted grant item asks]
  unfold giveOutcome
  rw [does]

/-! ## The first sound record (03 R62) -/

section
variable {i : BookIx} {is : List BookIx} {s v : State}

theorem firstSound_passed (other : (s.bookRec i).life ≠ .live) : firstSound (i :: is) s = firstSound is s := if_neg other

theorem firstSound_found {b : Body} (live : (s.bookRec i).life = .live) (read : readBody i s = (some b, v)) :
    firstSound (i :: is) s = (some (i, b), v) := by
  unfold firstSound
  rw [if_pos live, read]

theorem firstSound_ruined (live : (s.bookRec i).life = .live) (read : readBody i s = (none, v)) :
    firstSound (i :: is) s = firstSound is v := by
  conv_lhs => unfold firstSound
  rw [if_pos live, read]

theorem readBody_releaseMarks (i : BookIx) (s : State) : (readBody i s).2.book.releaseMarks = s.book.releaseMarks := by
  by_cases none : (s.bookRec i).body.faults = 0
  · rw [readBody_sound none]
  · by_cases one : (s.bookRec i).body.faults = 1
    · rw [readBody_corrected one]
      rfl
    · rw [readBody_damaged (by omega), damage_eq]
      rfl

theorem firstSound_releaseMarks (is : List BookIx) (s : State) : (firstSound is s).2.book.releaseMarks = s.book.releaseMarks := by
  induction is generalizing s with
  | nil => rfl
  | cons i is ih =>
    by_cases live : (s.bookRec i).life = .live
    · have kept := readBody_releaseMarks i s
      cases read : readBody i s with
      | mk o v =>
        rw [read] at kept
        cases o with
        | none =>
          rw [firstSound_ruined live read, ih]
          exact kept
        | some b =>
          rw [firstSound_found live read]
          exact kept
    · rw [firstSound_passed live, ih]

variable {o : Option (BookIx × Body)} (found : firstSound is s = (o, v))
include found

/-- The reads leave everything but the book's records and what is handed. -/
theorem firstSound_only : Only [.book, .wires] s v := by
  have only : Only [.book, .wires] s (firstSound is s).2 := (only_firstSound (by decide) (by decide)).mpr (.refl _ _)
  rwa [found] at only

theorem firstSound_marks : v.book.releaseMarks = s.book.releaseMarks := by
  have marks := firstSound_releaseMarks is s
  rwa [found] at marks

theorem firstSound_bookSlot : v.bookSlot = s.bookSlot := by
  have times : v.times = s.times := (firstSound_only found).agree .times (by decide)
  unfold State.bookSlot State.now State.timeOf
  rw [times]

theorem firstSound_bookMinute : v.bookMinute = s.bookMinute := by
  have times : v.times = s.times := (firstSound_only found).agree .times (by decide)
  unfold State.bookMinute State.now State.timeOf
  rw [times]

theorem firstSound_attrOf (r : Room) : v.attrOf r = s.attrOf r := by
  have rzt : v.rzt = s.rzt := (firstSound_only found).agree .rzt (by decide)
  unfold State.attrOf State.zoneAttr State.zoneOf
  rw [rzt]

end

/-! ## PANEL_CHECKIN (03 R52) -/

theorem windowIxs_eq (s : State) (r : Room) : windowIxs s r = ((s.schedule r).filter (fun e =>
    decide (e.summary = .confirmed ∧ e.start ≤ s.bookSlot + (s.attrOf r).e ∧ s.bookSlot < e.start + (s.attrOf r).g))).map Entry.index := by
  unfold windowIxs inWindow
  simp only [Bool.decide_and]

theorem badgeCounts_iff {a : ZoneAttr} {badge : Option Nat} {b : Body} : badgeCounts a badge b = true ↔
    (a.badgeOnly = true → ∃ n o, badge = some n ∧ b.organiser = some o ∧ n = o.toNat % 16777216) := by
  unfold badgeCounts
  cases a.badgeOnly with
  | false => simp
  | true =>
    cases badge with
    | none => simp
    | some n => cases b.organiser <;> simp

section
variable {r : Room} {badge : Option Nat} {s v w : State}

/-- What a PANEL_CHECKIN does with the record found. -/
def judgeCheckin (work : BookIx → Body → Nat → Option Port → State → BookOutcome × State) (r : Room) (badge : Option Nat) (i : BookIx)
    (b : Body) (s : State) : BookOutcome × State :=
  if (s.bookRec i).pending = .move then (.busyRecord, s)
  else if badgeCounts (s.attrOf r) badge b then work i b (if badge.isSome then 1 else 0) none s
  else (.notOrganiser, s)

theorem panelCheckinOutcome_window {i : BookIx} {b : Body} (found : firstSound (windowIxs s r) s = (some (i, b), v)) :
    panelCheckinOutcome r badge s = judgeCheckin checkInConfirmed r badge i b v := by
  unfold panelCheckinOutcome
  rw [found]
  rfl

variable (nothing : firstSound (windowIxs s r) s = (none, w))
include nothing

theorem panelCheckinOutcome_active {i : BookIx} {b : Body} (found : firstSound (activeIxs w r) w = (some (i, b), v)) :
    panelCheckinOutcome r badge s = judgeCheckin checkInActive r badge i b v := by
  unfold panelCheckinOutcome
  rw [nothing]
  dsimp only
  rw [found]
  rfl

theorem panelCheckinOutcome_none (idle : firstSound (activeIxs w r) w = (none, v)) :
    panelCheckinOutcome r badge s = noneToCheckIn r v := by
  unfold panelCheckinOutcome
  rw [nothing]
  dsimp only
  rw [idle]

end

/-- Settles O33: the record found in the window, else the ACTIVE one, judged by the move, the badge and what it holds; else the mark. -/
theorem panelCheckInChoosesTheMeeting : Obligations.PanelCheckInChoosesTheMeeting := by
  refine ⟨fun s => ⟨rfl, fun i is => ⟨firstSound_passed, fun live => ⟨fun b v => firstSound_found live, fun v => firstSound_ruined live⟩⟩⟩,
    fun s it grant item asks => ?_⟩
  intro u path a gives
  have give {o : BookOutcome} {t : State} (does : panelCheckinOutcome it.room it.badge u = (o, t)) : gives o t :=
    exec_of_ocuAsks (work := fun it s => panelCheckinOutcome it.room it.badge s) rfl grant item asks does
  refine ⟨windowIxs_eq s it.room, rfl, fun b => badgeCounts_iff, fun i b v found => ?_, fun w nothing => ⟨fun i b v found => ?_, fun v idle => ?_⟩⟩
  · intro b' counts free
    have judged := panelCheckinOutcome_window (badge := it.badge) (s := u) found
    have slot : v.bookSlot = s.bookSlot := firstSound_bookSlot (s := u) found
    have minute : v.bookMinute = s.bookMinute := firstSound_bookMinute (s := u) found
    have attr : v.attrOf it.room = a := firstSound_attrOf (s := u) found it.room
    have counted (f : free) (c : counts) : panelCheckinOutcome it.room it.badge u = checkInConfirmed i b path none v :=
      judged.trans ((if_neg f).trans (if_pos (by rw [attr]; exact c)))
    refine ⟨fun moving => give (judged.trans (if_pos (not_not.mp moving))), fun f not => ?_, fun f c already => ?_, fun f c fresh before => ?_,
      fun f c fresh begun => ?_⟩
    · exact give (judged.trans ((if_neg f).trans (if_neg (by rw [attr]; exact not))))
    · exact give ((counted f c).trans (checkInConfirmed_already already))
    · have early := checkInConfirmed_early (i := i) (path := path) (cause := none) (s := v) fresh (by rw [slot]; exact before)
      rw [minute] at early
      exact give ((counted f c).trans early)
    · have now := checkInConfirmed_begun (i := i) (path := path) (cause := none) (s := v) fresh (by rw [slot]; exact begun)
      rw [minute] at now
      exact give ((counted f c).trans now)
  · intro counts free
    have judged := panelCheckinOutcome_active (badge := it.badge) (s := u) nothing found
    have minute : v.bookMinute = s.bookMinute := (firstSound_bookMinute found).trans (firstSound_bookMinute (s := u) nothing)
    have attr : v.attrOf it.room = a := (firstSound_attrOf found it.room).trans (firstSound_attrOf (s := u) nothing it.room)
    have counted (f : free) (c : counts) : panelCheckinOutcome it.room it.badge u = checkInActive i b path none v :=
      judged.trans ((if_neg f).trans (if_pos (by rw [attr]; exact c)))
    refine ⟨fun moving => give (judged.trans (if_pos (not_not.mp moving))), fun f not => ?_, fun f c verified => ?_, fun f c unverified => ?_⟩
    · exact give (judged.trans ((if_neg f).trans (if_neg (by rw [attr]; exact not))))
    · exact give ((counted f c).trans (checkInActive_verified verified))
    · have checked := checkInActive_unverified (i := i) (path := path) (cause := none) (s := v) unverified
      rw [minute] at checked
      exact give ((counted f c).trans checked)
  · have slot : v.bookSlot = s.bookSlot := (firstSound_bookSlot idle).trans (firstSound_bookSlot (s := u) nothing)
    have marks : v.book.releaseMarks = s.book.releaseMarks := (firstSound_marks idle).trans (firstSound_marks (s := u) nothing)
    have outcome := panelCheckinOutcome_none (badge := it.badge) (s := u) nothing idle
    unfold noneToCheckIn at outcome
    rw [marks, slot] at outcome
    exact give outcome

/-! ## END_NOW, EXTEND, GHOST_RELEASE, WALKUP (03 R54, R55) -/

section
variable {r : Room} {s v : State}

section
variable (idle : firstSound (activeIxs s r) s = (none, v))
include idle

theorem endNowOutcome_none : endNowOutcome r s = (.nothing, v) := by
  unfold endNowOutcome
  rw [idle]

theorem extendOutcome_none (n : Nat) : extendOutcome r n s = (.nothing, v) := by
  unfold extendOutcome
  rw [idle]

theorem ghostReleaseOutcome_none : ghostReleaseOutcome r s = (.nothing, v) := by
  unfold ghostReleaseOutcome
  rw [idle]

end

variable {i : BookIx} {b : Body} (found : firstSound (activeIxs s r) s = (some (i, b), v))
include found

theorem endNowOutcome_found : endNowOutcome r s = (.done none, freeRecord i .ended (detail2 1 BState.active.toNat) none v) := by
  unfold endNowOutcome
  rw [found]

theorem extendOutcome_found (n : Nat) : extendOutcome r n s =
    (let new := limitedEnd v r i (b.span.start + b.span.len) (min (b.span.start + b.span.len + n) (b.span.start + 96))
     if new ≤ b.span.start + b.span.len then (.noGain, v)
     else (.done none, recordNotice .changed i 3 none
       (changeEntry r i (fun e => { e with stop := new }) (setBody i { b with span := ⟨b.span.start, new - b.span.start⟩ } v)))) := by
  unfold extendOutcome
  rw [found]
  rfl

theorem ghostReleaseOutcome_found : ghostReleaseOutcome r s =
    if b.unverified then (.nothing, v)
    else
      let t := freeRecord i .ghostReleased (v.attrOf r).h none v
      (.done none, t.setBook { t.book with releaseMarks := put t.book.releaseMarks r (some (b.span.start + b.span.len)) }) := by
  unfold ghostReleaseOutcome
  rw [found]
  rfl

end

section
variable {r : Room} {badge : Option Nat} {s : State}

theorem walkupOutcome_out (out : (s.roomRec r).cap = 0) : walkupOutcome r badge s = (.noRoom, s) := if_pos out

variable (serves : (s.roomRec r).cap ≠ 0)
include serves

theorem walkupOutcome_denied (denied : (s.attrOf r).bookers.walkup = false) : walkupOutcome r badge s = (.denied, s) :=
  (if_neg serves).trans (if_pos (by simp [denied]))

variable (admitted : (s.attrOf r).bookers.walkup = true)
include admitted

theorem walkupOutcome_taken (taken : (s.schedule r).any (fun e => decide (e.start ≤ s.bookSlot ∧ s.bookSlot < e.stop)) = true) :
    walkupOutcome r badge s = (.noGain, s) := by
  simp only [Bool.decide_and] at taken
  exact (if_neg serves).trans ((if_neg (by simp [admitted])).trans (if_pos taken))

variable (vacant : (s.schedule r).any (fun e => decide (e.start ≤ s.bookSlot ∧ s.bookSlot < e.stop)) = false)
include vacant

theorem walkupOutcome_full (full : s.freeIndex = none) : walkupOutcome r badge s = (.bookFull, s) := by
  simp only [Bool.decide_and] at vacant
  refine (if_neg serves).trans ((if_neg (by simp [admitted])).trans ((if_neg (by simp [vacant])).trans ?_))
  rw [full]

theorem walkupOutcome_done {i : BookIx} (free : s.freeIndex = some i) : walkupOutcome r badge s =
    (let stop := ((s.schedule r).filter (fun e => decide (s.bookSlot < e.start))).foldl (fun m e => min m e.start) (s.bookSlot + 6)
     (.done (some (s.handle i)), recordNotice .walkup i (stop - s.bookSlot) none
       (allocate i (walkupBody r badge s.bookSlot stop s.bookMinute) s))) := by
  simp only [Bool.decide_and] at vacant
  refine (if_neg serves).trans ((if_neg (by simp [admitted])).trans ((if_neg (by simp [vacant])).trans ?_))
  rw [free]
  dsimp only
  generalize List.foldl _ _ _ = stop
  have handle : (recordNotice .walkup i (stop - s.bookSlot) none (allocate i (walkupBody r badge s.bookSlot stop s.bookMinute) s)).handle i =
      s.handle i := allocate_handle i _ s
  rw [handle]

end

/-- Settles O34: each request on the ACTIVE record found, or its outcome without one. -/
theorem ocuRequestsActOnTheRoom : Obligations.OcuRequestsActOnTheRoom := by
  refine ⟨fun s it grant item => ?_, fun s it grant item asks => ?_⟩
  · intro u r
    have ends (asks : it.request = .endNow) {o : BookOutcome} {t : State} (does : endNowOutcome r u = (o, t)) :
        exec .endNow s = .next (handOutcome o t) :=
      exec_of_ocuAsks (work := fun it s => endNowOutcome it.room s) rfl grant item asks does
    have extends_ (asks : it.request = .extend) {o : BookOutcome} {t : State} (does : extendOutcome r (it.slots.getD 0) u = (o, t)) :
        exec .extend s = .next (handOutcome o t) :=
      exec_of_ocuAsks (work := fun it s => extendOutcome it.room (it.slots.getD 0) s) rfl grant item asks does
    have releases (asks : it.request = .ghostRelease) {o : BookOutcome} {t : State} (does : ghostReleaseOutcome r u = (o, t)) :
        exec .ghostRelease s = .next (handOutcome o t) :=
      exec_of_ocuAsks (work := fun it s => ghostReleaseOutcome it.room s) rfl grant item asks does
    refine ⟨fun v idle => ⟨fun asks => ends asks (endNowOutcome_none idle), fun asks => extends_ asks (extendOutcome_none idle _),
      fun asks => releases asks (ghostReleaseOutcome_none idle)⟩,
      fun i b v found => ⟨fun asks => ends asks (endNowOutcome_found found), fun n asks slots => ?_, fun asks => ?_⟩⟩
    · intro old new
      have outcome := extendOutcome_found (s := u) found (it.slots.getD 0)
      rw [show it.slots.getD 0 = n by rw [slots]; rfl] at outcome
      refine ⟨fun short => extends_ asks ?_, fun gains => extends_ asks ?_⟩
      · rw [show it.slots.getD 0 = n by rw [slots]; rfl]
        exact outcome.trans (if_pos short)
      · rw [show it.slots.getD 0 = n by rw [slots]; rfl]
        exact outcome.trans (if_neg (Nat.not_le.mpr gains))
    · intro freed
      have attr : v.attrOf r = s.attrOf r := firstSound_attrOf (s := u) found r
      have outcome := ghostReleaseOutcome_found (s := u) found
      rw [attr] at outcome
      exact ⟨fun unverified => releases asks (outcome.trans (if_pos unverified)),
        fun verified => releases asks (outcome.trans (if_neg (by simp [verified])))⟩
  · intro u r now taken
    have walks {o : BookOutcome} {t : State} (does : walkupOutcome r it.badge u = (o, t)) : exec .walkup s = .next (handOutcome o t) :=
      exec_of_ocuAsks (work := fun it s => walkupOutcome it.room it.badge s) rfl grant item asks does
    refine ⟨fun out => walks (walkupOutcome_out (s := u) out), fun serves denied => walks (walkupOutcome_denied (s := u) serves denied),
      fun serves admitted => ⟨fun is => walks (walkupOutcome_taken (s := u) serves admitted is),
        fun vacant full => walks (walkupOutcome_full (s := u) serves admitted vacant full), fun i vacant free => ?_⟩⟩
    exact walks (walkupOutcome_done (s := u) serves admitted vacant free)

end Sys2Proof.Machine

/-! PROOFS. The answers to moves and the deadlines they held back (03 R49), and the book's reaction to an apply and to a stop (R65, R68). -/

namespace Sys2Proof.Machine

open Host

/-! ## Settling a claim (03 R40, R49) -/

section
variable {i : BookIx} {s : State} {x : Summary} {e : Entry}

theorem settleClaim_other (moved : Bool) {r : Room} (other : r ≠ s.roomOf i) : (settleClaim i moved x s).schedule r = s.schedule r :=
  setSchedule_schedule_other other _ _

/-- As moved, what stands is the entries of others and the claim with the record's summary. -/
theorem mem_settleClaim_moved : e ∈ (settleClaim i true x s).schedule (s.roomOf i) ↔
    (e ∈ s.schedule (s.roomOf i) ∧ e.index ≠ i) ∨
      ∃ c ∈ s.schedule (s.roomOf i), c.index = i ∧ c.summary = .claim ∧ e = { c with summary := x } := by
  unfold settleClaim
  rw [setSchedule_schedule_same, if_pos rfl, List.mem_map]
  constructor
  · rintro ⟨c, mem, rfl⟩
    obtain ⟨mem, kept⟩ := List.mem_filter.mp mem
    by_cases index : c.index = i
    · rw [if_pos index]
      exact .inr ⟨c, mem, index, by simpa [index] using kept, rfl⟩
    · rw [if_neg index]
      exact .inl ⟨mem, index⟩
  · rintro (⟨mem, other⟩ | ⟨c, mem, index, claim, rfl⟩)
    · exact ⟨e, List.mem_filter.mpr ⟨mem, by simp [other]⟩, if_neg other⟩
    · exact ⟨c, List.mem_filter.mpr ⟨mem, by simp [claim]⟩, if_pos index⟩

/-- Not moved, the claim entry goes. -/
theorem mem_settleClaim_unmoved : e ∈ (settleClaim i false x s).schedule (s.roomOf i) ↔
    e ∈ s.schedule (s.roomOf i) ∧ ¬(e.index = i ∧ e.summary = .claim) := by
  unfold settleClaim
  rw [setSchedule_schedule_same, if_neg (by simp), List.mem_filter]
  simp [imp_iff_not_or]

theorem settleClaim_worked (moved : Bool) : Worked (· = i) s (settleClaim i moved x s) :=
  .of_records ((only_settleClaim (by decide) (by decide)).mpr (.refl _ _)) rfl ⟨rfl, rfl, rfl, rfl⟩ ⟨_, _, _, rfl⟩

end

/-! ## The deadlines held back (03 R49) -/

section
variable {i : BookIx} {s : State} {now : Nat}

theorem tested_of_free (free : (s.bookRec i).life = .free) : tested s i = false := by simp [tested, free]

theorem noShowOn_untested {rooms : Vector RoomRec 128} {z : ZoneTable} (untested : tested s i = false) : noShowOn rooms z now i s = s :=
  if_neg (by simp [untested])

theorem startOn_untested (untested : tested s i = false) : startOn now i s = s := if_neg (by simp [untested])

theorem noShowOn_other {rooms : Vector RoomRec 128} {z : ZoneTable} (sound : (s.bookRec i).body.faults = 0)
    (other : ¬((s.bookRec i).body.state = .confirmed ∧ (s.bookRec i).body.earlyIn = false)) : noShowOn rooms z now i s = s := by
  unfold noShowOn
  split
  · rw [readBody_sound sound]
    exact if_neg (by simpa using other)
  · rfl

theorem startOn_other (sound : (s.bookRec i).body.faults = 0)
    (other : ¬((s.bookRec i).body.state = .confirmed ∧ (s.bookRec i).body.earlyIn = true)) : startOn now i s = s := by
  unfold startOn
  split
  · rw [readBody_sound sound]
    exact if_neg (by simpa using other)
  · rfl

theorem heldDeadlines_untested (untested : tested s i = false) : heldDeadlines now i s = s := by
  unfold heldDeadlines
  rw [show endOn now i s = s from if_neg (by simp [untested]), noShowOn_untested untested, startOn_untested untested]

theorem freeRecord_bookRec (kind : NoticeKind) (detail : Nat) (cause : Option Port) (s : State) :
    (freeRecord i kind detail cause s).bookRec i = BookRec.blank ((s.bookRec i).gen + 1) := by
  rw [freeRecord_eq]
  exact put_get_same _ _ _

theorem freeRecord_untested (kind : NoticeKind) (detail : Nat) (cause : Option Port) (s : State) :
    tested (freeRecord i kind detail cause s) i = false :=
  tested_of_free (by rw [freeRecord_bookRec]; rfl)

variable {b : Body} {r : Room} {e : Entry} (sound : SoundRecord s i b r e)
include sound

theorem SoundRecord.heldDeadlines_ended (free : (s.bookRec i).pending ≠ .move) (ended : e.stop ≤ now) : heldDeadlines now i s =
    if b.state = .held then freeRecord i .holdExpired 1 none s else freeRecord i .ended (detail2 0 b.state.toNat) none s := by
  unfold heldDeadlines
  rw [sound.endOn_ended free ended]
  split <;> rw [noShowOn_untested (freeRecord_untested _ _ _ _), startOn_untested (freeRecord_untested _ _ _ _)]

variable (running : now < e.stop)
include running

theorem SoundRecord.heldDeadlines_running : heldDeadlines now i s = startOn now i (noShowOn s.rzt.rooms s.rzt.zones now i s) := by
  unfold heldDeadlines
  rw [sound.endOn_running running]

theorem SoundRecord.heldDeadlines_other (other : b.state ≠ .confirmed) : heldDeadlines now i s = s := by
  obtain ⟨-, rfl, faultless, -⟩ := id sound
  rw [sound.heldDeadlines_running running, noShowOn_other faultless (fun is => other is.1), startOn_other faultless (fun is => other is.1)]

theorem SoundRecord.heldDeadlines_early (early : b.earlyIn = true) : heldDeadlines now i s = startOn now i s := by
  obtain ⟨-, rfl, faultless, -⟩ := id sound
  rw [sound.heldDeadlines_running running, noShowOn_other faultless (fun is => by simp [early] at is)]

variable (fresh : b.earlyIn = false)
include fresh

theorem SoundRecord.heldDeadlines_waiting (waiting : now < e.start + (s.attrOf r).g) : heldDeadlines now i s = s := by
  obtain ⟨-, rfl, faultless, -⟩ := id sound
  rw [sound.heldDeadlines_running running, sound.noShowOn_early waiting, startOn_other faultless (fun is => by simp [fresh] at is)]

variable (free : (s.bookRec i).pending ≠ .move) (summary : e.summary = .confirmed) (due : e.start + (s.attrOf r).g ≤ now)
  (state : b.state = .confirmed)
include free summary due state

theorem SoundRecord.heldDeadlines_unverified
    (kept : s.panelOnline b.room = false ∨ s.pwc.sstate = .retain ∨ (s.attrOf b.room).autorelease = false) :
    heldDeadlines now i s =
      setSummary i .active (setBody i { b with state := .active, unverified := true, checkinMinute := none } s) := by
  have faultless : b.faults = 0 := sound.2.2.1
  have active : noShowOn s.rzt.rooms s.rzt.zones now i s =
      setSummary i .active (setBody i { b with state := .active, unverified := true, checkinMinute := none } s) :=
    (sound.noShowOn_due free summary due).trans ((if_pos ⟨state, fresh⟩).trans (noShow_active kept))
  have record : (setSummary i .active (setBody i { b with state := .active, unverified := true, checkinMinute := none } s)).bookRec i =
      { s.bookRec i with body := { b with state := .active, unverified := true, checkinMinute := none } } := setBody_bookRec i _ s
  rw [sound.heldDeadlines_running running, active]
  exact startOn_other (by rw [record]; exact faultless) (by rw [record]; simp)

theorem SoundRecord.heldDeadlines_released (online : s.panelOnline b.room = true) (supplied : s.pwc.sstate ≠ .retain)
    (auto : (s.attrOf b.room).autorelease = true) : heldDeadlines now i s =
      (let t := freeRecord i .released (s.attrOf b.room).g none s
       t.setBook { t.book with releaseMarks := put t.book.releaseMarks b.room (some (b.span.start + b.span.len)) }) := by
  have released := (sound.noShowOn_due free summary due).trans ((if_pos ⟨state, fresh⟩).trans (noShow_released online supplied auto))
  rw [sound.heldDeadlines_running running, released]
  exact startOn_untested (freeRecord_untested .released (s.attrOf b.room).g none s)

end

/-! ## Completing a move (03 R49) -/

theorem bookSlot_of_only {s t : State} (only : Only [.book, .wires] s t) : t.bookSlot = s.bookSlot := by
  have times : t.times = s.times := only.agree .times (by decide)
  unfold State.bookSlot State.now State.timeOf
  rw [times]

theorem answerExchange_only (x : Exchange) (code : Code) (items : List Byte) (s : State) :
    Only [.book, .wires] s (answerExchange x code items s) :=
  (only_answerExchange (by decide)).mpr (.refl _ _)

section
variable {x : Exchange} {span : Span} {att : Option Nat} {s : State}

/-- The held deadlines are taken at the slot that stood before the move was settled. -/
theorem heldDeadlines_after {i : BookIx} {t : State} (only : Only [.book, .wires] s t) :
    heldDeadlines t.bookSlot i t = heldDeadlines s.bookSlot i t := by
  rw [bookSlot_of_only only]

theorem completeMove_damaged {failure : Option Code} (damaged : (s.bookRec x.id.index).life = .damaged) :
    completeMove x span att failure s = heldDeadlines s.bookSlot x.id.index
      (answerExchange x .damaged [] (setPending x.id.index .none (settleClaim x.id.index failure.isNone .damaged s))) := by
  unfold completeMove
  dsimp only
  rw [if_pos damaged]
  exact heldDeadlines_after (((settleClaim_worked _).trans (setPending_worked (by decide))).only.trans (answerExchange_only _ _ _ _))

variable (sound : (s.bookRec x.id.index).life ≠ .damaged)
include sound

theorem completeMove_failed {c : Code} : completeMove x span att (some c) s = heldDeadlines s.bookSlot x.id.index
    (answerExchange x c [] (setPending x.id.index .none (settleClaim x.id.index false .confirmed s))) := by
  unfold completeMove
  dsimp only
  rw [if_neg sound]
  exact heldDeadlines_after (((settleClaim_worked _).trans (setPending_worked (by decide))).only.trans (answerExchange_only _ _ _ _))

theorem completeMove_ruined {v : State} (read : readBody x.id.index s = (none, v)) :
    completeMove x span att none s = heldDeadlines s.bookSlot x.id.index
      (answerExchange x .damaged [] (setPending x.id.index .none (settleClaim x.id.index true .damaged v))) := by
  unfold completeMove
  dsimp only
  rw [if_neg sound, read]
  exact heldDeadlines_after ((Worked.of_read read ((settleClaim_worked _).trans (setPending_worked (by decide)))).only.trans
    (answerExchange_only _ _ _ _))

theorem completeMove_moved {b : Body} {v : State} (read : readBody x.id.index s = (some b, v)) :
    completeMove x span att none s = heldDeadlines s.bookSlot x.id.index
      (answerExchange x .ok [] (recordNotice .changed x.id.index 2 (x.who.map Prod.fst) (setPending x.id.index .none
        (setBody x.id.index (b.moved span att v) (settleClaim x.id.index true b.state.summary v))))) := by
  unfold completeMove
  dsimp only
  rw [if_neg sound, read]
  refine heldDeadlines_after ((Worked.of_read read ?_).only.trans (answerExchange_only _ _ _ _))
  exact (((settleClaim_worked _).trans (setBody_worked _)).trans (setPending_worked (by decide))).trans (recordNotice_worked _ _ _)

end

/-- The book has no pending move of a number when no exchange of that number is one. -/
theorem moveOpen_eq_false {s : State} {n : Nat} (attaches : ∀ x ∈ s.book.exchanges, x.serial = n → x.move = none) : s.moveOpen n = false := by
  unfold State.moveOpen
  rw [List.any_eq_false]
  intro x mem
  by_cases serial : x.serial = n
  · simp [attaches x mem serial]
  · simp [serial]

/-- The answer to a pending move completes it. -/
theorem moveAnswerWork_open {s : State} {n : Nat} {o : OrderId} {failure : Option Code} {x : Exchange} {rest : List Exchange} {sp : Span}
    {att : Option Nat} (found : takeExchange (fun y => y.serial = n && y.move.isSome) s.book.exchanges = some (x, rest))
    (move : x.move = some (sp, att)) : moveAnswerWork n o failure s =
      (let left := s.setBook { s.book with exchanges := rest }
       completeMove x sp att failure (if failure = none then left.setWires { left.wires with taken := left.wires.taken ++ [o] } else left)) := by
  unfold moveAnswerWork
  rw [if_pos (moveOpen_iff.mpr ⟨x, rest, found⟩)]
  unfold moveAnswered
  rw [found]
  dsimp only
  rw [move]
  cases failure <;> rfl

/-- Settles O35: an answer completes its own move by the state of the record, or is discarded. -/
theorem moveAnswerCompletesTheMove : Obligations.MoveAnswerCompletesTheMove := by
  refine ⟨fun s k id o failure head => ?_, fun s i moved x e named => ?_, fun now s i b r e sound => ?_⟩
  · intro taken
    have run : exec .moveAnswer s = .next (moveAnswerWork k o failure taken) := by
      have is : exec .moveAnswer s = execMoveAnswer s := rfl
      rw [is, execMoveAnswer, takePlan, head]
      rfl
    refine ⟨fun x rest sp people found move => ?_, fun discarded => ?_⟩
    · intro i left u told goesOn
      have run := run.trans (congrArg Outcome.next (moveAnswerWork_open (s := taken) found move))
      have life : (u.bookRec i).life = (s.bookRec i).life := by
        simp only [u]
        split <;> rfl
      have slot : u.bookSlot = s.bookSlot := by
        simp only [u]
        split <;> rfl
      have tell (c : Code) (t : State) : answerExchange x c [] t = told c t := rfl
      have go {t : State} (is : completeMove x sp people failure u = heldDeadlines u.bookSlot i t) : goesOn t := by
        rw [slot] at is
        exact run.trans (congrArg Outcome.next is)
      refine ⟨fun damaged => go (completeMove_damaged (life.trans damaged)), fun whole => ?_⟩
      have whole : (u.bookRec i).life ≠ .damaged := by rwa [life]
      refine ⟨?_, ?_, ?_⟩
      · rintro c rfl
        exact go (completeMove_failed whole)
      · rintro v rfl read
        exact go (completeMove_ruined whole read)
      · rintro b v rfl read
        intro b'
        have rzt : v.rzt = s.rzt := by
          have reads : Only [.book, .wires] u v := by
            have := (readBody_worked (i := i) (s := u)).only
            rwa [read] at this
          exact reads.agree .rzt (by decide)
        have capped : b.moved sp people v = b' := by
          unfold Body.moved exceedsCap State.roomRec
          rw [rzt]
          rfl
        rw [← capped]
        exact go (completeMove_moved whole read)
    · have closed : taken.moveOpen k = false := moveOpen_eq_false discarded
      have run := run.trans (congrArg Outcome.next (if_neg (by simp [closed])))
      refine ⟨fun failed => run.trans (congrArg Outcome.next (if_pos failed)), ?_, ?_⟩
      · rintro rfl before
        exact run.trans (congrArg Outcome.next ((if_neg (by simp)).trans (if_pos before)))
      · rintro rfl after
        exact run.trans (congrArg Outcome.next ((if_neg (by simp)).trans (if_neg (Nat.not_lt.mpr after))))
  · intro r t
    refine ⟨fun e mem other => ?_, fun e mem other => ?_, fun e mem index => ?_, ?_, ?_, ?_, ?_, fun r' other => settleClaim_other moved other, rfl,
      (settleClaim_worked moved).only⟩
    · cases moved
      · exact mem_settleClaim_unmoved.mpr ⟨mem, fun is => other is.1⟩
      · exact mem_settleClaim_moved.mpr (.inl ⟨mem, other⟩)
    · cases moved
      · exact (mem_settleClaim_unmoved.mp mem).1
      · obtain ⟨mem, -⟩ | ⟨c, -, index, -, rfl⟩ := mem_settleClaim_moved.mp mem
        · exact mem
        · exact absurd index other
    · cases moved
      · exact fun claim => (mem_settleClaim_unmoved.mp mem).2 ⟨index, claim⟩
      · obtain ⟨-, other⟩ | ⟨c, -, -, -, rfl⟩ := mem_settleClaim_moved.mp mem
        · exact absurd index other
        · exact named
    · rintro rfl mem index claim
      exact mem_settleClaim_moved.mpr (.inr ⟨e, mem, index, claim, rfl⟩)
    · rintro rfl mem index
      obtain ⟨-, other⟩ | claimed := mem_settleClaim_moved.mp mem
      · exact absurd index other
      · exact claimed
    · rintro rfl mem index other
      exact mem_settleClaim_unmoved.mpr ⟨mem, fun is => other is.2⟩
    · rintro rfl mem
      exact (mem_settleClaim_unmoved.mp mem).1
  · refine ⟨fun early running => ?_, fun free ended => ⟨fun held => ?_, fun other => ?_⟩, fun move => heldDeadlines_untested (tested_of_move move),
      fun running other => sound.heldDeadlines_other running other, fun free running state summary room => ?_⟩
    · rw [sound.heldDeadlines_running running, sound.noShowOn_early (Nat.lt_add_right _ early), sound.startOn_early early]
    · exact (sound.heldDeadlines_ended free ended).trans (if_pos held)
    · exact (sound.heldDeadlines_ended free ended).trans (if_neg other)
    · subst room
      intro a released unverified
      exact ⟨fun fresh waiting => sound.heldDeadlines_waiting running fresh waiting,
        fun fresh due => ⟨fun kept => sound.heldDeadlines_unverified running fresh free summary due state kept,
          fun online supplied auto => sound.heldDeadlines_released running fresh free summary due state online supplied auto⟩,
        fun early due => (sound.heldDeadlines_early running early).trans
          ((sound.startOn_due free summary due).trans (if_pos ⟨state, early⟩))⟩

/-! ## Re-evaluation (03 R65) -/

section
variable {s : State} {i : BookIx} {b : Body} (live : (s.bookRec i).life = .live) (body : (s.bookRec i).body = b) (sound : b.faults = 0)
include live body sound

theorem reevaluate_sound : reevaluate s i =
    (let exceeds := exceedsCap s b.room b.attendees
     let t := setBody i { b with overCapacity := exceeds } s
     if exceeds = true ∧ b.overCapacity = false then
       recordNotice .overCapacity i (detail2 (b.attendees.getD 0) (s.roomRec b.room).cap) none t
     else t) := by
  subst body
  unfold reevaluate
  rw [if_pos live, readBody_sound sound]
  dsimp only
  simp only [Bool.and_eq_true, Bool.not_eq_true']
  rfl

end

/-! ## The stop (03 R68) -/

/-- A command that takes a message of PWC for a receiver. -/
theorem exec_of_supply {α : Type} {c : Instr} {i : Fin 12} {sel : SupplyMsg → Option α} {work : α → State → State} {s : State} {m : SupplyMsg}
    {a : α} (is : exec c s = .next (takeSupply i sel work s)) (head : s.wires.supply[i].head? = some m) (chosen : sel m = some a) :
    exec c s = .next (settleSupply (work a (popSupply i s))) := by
  rw [is, takeSupply_of_head head chosen]

theorem popSupply_supply_other {i j : Fin 12} (other : j ≠ i) (s : State) : (popSupply i s).wires.supply[j] = s.wires.supply[j] := by
  rw [popSupply_wires]
  exact modAt_get_other _ _ other.symm

/-- A pending move completed as not moved, its port not answered. -/
def dropMove (t : State) (x : Exchange) : State :=
  heldDeadlines t.bookSlot x.id.index (setPending x.id.index .none (settleClaim x.id.index false .confirmed t))

theorem stopMove_eq {s : State} {x : Exchange} (move : x.move.isSome = true) : stopMove s x = dropMove s x := by
  unfold stopMove
  split
  · next span att _ =>
    by_cases damaged : (s.bookRec x.id.index).life = .damaged
    · exact completeMove_damaged (x := { x with who := none }) damaged
    · exact completeMove_failed (x := { x with who := none }) damaged
  · next none => simp [none] at move

theorem dropMove_worked (t : State) (x : Exchange) : Worked (· = x.id.index) t (dropMove t x) :=
  ((settleClaim_worked false).trans (setPending_worked (by decide))).trans (heldDeadlines_worked _)

theorem dropMove_settled (t : State) (x : Exchange) : ((dropMove t x).bookRec x.id.index).pending ≠ .move := by
  refine (heldDeadlines_worked (i := x.id.index) t.bookSlot).still _ ?_
  rw [setPending, setRec_bookRec_same]
  simp

theorem foldl_dropMove_worked (moves : List Exchange) (t : State) :
    Worked (fun j => ∃ x ∈ moves, x.id.index = j) t (moves.foldl dropMove t) :=
  .foldl moves (fun t x mem => (dropMove_worked t x).mono fun _ is => ⟨x, mem, is.symm⟩) t

theorem foldl_dropMove_settled (moves : List Exchange) (t : State) {x : Exchange} (mem : x ∈ moves) :
    ((moves.foldl dropMove t).bookRec x.id.index).pending ≠ .move := by
  induction moves generalizing t with
  | nil => simp at mem
  | cons y moves ih =>
    rw [List.foldl_cons]
    obtain rfl | later := List.mem_cons.mp mem
    · exact (foldl_dropMove_worked moves _).still _ (dropMove_settled t x)
    · exact ih _ later

/-- An exchange as a stop leaves it: nobody waits for the answer to an attach. -/
def Exchange.stopped (x : Exchange) : Exchange := if x.move.isNone then { x with who := none } else x

theorem Exchange.stopped_move (x : Exchange) : x.stopped.move = x.move := by
  unfold Exchange.stopped
  split <;> rfl

theorem filter_moves_stopped (xs : List Exchange) :
    (xs.map Exchange.stopped).filter (fun x => x.move.isSome) = xs.filter (fun x => x.move.isSome) := by
  rw [List.filter_map]
  simp only [Function.comp_def, Exchange.stopped_move]
  refine (List.map_congr_left fun x mem => ?_).trans (List.map_id _)
  have move := (List.mem_filter.mp mem).2
  exact if_neg (by simpa [← Option.isSome_iff_ne_none] using move)

theorem filter_attaches_stopped (xs : List Exchange) :
    (xs.map Exchange.stopped).filter (fun x => x.move.isNone) = (xs.filter (fun x => x.move.isNone)).map (fun x => { x with who := none }) := by
  rw [List.filter_map]
  simp only [Function.comp_def, Exchange.stopped_move]
  exact List.map_congr_left fun x mem => if_pos (List.mem_filter.mp mem).2

/-- The book at a stop: requests withdrawn, attaches abandoned, and the pending moves dropped in turn. -/
theorem bookStop_eq (s : State) : bookStop s =
    (s.book.exchanges.filter (fun x => x.move.isSome)).foldl dropMove
      ((withdrawRequests s).setBook
        { s.book with
          records := mapV (fun r => if r.pending = .attach then { r with pending := .abandoned } else r) s.book.records
          exchanges := (s.book.exchanges.filter (fun x => x.move.isNone)).map (fun x => { x with who := none }) }) := by
  have exchanges : (abandonAttaches (withdrawRequests s)).book.exchanges = s.book.exchanges.map Exchange.stopped := rfl
  unfold bookStop
  dsimp only
  rw [exchanges, filter_moves_stopped, filter_attaches_stopped]
  exact List.foldl_ext _ _ _ fun t x mem => stopMove_eq (List.mem_filter.mp mem).2

theorem withdrawRequests_eq (s : State) : withdrawRequests s = s.setWires
    { s.wires with
      requests := tabulate (fun p => (s.wires.requests[p]).filter (fun h => !(h.req.isBook &&
        (h.stopped || decide ((s.ports[p]).link = .stopped) || (s.wires.supply[portIx p]).contains .stop)))) } := by
  unfold withdrawRequests portStopping
  simp only [Bool.or_assoc]

/-- Settles O36: the records of the changed rooms re-evaluated in turn; at a stop the requests, attaches and moves of the stopped ports. -/
theorem bookFollowsTablesAndStops : Obligations.BookFollowsTablesAndStops := by
  refine ⟨⟨fun s sig head => ?_, fun s i b live body sound => ?_⟩, fun s head => ?_⟩
  · intro u isLive
    have run : exec .bookConfigApplied s = execBookConfigApplied s := rfl
    rw [run, execBookConfigApplied, takeConfig_of_head head]
    rfl
  · intro cap
    have is := reevaluate_sound live body sound
    have judged : exceedsCap s b.room b.attendees = b.attendees.any (fun n => decide (cap < n)) := rfl
    refine ⟨fun same => ?_, fun was now => ?_, fun n was people exceeds => ?_⟩
    · refine is.trans ((if_neg ?_).trans ?_)
      · rintro ⟨exceeds, was⟩
        rw [judged, same, was] at exceeds
        cases exceeds
      · rw [judged, same]
    · refine is.trans ((if_neg ?_).trans ?_)
      · rintro ⟨exceeds, -⟩
        rw [judged, now] at exceeds
        cases exceeds
      · rw [judged, now]
    · have now : exceedsCap s b.room b.attendees = true := by rw [judged, people]; simpa using exceeds
      refine is.trans ((if_pos ⟨now, was⟩).trans ?_)
      rw [now, people]
      rfl
  · intro u v moves left withdrawn w
    have start : (withdrawRequests u).setBook
        { u.book with
          records := mapV (fun r => if r.pending = .attach then { r with pending := .abandoned } else r) u.book.records
          exchanges := (u.book.exchanges.filter (fun x => x.move.isNone)).map (fun x => { x with who := none }) } = w := by
      rw [withdrawRequests_eq]
      have supply (p : Port) : u.wires.supply[portIx p] = s.wires.supply[portIx p] :=
        popSupply_supply_other (Fin.ne_of_val_ne (show 8 + p.val ≠ 6 by omega)) s
      simp only [supply]
      rfl
    have folded : v = moves.foldl dropMove w := (bookStop_eq u).trans (by rw [start]; rfl)
    have worked := foldl_dropMove_worked moves w
    rw [← folded] at worked
    have answers : v.wires.answers = w.wires.answers := by
      obtain ⟨_, _, _, wires⟩ := worked.wires
      rw [wires]
    have requests : v.wires.requests = w.wires.requests := by
      obtain ⟨_, _, _, wires⟩ := worked.wires
      rw [wires]
    refine ⟨?_, folded, answers.trans rfl, requests, worked.book.1, fun x mem => ?_, fun i untouched => ?_, fun none => ?_⟩
    · exact exec_of_supply (work := fun _ s => bookStop s) (a := ()) rfl head rfl
    · rw [folded]
      exact foldl_dropMove_settled moves w mem
    · rw [worked.others i (by rintro ⟨x, mem, is⟩; exact untouched x mem is)]
      exact mapV_get _ _ _
    · rw [folded, none]
      rfl

end Sys2Proof.Machine

/-! PROOFS. Panel lines: a line written twice, the walk of events, what is handed onward, and what OCU hands back (05). -/

namespace Sys2Proof.Machine

open Host

/-! ## Writing a line -/

section
variable {s : State} {l m : Line} {a : Addr}

@[simp] theorem setLine_line_same (u : LineUnit) : (s.setLine l u).line l = u := put_get_same s.lines l u

theorem setLine_line_other (u : LineUnit) (other : m ≠ l) : (s.setLine l u).line m = s.line m :=
  put_get_other s.lines u fun e => other e.symm

@[simp] theorem setLine_setLine (u v : LineUnit) : (s.setLine l u).setLine l v = s.setLine l v := by
  simp only [State.setLine, State.setLines_lines, State.setLines_setLines, put_put]

@[simp] theorem setLine_self : s.setLine l (s.line l) = s := by
  unfold State.setLine State.line
  rw [Fin.getElem_fin, put_self]
  rfl

@[simp] theorem line_setWires (w : Wires) : (s.setWires w).line l = s.line l := rfl

@[simp] theorem line_setJobs (js : List LineJob) : (s.setJobs js).line l = s.line l := rfl

@[simp] theorem line_setPwc (p : Pwc) : (s.setPwc p).line l = s.line l := rfl

@[simp] theorem line_setCtu (c : Ctu) : (s.setCtu c).line l = s.line l := rfl

theorem line_of_lines {s t : State} (same : t.lines = s.lines) : t.line = s.line := by
  unfold State.line
  rw [same]

/-- What a line does to itself twice, it does once. -/
theorem modLine_modLine (f g : LineUnit → LineUnit) : modLine l f (modLine l g s) = modLine l (fun u => f (g u)) s := by
  simp only [modLine, setLine_line_same, setLine_setLine]

theorem setCtx_setCtx (x y : PanelCtx) : setCtx l a x (setCtx l a y s) = setCtx l a x s := by
  simp only [setCtx, modLine_modLine, put_put]

theorem setCtx_self : setCtx l a (s.ctx l a) s = s := by
  have kept : put (s.line l).ctx a (s.ctx l a) = (s.line l).ctx := put_self (s.line l).ctx a
  calc setCtx l a (s.ctx l a) s = s.setLine l { s.line l with ctx := put (s.line l).ctx a (s.ctx l a) } := rfl
    _ = s := by rw [kept]; exact setLine_self

theorem modCtx_modCtx (f g : PanelCtx → PanelCtx) : modCtx l a f (modCtx l a g s) = modCtx l a (fun c => f (g c)) s := by
  simp only [modCtx, setCtx_ctx_same, setCtx_setCtx]

theorem configured_iff {c : PanelCtx} : c.configured = true ↔ c.pstate ≠ .unconfigured := by
  simp [PanelCtx.configured]

theorem not_configured_iff {c : PanelCtx} : c.configured = false ↔ c.pstate = .unconfigured := by
  simp [PanelCtx.configured]

theorem tellOcu_of_room {r : Room} (room : (s.ctx l a).room = some r) (m : Room → LineMsg) : tellOcu l a m s = handOcu l a (m r) s := by
  rw [tellOcu, room]

theorem tellOcu_of_none (room : (s.ctx l a).room = none) (m : Room → LineMsg) : tellOcu l a m s = s := by
  rw [tellOcu, room]

end

/-! ## The walk of a good STATUS (R92) -/

section
variable (ref : Option Seq) (started : Bool) (n : Nat) (e : PEvent) (es : List PEvent)

theorem isRepeat_iff (q : Seq) : isRepeat ref q = true ↔ distance ref q = 0 ∨ 9 ≤ distance ref q := by
  simp [isRepeat]

@[simp] theorem walkEvents_full : walkEvents ref started 0 es = [] := by
  simp [walkEvents]

@[simp] theorem walkEvents_nil : walkEvents ref started n [] = [] := by
  cases n <;> simp [walkEvents]

variable {ref started e}

theorem walkEvents_repeat (again : isRepeat ref e.seq = true) :
    walkEvents ref started n (e :: es) = walkEvents ref started n es := by
  cases n with
  | zero => simp
  | succ n => simp [walkEvents, again]

theorem walkEvents_take (new : isRepeat ref e.seq = false) (next : started = false ∨ distance ref e.seq = 1) :
    walkEvents ref started (n + 1) (e :: es) = e :: walkEvents (some e.seq) true n es := by
  simpa [walkEvents, new] using fun b => next.resolve_left (by simp [b])

theorem walkEvents_gap (new : isRepeat ref e.seq = false) (begun : started = true) (gap : distance ref e.seq ≠ 1) :
    walkEvents ref started n (e :: es) = [] := by
  cases n with
  | zero => simp
  | succ n => simp [walkEvents, new, begun, gap]

variable (ref started)

theorem walkEvents_sublist : (walkEvents ref started n es).Sublist es := by
  induction es generalizing ref started n with
  | nil => simp
  | cons e es ih =>
    by_cases again : isRepeat ref e.seq = true
    · rw [walkEvents_repeat n es again]
      exact (ih ref started n).cons e
    · rw [Bool.not_eq_true] at again
      by_cases next : started = false ∨ distance ref e.seq = 1
      · cases n with
        | zero => simp
        | succ n =>
          rw [walkEvents_take n es again next]
          exact (ih (some e.seq) true n).cons_cons e
      · rw [not_or, Bool.not_eq_false] at next
        rw [walkEvents_gap n es again next.1 next.2]
        exact List.nil_sublist _

/-- Only the first event taken may be far from what was there before; no event taken first is a repeat. -/
theorem walkEvents_head (first : (walkEvents ref false n es).head? = some e) : isRepeat ref e.seq = false := by
  induction es with
  | nil => simp at first
  | cons d es ih =>
    by_cases again : isRepeat ref d.seq = true
    · exact ih (by rwa [walkEvents_repeat n es again] at first)
    · rw [Bool.not_eq_true] at again
      cases n with
      | zero => simp at first
      | succ n =>
        rw [walkEvents_take n es again (.inl rfl)] at first
        cases first
        exact again

theorem walkEvents_follow (p : PEvent) :
    (p :: walkEvents (some p.seq) true n es).IsChain (fun a b => distance (some a.seq) b.seq = 1) := by
  induction es generalizing p n with
  | nil => simp
  | cons e es ih =>
    by_cases again : isRepeat (some p.seq) e.seq = true
    · rw [walkEvents_repeat n es again]
      exact ih n p
    · rw [Bool.not_eq_true] at again
      by_cases next : distance (some p.seq) e.seq = 1
      · cases n with
        | zero => simp
        | succ n =>
          rw [walkEvents_take n es again (.inr next)]
          exact List.isChain_cons_cons.mpr ⟨next, ih n e⟩
      · rw [walkEvents_gap n es again rfl next]
        exact List.isChain_singleton p

theorem walkEvents_chain : (walkEvents ref false n es).IsChain (fun a b => distance (some a.seq) b.seq = 1) := by
  induction es with
  | nil => simp
  | cons e es ih =>
    by_cases again : isRepeat ref e.seq = true
    · rwa [walkEvents_repeat n es again]
    · rw [Bool.not_eq_true] at again
      cases n with
      | zero => simp
      | succ n =>
        rw [walkEvents_take n es again (.inl rfl)]
        exact walkEvents_follow n es e

theorem walkEvents_repeats (all : ∀ e ∈ es, isRepeat ref e.seq = true) : walkEvents ref started n es = [] := by
  induction es with
  | nil => simp
  | cons e es ih =>
    rw [walkEvents_repeat n es (all e (by simp))]
    exact ih fun d mem => all d (by simp [mem])

end

/-! ## Handing an event onward (R93) -/

section
variable (l : Line) (a : Addr) (s : State)

/-- Void events at the front are acknowledged, up to the last of them, and passed. -/
theorem handOnward_void (voids es : List PEvent) (pass : ∀ v ∈ voids, v.kind = .void) :
    handOnward l a (voids ++ es) s =
      handOnward l a es (modCtx l a (fun c => { c with ackSeq := (voids.getLast?.map PEvent.seq).or c.ackSeq }) s) := by
  induction voids generalizing s with
  | nil => exact congrArg (handOnward l a es) setCtx_self.symm
  | cons v voids ih =>
    rw [List.cons_append, handOnward, if_pos (pass v (by simp)), ih _ fun x mem => pass x (by simp [mem]), modCtx_modCtx]
    congr 2
    funext c
    cases voids with
    | nil => rfl
    | cons w ws => simp [List.getLast?_cons]

theorem handNext_stands (held : (s.ctx l a).outstanding ≠ none ∨ (s.ctx l a).evbuf = []) : handNext l a s = s := by
  have none_next : ¬ ((s.ctx l a).outstanding.isNone && !(s.ctx l a).evbuf.isEmpty) = true := by
    rcases held with h | h <;> simp [h]
  exact if_neg none_next

theorem handNext_hands (free : (s.ctx l a).outstanding = none) (some_event : (s.ctx l a).evbuf ≠ []) :
    handNext l a s = handOnward l a (s.ctx l a).evbuf s :=
  if_pos (by simp [free, some_event])

/-- With nothing but void events buffered, the last of them is acknowledged and EVBUF is empty. -/
theorem handNext_voids {v : PEvent} (free : (s.ctx l a).outstanding = none) (pass : ∀ e ∈ (s.ctx l a).evbuf, e.kind = .void)
    (last : (s.ctx l a).evbuf.getLast? = some v) :
    handNext l a s = setCtx l a { s.ctx l a with ackSeq := some v.seq, evbuf := [] } s := by
  have some_event : (s.ctx l a).evbuf ≠ [] := fun e => by simp [e] at last
  have work := handOnward_void l a s (s.ctx l a).evbuf [] pass
  rw [List.append_nil] at work
  rw [handNext_hands l a s free some_event, work, handOnward, modCtx_modCtx, last]
  rfl

/-- The first event that is not void becomes OUTSTANDING and is handed to OCU. -/
theorem handNext_event {voids rest : List PEvent} {e : PEvent} (free : (s.ctx l a).outstanding = none)
    (buffered : (s.ctx l a).evbuf = voids ++ e :: rest) (pass : ∀ v ∈ voids, v.kind = .void) (real : e.kind ≠ .void) :
    handNext l a s = tellOcu l a (fun r => .event r e) (setCtx l a
      { s.ctx l a with
        ackSeq := (voids.getLast?.map PEvent.seq).or (s.ctx l a).ackSeq, outstanding := some (e, (s.ctx l a).room), evbuf := rest } s) := by
  have some_event : (s.ctx l a).evbuf ≠ [] := by simp [buffered]
  rw [handNext_hands l a s free some_event, buffered, handOnward_void l a s voids _ pass, handOnward, if_neg real]
  dsimp only
  rw [modCtx_modCtx]
  rfl

end

/-! ## What OCU hands back (R94, R96) -/

theorem takeFromOcu_of_taken {α : Type} {l : Line} {a : Addr} {s : State} {m : OcuMsg} {x : α} {rest : List (Addr × OcuMsg)}
    {sel : OcuMsg → Option α} {work : α → State → State} (first : takeAddr a s.wires.toLine[l] = some (m, rest))
    (selected : sel m = some x) :
    takeFromOcu l a sel work s = work x (s.setWires { s.wires with toLine := put s.wires.toLine l rest }) := by
  rw [takeFromOcu, first]
  simp only [selected]

section
variable {l : Line} {a : Addr} {s : State} (q : Seq)

/-- What a *taken* verdict makes of ACK_SEQ (R94). -/
def ackAfter (q : Seq) (ack : Option Seq) : Option Seq :=
  ack.elim (some q) fun r => if 1 ≤ distance (some r) q ∧ distance (some r) q ≤ 8 then some q else some r

theorem takeVerdict_eq (taken : Bool) : takeVerdict l a q taken s =
    if taken then
      if (s.ctx l a).outstanding.any (fun o => o.1.seq = q) then
        handNext l a (setCtx l a { s.ctx l a with ackSeq := ackAfter q (s.ctx l a).ackSeq, outstanding := none } s)
      else setCtx l a { s.ctx l a with ackSeq := ackAfter q (s.ctx l a).ackSeq } s
    else if (s.ctx l a).outstanding.any (fun o => o.1.seq = q) then setCtx l a { s.ctx l a with outstanding := none, evbuf := [] } s
    else s := by
  cases ack : (s.ctx l a).ackSeq with
  | none => simp only [takeVerdict, ackAfter, ack, Option.elim]
  | some r =>
    simp only [takeVerdict, ackAfter, ack, Option.elim, distance]
    rfl

theorem outstanding_any_iff (c : PanelCtx) :
    c.outstanding.any (fun o => o.1.seq = q) = true ↔ ∃ o, c.outstanding = some o ∧ o.1.seq = q := by
  cases c.outstanding <;> simp

end

/-- Settles O38: the walk by induction on the events of the frame, the handing onward by the run of void events at the front, and the two
messages of OCU by what a verdict makes of a context. -/
theorem eventsAreWalkedHandedAndSettled : Obligations.EventsAreWalkedHandedAndSettled := by
  unfold Obligations.EventsAreWalkedHandedAndSettled
  refine ⟨fun ref places es => ⟨walkEvents_sublist ref false places es, length_walkEvents_le ref false places es, fun e => walkEvents_head ref places es,
      walkEvents_chain ref places es, walkEvents_repeats ref false places es, ?_⟩,
    fun ref started n e es => ⟨isRepeat_iff ref e.seq, walkEvents_full ref started _, walkEvents_nil ref started n,
      walkEvents_repeat n es, walkEvents_take n es, walkEvents_gap n es⟩,
    fun l a s => ⟨handNext_stands l a s, fun v => handNext_voids l a s⟩, ?_, ?_⟩
  · rintro e rest rfl new room
    obtain ⟨n, rfl⟩ := Nat.exists_eq_add_of_lt room
    rw [walkEvents_take _ rest new (.inl rfl)]
    rfl
  · intro l a s voids rest e c free buffered pass real ack t
    have handed : t = _ := handNext_event l a s free buffered pass real
    have ack_eq : (voids.getLast?.map PEvent.seq).or c.ackSeq = ack := by
      show _ = match voids.getLast? with
        | some v => some v.seq
        | none => c.ackSeq
      cases voids.getLast? <;> rfl
    rw [handed]
    refine ⟨?_, fun r room => ?_, fun l' a' other => ?_, by simp⟩
    · rw [tellOcu_ctx, setCtx_ctx_same, ← ack_eq]
    · rw [tellOcu_of_room (by rw [setCtx_ctx_same]; exact room)]
      rfl
    · rw [tellOcu_ctx]
      exact setCtx_ctx_other fun ⟨h, k⟩ => other (by rw [h, k])
  · intro l a s rest c u put'
    refine ⟨fun q taken first => ?_, fun d first => ?_⟩
    · have run : exec (.verdict l a) s = .next (if (u.ctx l a).configured then takeVerdict l a q taken u else u) :=
        congrArg Outcome.next (takeFromOcu_of_taken (x := (q, taken)) (sel := fun | .verdict q t => some (q, t) | _ => none)
          (work := fun x s => if (s.ctx l a).configured then takeVerdict l a x.1 x.2 s else s) first rfl)
      have ack_eq : ackAfter q c.ackSeq = match c.ackSeq with
          | none => some q
          | some r => if 1 ≤ distance (some r) q ∧ distance (some r) q ≤ 8 then some q else some r := by
        cases c.ackSeq <;> rfl
      intro mine ack
      rw [run, takeVerdict_eq]
      refine ⟨fun off => by rw [if_neg (by rw [configured_iff]; exact not_not.mpr off)], fun on => ?_⟩
      rw [if_pos (configured_iff.mpr (show (u.ctx l a).pstate ≠ .unconfigured from on))]
      have mine_iff : (u.ctx l a).outstanding.any (fun o => o.1.seq = q) = true ↔ mine := outstanding_any_iff q c
      refine ⟨fun t n => ?_, fun t m => ?_, fun t n => ?_, fun t m => ?_⟩
      · rw [if_pos t, if_neg (mine_iff.not.mpr n)]
        exact congrArg (fun x => Outcome.next (put' { c with ackSeq := x })) ack_eq
      · rw [if_pos t, if_pos (mine_iff.mpr m)]
        exact congrArg (fun x => Outcome.next (handNext l a (put' { c with ackSeq := x, outstanding := none }))) ack_eq
      · rw [if_neg (by simp [t]), if_neg (mine_iff.not.mpr n)]
      · rw [if_neg (by simp [t]), if_pos (mine_iff.mpr m)]
        rfl
    · have run : exec (.displayRecord l a) s =
          .next (if (u.ctx l a).configured then modCtx l a (fun c => { c with dentry := some (.unsent d) }) u else u) :=
        congrArg Outcome.next (takeFromOcu_of_taken (x := d) (sel := fun | .display d => some d | _ => none)
          (work := fun d s => if (s.ctx l a).configured then modCtx l a (fun c => { c with dentry := some (.unsent d) }) s else s) first rfl)
      rw [run]
      exact ⟨fun off => by rw [if_neg (by rw [configured_iff]; exact not_not.mpr off)],
        fun on => by rw [if_pos (configured_iff.mpr (show (u.ctx l a).pstate ≠ .unconfigured from on))]; rfl⟩

end Sys2Proof.Machine

/-! PROOFS. Panel lines: a step repeated over the addresses of a line, the line statistics and the line resets (05 R104, R105). -/

namespace Sys2Proof.Machine

open Host

/-! ## What is handed about one address -/

theorem setCtx_line (l : Line) (a : Addr) (x : PanelCtx) (s : State) :
    (setCtx l a x s).line l = { s.line l with ctx := put (s.line l).ctx a x } := setLine_line_same _

/-- A notice about a panel, undated. -/
def panelNote (kind : NoticeKind) (l : Line) (a : Addr) (room : Option Room) (detail : Nat) : HandedNotice :=
  { note := { kind := kind, date := Clock.zero, booking := none, order := none, room := room, panel := some ⟨l, a⟩, detail := detail },
    dated := false, owner := none, cause := none }

/-- Notices handed by a line unit. -/
def handNotes (l : Line) (ns : List HandedNotice) (s : State) : State :=
  s.setWires { s.wires with notices := modAt s.wires.notices (producerIx (.plu l)) (· ++ ns) }

/-- Messages handed by a line unit to OCU. -/
def handMsgs (l : Line) (ms : List (Addr × LineMsg)) (s : State) : State :=
  s.setWires { s.wires with fromLine := modAt s.wires.fromLine l (· ++ ms) }

/-- The message about the room of a context, if it names one. -/
def PanelCtx.msgs (c : PanelCtx) (a : Addr) (m : Room → LineMsg) : List (Addr × LineMsg) := c.room.toList.map fun r => (a, m r)

section
variable {l : Line} {a : Addr} {s : State}

@[simp] theorem handNotes_nil : handNotes l [] s = s := by
  simp only [handNotes, List.append_nil, modAt, Fin.getElem_fin, put_self]
  rfl

@[simp] theorem handMsgs_nil : handMsgs l [] s = s := by
  simp only [handMsgs, List.append_nil, modAt, Fin.getElem_fin, put_self]
  rfl

theorem handNotes_handNotes (ns ms : List HandedNotice) : handNotes l ms (handNotes l ns s) = handNotes l (ns ++ ms) s := by
  simp only [handNotes, State.setWires_wires, State.setWires_setWires, modAt_append]

theorem handMsgs_handMsgs (ns ms : List (Addr × LineMsg)) : handMsgs l ms (handMsgs l ns s) = handMsgs l (ns ++ ms) s := by
  simp only [handMsgs, State.setWires_wires, State.setWires_setWires, modAt_append]

@[simp] theorem handNotes_line (m : Line) (ns : List HandedNotice) : (handNotes l ns s).line m = s.line m := rfl

@[simp] theorem handMsgs_line (m : Line) (ms : List (Addr × LineMsg)) : (handMsgs l ms s).line m = s.line m := rfl

@[simp] theorem handNotes_ctx (ns : List HandedNotice) : (handNotes l ns s).ctx = s.ctx := rfl

@[simp] theorem handMsgs_ctx (ms : List (Addr × LineMsg)) : (handMsgs l ms s).ctx = s.ctx := rfl

theorem tellOcu_eq (m : Room → LineMsg) : tellOcu l a m s = handMsgs l ((s.ctx l a).msgs a m) s := by
  unfold PanelCtx.msgs
  cases room : (s.ctx l a).room with
  | none => rw [tellOcu_of_none room]; exact handMsgs_nil.symm
  | some r => exact tellOcu_of_room room m

theorem panelNotice_eq (kind : NoticeKind) (detail : Nat) :
    panelNotice kind l a detail s = handNotes l [panelNote kind l a (s.ctx l a).room detail] s := rfl

theorem handOffline_eq (cause : Nat) : handOffline l a cause s =
    handMsgs l ((s.ctx l a).msgs a .down) (handNotes l [panelNote .panelOffline l a (s.ctx l a).room cause] s) := by
  rw [handOffline, tellOcu_eq, panelNotice_ctx, panelNotice_eq]

end

/-! ## One step at each of several addresses -/

/-- A step at one address: its context changes, and what it hands depends on the context alone. -/
def atAddr (l : Line) (change : PanelCtx → PanelCtx) (notes : Addr → PanelCtx → List HandedNotice)
    (msgs : Addr → PanelCtx → List (Addr × LineMsg)) (s : State) (a : Addr) : State :=
  handMsgs l (msgs a (s.ctx l a)) (handNotes l (notes a (s.ctx l a)) (setCtx l a (change (s.ctx l a)) s))

section
variable {l : Line} (change : PanelCtx → PanelCtx) (notes : Addr → PanelCtx → List HandedNotice)
  (msgs : Addr → PanelCtx → List (Addr × LineMsg))

theorem atAddr_ctx_other {s : State} {a b : Addr} (other : a ≠ b) : (atAddr l change notes msgs s a).ctx l b = s.ctx l b :=
  setCtx_ctx_other fun both => other both.2

/-- The same step at each of several addresses: each context changes by itself, and what each hands comes in the order of the addresses. -/
theorem foldl_atAddr (as : List Addr) (apart : as.Nodup) (s : State) : ∃ ctx,
    as.foldl (atAddr l change notes msgs) s =
      handMsgs l (as.flatMap fun a => msgs a (s.ctx l a)) (handNotes l (as.flatMap fun a => notes a (s.ctx l a))
        (s.setLine l { s.line l with ctx := ctx })) ∧
    ∀ a : Addr, ctx[a] = if a ∈ as then change (s.ctx l a) else s.ctx l a := by
  induction as generalizing s with
  | nil => exact ⟨(s.line l).ctx, by simp only [List.foldl_nil, List.flatMap_nil, handNotes_nil, handMsgs_nil]; exact setLine_self.symm,
      fun a => rfl⟩
  | cons a as ih =>
    obtain ⟨new, apart⟩ := List.nodup_cons.mp apart
    obtain ⟨ctx, run, each⟩ := ih apart (atAddr l change notes msgs s a)
    have others : ∀ b ∈ as, (atAddr l change notes msgs s a).ctx l b = s.ctx l b :=
      fun b mem => atAddr_ctx_other _ _ _ fun e => new (e ▸ mem)
    have notes_eq : as.flatMap (fun b => notes b ((atAddr l change notes msgs s a).ctx l b)) = as.flatMap fun b => notes b (s.ctx l b) :=
      List.flatMap_congr fun b mem => by rw [others b mem]
    have msgs_eq : as.flatMap (fun b => msgs b ((atAddr l change notes msgs s a).ctx l b)) = as.flatMap fun b => msgs b (s.ctx l b) :=
      List.flatMap_congr fun b mem => by rw [others b mem]
    refine ⟨ctx, ?_, fun b => ?_⟩
    · rw [List.foldl_cons, run, notes_eq, msgs_eq, List.flatMap_cons, List.flatMap_cons, ← handMsgs_handMsgs, ← handNotes_handNotes]
      have line : (atAddr l change notes msgs s a).line l = { s.line l with ctx := put (s.line l).ctx a (change (s.ctx l a)) } :=
        setLine_line_same _
      have base : (setCtx l a (change (s.ctx l a)) s).setLine l { s.line l with ctx := ctx } = s.setLine l { s.line l with ctx := ctx } :=
        setLine_setLine _ _
      rw [line, ← base]
      rfl
    · rw [each b]
      by_cases same : b = a
      · subst same
        rw [if_neg new, if_pos List.mem_cons_self]
        exact setCtx_ctx_same
      · rw [atAddr_ctx_other _ _ _ (Ne.symm same)]
        simp [same]

/-- The same step at every address of a line. -/
theorem foldl_atAddr_all (s : State) : ∃ ctx,
    (List.finRange 32).foldl (atAddr l change notes msgs) s =
      handMsgs l ((List.finRange 32).flatMap fun a => msgs a (s.ctx l a)) (handNotes l ((List.finRange 32).flatMap fun a => notes a (s.ctx l a))
        (s.setLine l { s.line l with ctx := ctx })) ∧
    ∀ a : Addr, ctx[a] = change (s.ctx l a) := by
  obtain ⟨ctx, run, each⟩ := foldl_atAddr change notes msgs (List.finRange 32) (List.nodup_finRange 32) s
  exact ⟨ctx, run, fun a => by rw [each, if_pos (List.mem_finRange a)]⟩

end

/-- What the members of a list that satisfy a test give, in the list's order. -/
theorem flatMap_ite_eq_filterMap {α β : Type} (p : α → Prop) [DecidablePred p] (f : α → Option β) (xs : List α) :
    xs.flatMap (fun x => if p x then (f x).toList else []) = (xs.filter (fun x => decide (p x))).filterMap f := by
  induction xs with
  | nil => rfl
  | cons x xs ih =>
    rw [List.flatMap_cons, ih]
    by_cases h : p x
    · rw [if_pos h, List.filter_cons_of_pos (by simpa using h), List.filterMap_cons]
      cases f x <;> rfl
    · rw [if_neg h, List.filter_cons_of_neg (by simpa using h), List.nil_append]

theorem flatMap_ite_eq_map {α β : Type} (p : α → Prop) [DecidablePred p] (f : α → β) (xs : List α) :
    xs.flatMap (fun x => if p x then [f x] else []) = (xs.filter (fun x => decide (p x))).map f := by
  rw [← List.filterMap_eq_map]
  exact flatMap_ite_eq_filterMap p (fun x => some (f x)) xs

theorem PanelCtx.msgs_eq (c : PanelCtx) (a : Addr) (m : Room → LineMsg) : c.msgs a m = (c.room.map fun r => (a, m r)).toList := by
  unfold PanelCtx.msgs
  cases c.room <;> rfl

/-! ## A line reset (R105) -/

/-- What LINE_RESET makes of a context. -/
def PanelCtx.afterReset (c : PanelCtx) : PanelCtx :=
  if c.pstate = .unconfigured then c
  else { c with pstate := .offline, missed := 0, ackSeq := none, rawLast := none, rawPrev := none, evbuf := [], outstanding := none }

theorem resetAddr_eq (l : Line) : resetAddr l = atAddr l PanelCtx.afterReset
    (fun a c => if c.pstate = .online then [panelNote .panelOffline l a c.room 2] else [])
    (fun a c => if c.pstate = .online then c.msgs a .down else []) := by
  funext s a
  unfold resetAddr atAddr PanelCtx.afterReset PanelCtx.configured
  dsimp only
  cases (s.ctx l a).pstate with
  | unconfigured => exact (setCtx_self.symm.trans handNotes_nil.symm).trans handMsgs_nil.symm
  | offline => exact handNotes_nil.symm.trans handMsgs_nil.symm
  | online =>
    refine (handOffline_eq 2).trans ?_
    rw [setCtx_ctx_same]
    rfl

/-- LINE_RESET on one line, whole. -/
theorem resetLine_eq (l : Line) (s : State) : ∃ ctx,
    resetLine l s =
      handMsgs l (((List.finRange 32).filter fun a => decide ((s.ctx l a).pstate = .online)).filterMap
          fun a => (s.ctx l a).room.map fun r => (a, LineMsg.down r))
        (handNotes l (((List.finRange 32).filter fun a => decide ((s.ctx l a).pstate = .online)).map
            fun a => panelNote .panelOffline l a (s.ctx l a).room 2)
          (s.setLine l { s.line l with ctx := ctx, crcCount := 0, timeoutCount := 0, trap := none })) ∧
    ∀ a : Addr, ctx[a] = (s.ctx l a).afterReset := by
  obtain ⟨ctx, run, each⟩ := foldl_atAddr_all PanelCtx.afterReset
    (fun a c => if c.pstate = .online then [panelNote .panelOffline l a c.room 2] else [])
    (fun a c => if c.pstate = .online then c.msgs a .down else []) s (l := l)
  refine ⟨ctx, ?_, each⟩
  simp only [PanelCtx.msgs_eq] at run
  rw [flatMap_ite_eq_map, flatMap_ite_eq_filterMap] at run
  have cleared (u : LineUnit) : (s.setLine l u).setLine l { u with crcCount := 0, timeoutCount := 0, trap := none } =
      s.setLine l { u with crcCount := 0, timeoutCount := 0, trap := none } := setLine_setLine _ _
  rw [resetLine, resetAddr_eq]
  simp only [PanelCtx.msgs_eq]
  rw [run, ← cleared { s.line l with ctx := ctx }, clearStats, modLine, handMsgs_line, handNotes_line, setLine_line_same]
  rfl

/-! ## A failed turn (R88) -/

/-- The statistics of a line with one more failed turn. -/
def LineUnit.failed (u : LineUnit) (a : Addr) (k : TrapKind) : LineUnit :=
  { u with
    crcCount := if k = .crc then satInc u.crcCount else u.crcCount
    timeoutCount := if k = .timeout then satInc u.timeoutCount else u.timeoutCount
    trap := u.trap.or (some (a, k)) }

section
variable (l : Line) (a : Addr) (k : TrapKind) (s : State)

@[simp] theorem countFailure_line : (countFailure l a k s).line l = (s.line l).failed a k := setLine_line_same _

/-- A failed turn that leaves its panel as it was but for MISSED. -/
theorem failTurn_counts (stays : (s.ctx l a).pstate ≠ .online ∨ min ((s.ctx l a).missed + 1) 3 ≠ 3) :
    failTurn l a k s = setCtx l a { s.ctx l a with missed := min ((s.ctx l a).missed + 1) 3 } (countFailure l a k s) := by
  have not_down : ¬((s.ctx l a).pstate = .online && min ((s.ctx l a).missed + 1) 3 = 3) = true := by
    rcases stays with h | h <;> simp [h]
  unfold failTurn
  dsimp only
  rw [countFailure_ctx, if_neg not_down]

/-- The third failed turn of a panel that was ONLINE. -/
theorem failTurn_offline (on : (s.ctx l a).pstate = .online) (third : min ((s.ctx l a).missed + 1) 3 = 3) :
    failTurn l a k s = handMsgs l ((s.ctx l a).msgs a .down)
      (handNotes l [panelNote .panelOffline l a (s.ctx l a).room k.toNat]
        (setCtx l a { s.ctx l a with missed := 3, pstate := .offline, rawLast := none, rawPrev := none, evbuf := [] }
          (countFailure l a k s))) := by
  have down : ((s.ctx l a).pstate = .online && min ((s.ctx l a).missed + 1) 3 = 3) = true := by simp [on, third]
  have handed (x y : PanelCtx) (t : State) (ns : List HandedNotice) (ms : List (Addr × LineMsg)) :
      setCtx l a x (handMsgs l ms (handNotes l ns (setCtx l a y t))) = handMsgs l ms (handNotes l ns (setCtx l a x t)) := by
    rw [← setCtx_setCtx (s := t) x y]
    rfl
  unfold failTurn
  dsimp only
  rw [countFailure_ctx, if_pos down]
  simp only [handOffline_eq, modCtx, handMsgs_ctx, handNotes_ctx, setCtx_ctx_same, setCtx_setCtx, handed, third]
  rfl

/-- A failed turn changes of its line the statistics and one context. -/
theorem failTurn_line : ∃ x, (failTurn l a k s).line l = { (s.line l).failed a k with ctx := put (s.line l).ctx a x } := by
  by_cases down : (s.ctx l a).pstate = .online ∧ min ((s.ctx l a).missed + 1) 3 = 3
  · rw [failTurn_offline l a k s down.1 down.2, handMsgs_line, handNotes_line]
    exact ⟨_, by rw [setCtx_line, countFailure_line]; rfl⟩
  · rw [failTurn_counts l a k s (not_and_or.mp down)]
    exact ⟨_, by rw [setCtx_line, countFailure_line]; rfl⟩

end

/-! ## The line requests (R104, R105) -/

/-- The same change on each of several lines. -/
theorem foldl_modLine_line (f : LineUnit → LineUnit) (ls : List Line) (apart : ls.Nodup) (s : State) (m : Line) :
    (ls.foldl (fun s l => modLine l f s) s).line m = if m ∈ ls then f (s.line m) else s.line m := by
  induction ls generalizing s with
  | nil => rfl
  | cons l ls ih =>
    obtain ⟨new, apart⟩ := List.nodup_cons.mp apart
    rw [List.foldl_cons, ih apart]
    by_cases same : m = l
    · subst same
      rw [if_neg new, if_pos List.mem_cons_self, modLine_line_same]
    · rw [modLine_line_other (Ne.symm same)]
      simp [same]

theorem mem_linesOf {lines : Nat} {l : Line} : l ∈ linesOf lines ↔ lines.testBit l.val = true := by
  simp [linesOf]

theorem nodup_linesOf (lines : Nat) : (linesOf lines).Nodup := (List.nodup_finRange 4).filter _

theorem inTurn_iff {u : LineUnit} : u.inTurn = true ↔ ∃ a claim, u.phase = .turn a claim := by
  unfold LineUnit.inTurn
  split
  · next a claim turn => exact ⟨fun _ => ⟨a, claim, turn⟩, fun _ => rfl⟩
  · next no_turn => exact ⟨fun h => by simp at h, fun ⟨a, claim, turn⟩ => absurd turn (no_turn a claim)⟩

section
variable {p : Port} {h : HandedRequest} {rest : List HandedRequest} {s : State} {lines : Nat}

theorem exec_clearLineStats_of_asks (asks : s.asks p h rest) (req : h.req = .clearLineStats lines) :
    exec (.clearLineStats p) s = .next (clearLineStatsWork (h.asker p) lines (s.took p rest)) :=
  exec_of_asks rfl asks (by rw [req])

theorem exec_lineReset_of_asks (asks : s.asks p h rest) (req : h.req = .lineReset lines) :
    exec (.lineReset p) s = .next (lineResetWork (h.asker p) lines (s.took p rest)) :=
  exec_of_asks rfl asks (by rw [req])

theorem badLines_iff : (lines = 0 || 15 < lines) = true ↔ lines = 0 ∨ 15 < lines := by simp

end

section
variable (q : Asker) (l : Line) (s : State)

theorem askReset_in_turn (turn : (s.line l).inTurn = true) :
    askReset q s l = s.setLine l { s.line l with resetWait := (s.line l).resetWait ++ [(q.port, q.reqno)] } := by
  have stands : ((modLine l (fun u => { u with resetWait := u.resetWait ++ [(q.port, q.reqno)] }) s).line l).inTurn = true := by
    rw [modLine_line_same]
    exact turn
  exact if_pos stands

theorem askReset_at_once (free : (s.line l).inTurn = false) :
    askReset q s l = doResets l (s.setLine l { s.line l with resetWait := (s.line l).resetWait ++ [(q.port, q.reqno)] }) := by
  have stands : ¬((modLine l (fun u => { u with resetWait := u.resetWait ++ [(q.port, q.reqno)] }) s).line l).inTurn = true := by
    rw [modLine_line_same]
    exact Bool.not_eq_true _ ▸ free
  exact if_neg stands

/-- The waiting resets of a line, whatever waited before they were listed. -/
theorem doResets_setLine (ws : List (Port × Fin 256)) :
    doResets l (s.setLine l { s.line l with resetWait := ws }) =
      ws.foldl (fun t w => lineDone l w.1 w.2 false 0 (resetLine l t)) (s.setLine l { s.line l with resetWait := [] }) := by
  unfold doResets modLine
  dsimp only
  rw [setLine_line_same, setLine_setLine]

end

/-- Settles O39: the statistics line by line, the requests by their checks, and the reset of a line as one step at each address. -/
theorem lineStatisticsAndResets : Obligations.LineStatisticsAndResets := by
  unfold Obligations.LineStatisticsAndResets
  refine ⟨fun p h rest s lines asks req => ⟨fun role => ?_, fun bad => ?_, fun low high => ?_⟩,
    ⟨fun p h rest s lines asks req => ⟨fun bad => ?_, fun low high => ?_⟩, fun q l s => ⟨fun a claim turn => ?_, fun free => ?_, rfl, rfl⟩,
      fun l s => ?_⟩⟩
  · cases role <;> simp [Request.permitted]
  · rw [exec_clearLineStats_of_asks asks req, clearLineStatsWork, if_pos (badLines_iff.mpr bad), reply_took]
  · rw [exec_clearLineStats_of_asks asks req, clearLineStatsWork, if_neg (by rw [badLines_iff]; omega)]
    refine ⟨_, rfl, (only_foldl _ (fun _ _ => only_clearStats (by decide)) _ _).mpr (.refl _ _), fun l => ?_⟩
    have line := foldl_modLine_line (fun u => { u with crcCount := 0, timeoutCount := 0, trap := none }) _ (nodup_linesOf lines) (s.took p rest) l
    refine ⟨fun named => ?_, fun unnamed => ?_⟩
    · rw [if_pos (mem_linesOf.mpr named)] at line
      refine ⟨line, fun a k => ?_⟩
      obtain ⟨x, after⟩ := failTurn_line l a k ((linesOf lines).foldl (fun s l => clearStats l s) (s.took p rest))
      rw [after]
      exact congrArg (fun u : LineUnit => u.trap.or (some (a, k))) line
    · rw [if_neg (by simp [mem_linesOf, unnamed])] at line
      exact line
  · rw [exec_lineReset_of_asks asks req, lineResetWork, if_pos (badLines_iff.mpr bad), reply_took]
  · rw [exec_lineReset_of_asks asks req, lineResetWork, if_neg (by rw [badLines_iff]; omega)]
    rfl
  · exact askReset_in_turn q l s (inTurn_iff.mpr ⟨a, claim, turn⟩)
  · have idle : (s.line l).inTurn = false := by
      rw [← Bool.not_eq_true, inTurn_iff]
      rintro ⟨a, claim, turn⟩
      exact free a claim turn
    rw [askReset_at_once q l s idle, doResets_setLine]
  · intro t online offline
    obtain ⟨ctx, run, each⟩ := resetLine_eq l s
    have done : t = _ := run
    have line : t.line l = { s.line l with ctx := ctx, crcCount := 0, timeoutCount := 0, trap := none } := by
      rw [done, handMsgs_line, handNotes_line, setLine_line_same]
    refine ⟨by rw [line], fun a => ?_, fun l' other => ?_, ?_, by simp [t]⟩
    · rw [State.ctx, line]
      exact each a
    · rw [done, handMsgs_line, handNotes_line, setLine_line_other _ other]
    · rw [done]
      rfl

end Sys2Proof.Machine

/-! PROOFS. Panel lines: announcements sent, cycles, claims, and how a turn ends (05 R87, R88, R99 to R101). -/

namespace Sys2Proof.Machine

open Host

section
variable {l : Line} {s : State}

/-! ## The configured addresses of a line -/

theorem configuredAddrs_eq : configuredAddrs (s.line l) = (List.finRange 32).filter (fun a => decide ((s.ctx l a).pstate ≠ .unconfigured)) := by
  rw [configuredAddrs, ixsWhere_eq]
  refine List.filter_congr fun a _ => ?_
  rw [Bool.eq_iff_iff, decide_eq_true_iff]
  exact configured_iff

theorem mem_configuredAddrs {a : Addr} : a ∈ configuredAddrs (s.line l) ↔ (s.ctx l a).pstate ≠ .unconfigured := by
  simp [configuredAddrs_eq]

theorem configuredAddrs_eq_nil : configuredAddrs (s.line l) = [] ↔ ∀ a, (s.ctx l a).pstate = .unconfigured := by
  simp [configuredAddrs_eq]

theorem configuredAddrs_ne_nil : configuredAddrs (s.line l) ≠ [] ↔ ∃ a, (s.ctx l a).pstate ≠ .unconfigured := by
  rw [Ne, configuredAddrs_eq_nil, not_forall]

/-! ## Announcements -/

theorem sendAnnounce_none (empty : (s.line l).annSlot = none) : sendAnnounce l s = s := by
  rw [sendAnnounce, empty]

/-- The line after the announcement in its slot has been sent. -/
def LineUnit.announced (u : LineUnit) (an : Announcement) : LineUnit :=
  { u with annSlot := u.annWait.head?, annWait := u.annWait.tail, sent := u.sent ++ [announceFrame an] }

theorem sendAnnounce_some {an : Announcement} (held : (s.line l).annSlot = some an) :
    sendAnnounce l s = lineDone l an.port an.reqno true
      ((List.finRange 32).filter fun a => decide ((s.ctx l a).pstate ≠ .unconfigured) && an.hits a).length
      (s.setLine l ((s.line l).announced an)) := by
  have matched : (configuredAddrs (s.line l)).filter an.hits =
      (List.finRange 32).filter fun a => decide ((s.ctx l a).pstate ≠ .unconfigured) && an.hits a := by
    rw [configuredAddrs_eq, List.filter_filter]
    exact List.filter_congr fun a _ => Bool.and_comm _ _
  rw [sendAnnounce, held]
  dsimp only
  rw [sendFrame, modLine_modLine, matched]
  rfl

/-- What sending the announcement leaves of the line. -/
theorem sendAnnounce_line {an : Announcement} (held : (s.line l).annSlot = some an) :
    (sendAnnounce l s).line = (s.setLine l ((s.line l).announced an)).line := by
  rw [sendAnnounce_some held]
  exact line_of_lines (lineDone_lines _ _ _ _ _ _)

theorem flushAnnounces_busy (busy : configuredAddrs (s.line l) ≠ [] ∨ ((s.line l).phase ≠ .idle ∧ (s.line l).phase ≠ .restarted)) :
    flushAnnounces l s = s := by
  have rests : ¬((configuredAddrs (s.line l)).isEmpty && ((s.line l).phase = .idle || (s.line l).phase = .restarted)) = true := by
    rcases busy with h | h <;> simp [h]
  exact if_neg rests

theorem flushAnnounces_free (empty : configuredAddrs (s.line l) = []) (rests : (s.line l).phase = .idle ∨ (s.line l).phase = .restarted) :
    flushAnnounces l s = sendAnnounces l ((s.line l).annWait.length + 1) s :=
  if_pos (by simpa [empty] using rests)

theorem goIdle_some (on : ∃ a, (s.ctx l a).pstate ≠ .unconfigured) : goIdle l s = s.setLine l { s.line l with phase := .idle } :=
  flushAnnounces_busy (.inl (configuredAddrs_ne_nil.mpr (by rw [setPhase_ctx]; exact on)))

theorem goIdle_none (off : ∀ a, (s.ctx l a).pstate = .unconfigured) :
    goIdle l s = sendAnnounces l ((s.line l).annWait.length + 1) (s.setLine l { s.line l with phase := .idle }) := by
  have line : (setPhase l .idle s).line l = { s.line l with phase := .idle } := setLine_line_same _
  rw [goIdle, flushAnnounces_free (configuredAddrs_eq_nil.mpr (by rw [setPhase_ctx]; exact off)) (by rw [line]; exact .inl rfl), line]
  rfl

/-! ## A turn begins (R88, R101) -/

theorem beginTurn_eq (a : Addr) (claim : Bool) :
    beginTurn l a claim s = (sendAnnounce l s).setLine l
      { (sendAnnounce l s).line l with
        sent := ((sendAnnounce l s).line l).sent ++ [pollFrame a (s.ctx l a).ackSeq], phase := .turn a claim } := by
  unfold beginTurn
  dsimp only
  rw [sendAnnounce_ctx, sendFrame, setPhase, modLine_modLine]
  rfl

/-! ## A cycle (R87) -/

theorem nextTurn_of_cons {a : Addr} {rest as : List Addr}
    (next : as.dropWhile (fun a => decide ((s.ctx l a).pstate = .unconfigured)) = a :: rest) :
    nextTurn l as s = beginTurn l a false (s.setLine l { s.line l with rest := rest }) := by
  induction as with
  | nil => simp at next
  | cons b as ih =>
    by_cases off : (s.ctx l b).pstate = .unconfigured
    · rw [List.dropWhile_cons_of_pos (by simpa using off)] at next
      rw [nextTurn, if_neg (by simpa [configured_iff] using off), ih next]
    · rw [List.dropWhile_cons_of_neg (by simpa using off)] at next
      obtain ⟨rfl, rfl⟩ := List.cons.inj next
      exact if_pos (configured_iff.mpr off)

theorem nextTurn_of_nil {as : List Addr} (done : as.dropWhile (fun a => decide ((s.ctx l a).pstate = .unconfigured)) = []) :
    nextTurn l as s = endCycle l (s.setLine l { s.line l with rest := [] }) := by
  induction as with
  | nil => rfl
  | cons b as ih =>
    by_cases off : (s.ctx l b).pstate = .unconfigured
    · rw [List.dropWhile_cons_of_pos (by simpa using off)] at done
      rw [nextTurn, if_neg (by simpa [configured_iff] using off), ih done]
    · rw [List.dropWhile_cons_of_neg (by simpa using off)] at done
      cases done

/-- The contexts of a line that changed in nothing else that `ctx` reads. -/
theorem setLine_ctx {u : LineUnit} (same : u.ctx = (s.line l).ctx) : (s.setLine l u).ctx = s.ctx := by
  funext m a
  unfold State.ctx
  by_cases h : m = l
  · rw [h, setLine_line_same, same]
  · rw [setLine_line_other _ h]

/-- How many periods a cycle lasts, out of RETAIN. -/
def periodOf (x : SState) : Nat := if x = .run then 16384 else 131072

theorem cycleDue_iff : cycleDue l s = true ↔
    s.pwc.sstate ≠ .retain ∧ ((s.line l).phase = .idle ∨ (s.line l).phase = .restarted ∧ s.pwc.phase = .open) ∧
      configuredAddrs (s.line l) ≠ [] ∧ ∀ t, (s.line l).cycleStart = some t → t + periodOf s.pwc.sstate ≤ s.ctu.periods := by
  unfold cycleDue cyclePeriod periodOf
  cases s.pwc.sstate with
  | retain => simp
  | run =>
    simp only [Bool.and_eq_true, Bool.or_eq_true, decide_eq_true_iff, Bool.not_eq_true', List.isEmpty_eq_false_iff, Option.all_eq_true,
      and_assoc]
    exact ⟨fun h => ⟨nofun, h⟩, And.right⟩
  | quiet =>
    simp only [Bool.and_eq_true, Bool.or_eq_true, decide_eq_true_iff, Bool.not_eq_true', List.isEmpty_eq_false_iff, Option.all_eq_true,
      and_assoc]
    exact ⟨fun h => ⟨nofun, h⟩, And.right⟩

theorem periodsFit_iff {n : Nat} : periodsFit n s = true ↔ s.ctu.refcount + n < 1966080 := by
  exact decide_eq_true_iff

theorem exec_cycleStart (elapsed : Nat) : exec (.cycleStart l elapsed) s = .next (
    if periodsFit elapsed s then
      if cycleDue l (passPeriods elapsed s) then beginCycle l (passPeriods elapsed s) else passPeriods elapsed s
    else s) := rfl

theorem beginCycle_cons {a : Addr} {as : List Addr} (first : configuredAddrs (s.line l) = a :: as) :
    beginCycle l s = beginTurn l a false (s.setLine l
      { s.line l with cycleStart := some s.ctu.periods, cycleList := a :: as, rest := as, sent := [] }) := by
  have on : (s.ctx l a).configured = true := configured_iff.mpr (mem_configuredAddrs.mp (first ▸ List.mem_cons_self))
  have started : modLine l (fun u => { u with cycleStart := some s.ctu.periods, cycleList := a :: as }) (clearSent l s) =
      s.setLine l { s.line l with cycleStart := some s.ctu.periods, cycleList := a :: as, sent := [] } := by
    rw [clearSent, modLine_modLine]
    rfl
  have same : (s.setLine l { s.line l with cycleStart := some s.ctu.periods, cycleList := a :: as, sent := [] }).ctx = s.ctx := setLine_ctx rfl
  have next := nextTurn_of_cons (l := l) (as := a :: as) (a := a) (rest := as)
    (s := s.setLine l { s.line l with cycleStart := some s.ctu.periods, cycleList := a :: as, sent := [] })
    (List.dropWhile_cons_of_neg (by rw [same]; simpa [configured_iff] using on))
  rw [setLine_line_same, setLine_setLine] at next
  unfold beginCycle
  dsimp only
  rw [first]
  exact (congrArg (nextTurn l (a :: as)) started).trans next

end

/-- Settles O40: a cycle is due by what stands on the line, a turn begins by what stands in the slot, and a claim is read from its bits. -/
theorem cyclesPollAndClaimsGetTurns : Obligations.CyclesPollAndClaimsGetTurns := by
  unfold Obligations.CyclesPollAndClaimsGetTurns
  refine ⟨fun l elapsed s a as => ?_, fun l elapsed s => ⟨fun late => ?_, fun fits stands => ?_⟩, fun l a claim s => ⟨beginTurn_eq a claim, fun empty => ?_, fun an held => ?_⟩,
    fun l bits s window => ⟨fun claims on => ?_, fun no => ?_⟩⟩
  · intro u now fits free power first since
    have due : cycleDue l (passPeriods elapsed s) = true :=
      cycleDue_iff.mpr ⟨power, free, by rw [show configuredAddrs ((passPeriods elapsed s).line l) = a :: as from first]; simp, since⟩
    rw [exec_cycleStart, if_pos (periodsFit_iff.mpr fits), if_pos due, beginCycle_cons (s := passPeriods elapsed s) first]
    rfl
  · rw [exec_cycleStart, if_neg (by rw [periodsFit_iff]; omega)]
  · have not_due : ¬cycleDue l (passPeriods elapsed s) = true := by
      rw [cycleDue_iff]
      rintro ⟨power, free, some_address, since⟩
      rcases stands with h | h | ⟨a, claim, h⟩ | h | h | ⟨h, k⟩ | ⟨t, h, k⟩
      · exact power h
      · exact some_address h
      · exact absurd (free.imp_right And.left) (by rw [show ((passPeriods elapsed s).line l).phase = _ from h]; simp)
      · exact absurd (free.imp_right And.left) (by rw [show ((passPeriods elapsed s).line l).phase = _ from h]; simp)
      · exact absurd (free.imp_right And.left) (by rw [show ((passPeriods elapsed s).line l).phase = _ from h]; simp)
      · exact free.elim (fun idle => by cases h.symm.trans idle) fun restarted => k restarted.2
      · exact absurd (since t h) (Nat.not_le.mpr k)
    rw [exec_cycleStart, if_pos (periodsFit_iff.mpr fits), if_neg not_due]
    rfl
  · rw [beginTurn_eq, sendAnnounce_none empty]
  · refine ⟨_, rfl, ?_, fun l' other => ?_, (only_beginTurn (by decide) (by decide) (by decide)).mpr (.refl _ _)⟩
    · rw [beginTurn_eq, setLine_line_same, sendAnnounce_line held, setLine_line_same]
      rfl
    · rw [beginTurn_eq, setLine_line_other _ other, sendAnnounce_line held, setLine_line_other _ other]
  · have low : bits.msb = false := by simpa [BitVec.msb_eq_decide] using claims
    have run : exec (.claimWindow l bits) s = .next (if (s.line l).phase = .window then
        if !bits.msb && ((clearSent l s).ctx l (Fin.ofNat 32 bits.toNat)).configured then
          beginTurn l (Fin.ofNat 32 bits.toNat) true (clearSent l s) else goIdle l (clearSent l s) else s) := rfl
    rw [run, if_pos window, clearSent_ctx, if_pos (by rw [low, configured_iff.mpr on]; rfl)]
    rfl
  · have run : exec (.claimWindow l bits) s = .next (if (s.line l).phase = .window then
        if !bits.msb && ((clearSent l s).ctx l (Fin.ofNat 32 bits.toNat)).configured then
          beginTurn l (Fin.ofNat 32 bits.toNat) true (clearSent l s) else goIdle l (clearSent l s) else s) := rfl
    have refused : ¬(!bits.msb && (s.ctx l (Fin.ofNat 32 bits.toNat)).configured) = true := by
      rw [Bool.and_eq_true, configured_iff, Bool.not_eq_true']
      rintro ⟨low, on⟩
      refine no.elim (fun high => ?_) on
      exact absurd high (by simpa [BitVec.msb_eq_decide] using low)
    rw [run, if_pos window, clearSent_ctx, if_neg refused]
    rfl

section
variable {l : Line} {a : Addr} {claim : Bool} {s : State}

theorem exec_goodStatus_of_turn (turn : (s.line l).phase = .turn a claim) {octets : List Byte} {st : Status}
    (good : judgeStatus a octets = some st) : exec (.goodStatus l octets) s =
      .next (finishTurn l claim (if (s.ctx l a).configured then goodSteps l a st (clearSent l s) else clearSent l s)) := by
  have run : exec (.goodStatus l octets) s = execGoodStatus l octets s := rfl
  rw [run, execGoodStatus, turn]
  dsimp only
  rw [good]
  dsimp only
  rw [clearSent_ctx]

theorem exec_frameError_of_turn (turn : (s.line l).phase = .turn a claim) {octets : List Byte} (bad : judgeStatus a octets = none) :
    exec (.frameError l octets) s =
      .next (finishTurn l claim (if (s.ctx l a).configured then failTurn l a .crc (clearSent l s) else clearSent l s)) := by
  have run : exec (.frameError l octets) s = execFrameError l octets s := rfl
  rw [run, execFrameError, turn]
  dsimp only
  rw [bad]
  dsimp only
  rw [clearSent_ctx]

theorem exec_answerTimeout_of_turn (turn : (s.line l).phase = .turn a claim) : exec (.answerTimeout l) s =
    .next (finishTurn l claim (if (s.ctx l a).configured then failTurn l a .timeout (clearSent l s) else clearSent l s)) := by
  have run : exec (.answerTimeout l) s = execAnswerTimeout l s := rfl
  rw [run, execAnswerTimeout, turn]
  dsimp only
  rw [clearSent_ctx]

theorem finishTurn_claim : finishTurn l true s = goIdle l (doResets l s) := rfl

theorem finishTurn_poll : finishTurn l false s = nextTurn l ((doResets l s).line l).rest (doResets l s) := rfl

end

/-- Settles O41: the judgement of the frame chooses the steps, and the rest of the cycle the next turn. -/
theorem turnsEndInOneOfThreeWays : Obligations.TurnsEndInOneOfThreeWays := by
  unfold Obligations.TurnsEndInOneOfThreeWays
  refine ⟨fun l a claim s turn => ?_, fun l s => ?_⟩
  · have off_iff : ¬(s.ctx l a).pstate ≠ .unconfigured → ¬(s.ctx l a).configured = true := fun off => configured_iff.not.mpr off
    refine ⟨fun octets st good => ⟨fun on => ?_, fun off => ?_, ?_⟩, fun octets bad => ⟨fun on => ?_, fun off => ?_, ?_⟩, fun on => ?_, fun off => ?_⟩
    · rw [exec_goodStatus_of_turn turn good, if_pos (configured_iff.mpr on)]
      rfl
    · rw [exec_goodStatus_of_turn turn good, if_neg (off_iff off)]
      rfl
    · have run : exec (.frameError l octets) s = execFrameError l octets s := rfl
      rw [run, execFrameError, turn]
      dsimp only
      rw [good]
    · rw [exec_frameError_of_turn turn bad, if_pos (configured_iff.mpr on)]
      rfl
    · rw [exec_frameError_of_turn turn bad, if_neg (off_iff off)]
      rfl
    · have run : exec (.goodStatus l octets) s = execGoodStatus l octets s := rfl
      rw [run, execGoodStatus, turn]
      dsimp only
      rw [bad]
    · rw [exec_answerTimeout_of_turn turn, if_pos (configured_iff.mpr on)]
      rfl
    · rw [exec_answerTimeout_of_turn turn, if_neg (off_iff off)]
      rfl
  · intro t u onward idle
    have same : (t.setLine l { u with rest := [] }).ctx = t.ctx := setLine_ctx rfl
    refine ⟨fun none_wait => ?_, rfl, fun a rest next => ?_, fun done on => ?_, fun done off => ?_, goIdle_some, goIdle_none⟩
    · show doResets l s = s
      unfold doResets
      dsimp only
      rw [none_wait, List.foldl_nil, modLine]
      exact (congrArg (s.setLine l) (by rw [← none_wait])).trans setLine_self
    · exact nextTurn_of_cons next
    · obtain ⟨a, as, addrs⟩ := List.exists_cons_of_ne_nil (configuredAddrs_ne_nil.mpr (by rw [same]; exact on))
      rw [finishTurn_poll, nextTurn_of_nil done, endCycle_of_some addrs]
      simp only [setPhase, modLine, setLine_line_same, setLine_setLine]
    · rw [finishTurn_poll, nextTurn_of_nil done, endCycle_of_none (configuredAddrs_eq_nil.mpr (by rw [same]; exact off))]

end Sys2Proof.Machine

/-! PROOFS. Panel lines: the steps of a good STATUS and of a failed turn (05 R88, R89, R97, R98). -/

namespace Sys2Proof.Machine

open Host

/-! ## What the later steps of a good STATUS keep -/

/-- What a context holds of its panel's state and readings. -/
structure Readings where
  pstate : PState
  missed : Nat
  room : Option Room
  rawLast : Option Raw
  rawPrev : Option Raw

def PanelCtx.readings (c : PanelCtx) : Readings := ⟨c.pstate, c.missed, c.room, c.rawLast, c.rawPrev⟩

theorem PanelCtx.readings_eq_iff {c : PanelCtx} {x : Readings} : c.readings = x ↔
    c.pstate = x.pstate ∧ c.missed = x.missed ∧ c.room = x.room ∧ c.rawLast = x.rawLast ∧ c.rawPrev = x.rawPrev := by
  cases x
  simp [PanelCtx.readings]

/-- From `s` to `t` the context of one address may have changed, but in its state and readings; no notice has been handed, and what was
handed to OCU stands before what is new. -/
structure Served (l : Line) (a : Addr) (s t : State) : Prop where
  readings : (t.ctx l a).readings = (s.ctx l a).readings
  others : ∀ l' a', (l', a') ≠ (l, a) → t.ctx l' a' = s.ctx l' a'
  notices : t.wires.notices = s.wires.notices
  told : s.wires.fromLine[l] <+: t.wires.fromLine[l]

namespace Served
variable {l : Line} {a : Addr} {s t u : State}

theorem refl : Served l a s s := ⟨rfl, fun _ _ _ => rfl, rfl, List.prefix_rfl⟩

section
variable (served : Served l a s t)
include served

theorem of_ctx (same : u.ctx = t.ctx) (wires : u.wires = t.wires) : Served l a s u :=
  ⟨by rw [same]; exact served.readings, fun l' a' other => by rw [same]; exact served.others l' a' other, by rw [wires]; exact served.notices,
    by rw [wires]; exact served.told⟩

theorem setCtx {x : PanelCtx} (same : x.readings = (t.ctx l a).readings) : Served l a s (setCtx l a x t) :=
  ⟨by rw [setCtx_ctx_same, same, served.readings],
    fun l' a' other => (setCtx_ctx_other fun ⟨h, k⟩ => other (by rw [h, k])).trans (served.others l' a' other), served.notices, served.told⟩

theorem modCtx {f : PanelCtx → PanelCtx} (same : ∀ c, (f c).readings = c.readings) : Served l a s (modCtx l a f t) :=
  served.setCtx (same _)

theorem tellOcu (m : Room → LineMsg) : Served l a s (tellOcu l a m t) := by
  rw [tellOcu_eq]
  refine ⟨served.readings, served.others, served.notices, ?_⟩
  simp only [handMsgs, State.setWires_wires, modAt_get_same]
  exact served.told.trans (List.prefix_append _ _)

theorem handNext : Served l a s (handNext l a t) := by
  have onward (es : List PEvent) : ∀ u, Served l a s u → Served l a s (handOnward l a es u) := by
    induction es with
    | nil => exact fun u served => served.modCtx fun _ => rfl
    | cons e es ih =>
      intro u served
      unfold handOnward
      split
      · exact ih _ (served.modCtx fun _ => rfl)
      · refine tellOcu (modCtx served ?_) _
        exact fun _ => rfl
  unfold Machine.handNext
  dsimp only
  split
  · exact onward _ _ served
  · exact served

theorem eventWalk (es : List PEvent) : Served l a s (eventWalk l a es t) := by
  refine handNext (setCtx served ?_)
  rfl

theorem pushDisplay (q : Seq) : Served l a s (pushDisplay l a q t) := by
  unfold Machine.pushDisplay
  dsimp only
  split
  · refine of_ctx (setCtx served ?_) (sendFrame_ctx _ _ _) rfl
    rfl
  · exact served.of_ctx (sendFrame_ctx _ _ _) rfl
  · exact served
  · exact served

end

end Served

/-! ## The applied version (R98) -/

/-- What the applied version makes of a context, before a display is asked for again. -/
def PanelCtx.afterApplied (q : Seq) (c : PanelCtx) : PanelCtx :=
  if c.dvSent = some q then
    { c with
      dvAck := some q
      dentry := match c.dentry with
        | some (.sent x v) => if v = q then none else some (.sent x v)
        | y => y }
  else c

theorem PanelCtx.afterApplied_readings (q : Seq) (c : PanelCtx) : (c.afterApplied q).readings = c.readings := by
  unfold PanelCtx.afterApplied
  split <;> rfl

theorem takeApplied_eq (l : Line) (a : Addr) (q : Seq) (s : State) : takeApplied l a q s =
    if ((s.ctx l a).afterApplied q).dentry = none ∧ ((s.ctx l a).afterApplied q).dvAck ≠ some q then
      tellOcu l a .loss (setCtx l a { (s.ctx l a).afterApplied q with dentry := some .awaiting } s)
    else setCtx l a ((s.ctx l a).afterApplied q) s := by
  have taken : takeApplied l a q s =
      if ((s.ctx l a).afterApplied q).dentry.isNone && ((s.ctx l a).afterApplied q).dvAck != some q then
        tellOcu l a .loss (setCtx l a { (s.ctx l a).afterApplied q with dentry := some .awaiting } (setCtx l a ((s.ctx l a).afterApplied q) s))
      else setCtx l a ((s.ctx l a).afterApplied q) s := rfl
  rw [taken, setCtx_setCtx]
  refine if_congr ?_ rfl rfl
  simp

theorem Served.takeApplied {l : Line} {a : Addr} {s t : State} (served : Served l a s t) (q : Seq) :
    Served l a s (takeApplied l a q t) := by
  rw [takeApplied_eq]
  split
  · refine tellOcu (setCtx served ?_) _
    exact PanelCtx.afterApplied_readings q (t.ctx l a)
  · exact served.setCtx (PanelCtx.afterApplied_readings q _)

/-! ## The steps of a good STATUS (R89) -/

section
variable (l : Line) (a : Addr) (st : Status) (s : State)

/-- The panel ONLINE, and what is handed when it was OFFLINE. -/
def nowOnline : State :=
  if (s.ctx l a).pstate = .offline then
    handMsgs l ((s.ctx l a).msgs a .up) (handNotes l [panelNote .panelOnline l a (s.ctx l a).room st.applied.val]
      (setCtx l a { s.ctx l a with missed := 0, pstate := .online } s))
  else setCtx l a { s.ctx l a with missed := 0, pstate := .online } s

/-- The readings shifted and handed. -/
def nowRead : State :=
  handMsgs l ((s.ctx l a).msgs a fun r => .presence (s.line l).era r st.raw (s.ctx l a).rawLast)
    (modCtx l a (fun c => { c with rawLast := some st.raw, rawPrev := (s.ctx l a).rawLast })
      (takeApplied l a st.applied (nowOnline l a st s)))

theorem nowOnline_ctx : (nowOnline l a st s).ctx = (setCtx l a { s.ctx l a with missed := 0, pstate := .online } s).ctx := by
  unfold nowOnline
  split <;> rfl

theorem takeApplied_era (q : Seq) : ((takeApplied l a q s).line l).era = (s.line l).era := by
  rw [takeApplied_eq]
  split
  · rw [tellOcu_eq, handMsgs_line, setCtx_line]
  · rw [setCtx_line]

theorem nowOnline_era : ((nowOnline l a st s).line l).era = (s.line l).era := by
  unfold nowOnline
  split
  · rw [handMsgs_line, handNotes_line, setCtx_line]
  · rw [setCtx_line]

/-- The readings of the context as the panel is ONLINE. -/
theorem nowOnline_readings : ((nowOnline l a st s).ctx l a).readings =
    ⟨.online, 0, (s.ctx l a).room, (s.ctx l a).rawLast, (s.ctx l a).rawPrev⟩ := by
  rw [nowOnline_ctx, setCtx_ctx_same]
  rfl

/-- After the applied version the context names the room and the last reading that it named before. -/
theorem applied_ctx : ((takeApplied l a st.applied (nowOnline l a st s)).ctx l a).readings =
    ⟨.online, 0, (s.ctx l a).room, (s.ctx l a).rawLast, (s.ctx l a).rawPrev⟩ :=
  (Served.refl.takeApplied st.applied).readings.trans (nowOnline_readings l a st s)

theorem goodSteps_eq : goodSteps l a st s = pushDisplay l a st.applied (eventWalk l a st.events (nowRead l a st s)) := by
  have online : (if (s.ctx l a).pstate = .offline then
        tellOcu l a .up (panelNotice .panelOnline l a st.applied.val (setCtx l a { s.ctx l a with missed := 0, pstate := .online } s))
      else setCtx l a { s.ctx l a with missed := 0, pstate := .online } s) = nowOnline l a st s := by
    unfold nowOnline
    rw [tellOcu_eq, panelNotice_eq, handNotes_ctx, setCtx_ctx_same]
    rfl
  obtain ⟨_, _, room, last, _⟩ := PanelCtx.readings_eq_iff.mp (applied_ctx l a st s)
  have era : ((takeApplied l a st.applied (nowOnline l a st s)).line l).era = (s.line l).era :=
    (takeApplied_era l a _ st.applied).trans (nowOnline_era l a st s)
  unfold goodSteps nowRead
  dsimp only
  rw [online]
  generalize takeApplied l a st.applied (nowOnline l a st s) = v at room last era
  rw [tellOcu_eq, modCtx, modCtx, setCtx_ctx_same, setCtx_line, era, last, PanelCtx.msgs, PanelCtx.msgs, room]

/-- The steps after the panel is ONLINE change its readings only as the status says. -/
theorem nowRead_readings : ((nowRead l a st s).ctx l a).readings = ⟨.online, 0, (s.ctx l a).room, some st.raw, (s.ctx l a).rawLast⟩ := by
  obtain ⟨state, missed, room, _, _⟩ := PanelCtx.readings_eq_iff.mp (applied_ctx l a st s)
  refine PanelCtx.readings_eq_iff.mpr ?_
  rw [nowRead, handMsgs_ctx, modCtx_ctx_same]
  exact ⟨state, missed, room, rfl, rfl⟩

theorem nowRead_others (l' : Line) (a' : Addr) (other : (l', a') ≠ (l, a)) : (nowRead l a st s).ctx l' a' = s.ctx l' a' := by
  have apart : ¬(l = l' ∧ a = a') := fun ⟨h, k⟩ => other (by rw [h, k])
  rw [nowRead, handMsgs_ctx, modCtx_ctx_other apart, (Served.refl.takeApplied st.applied).others l' a' other, nowOnline_ctx,
    setCtx_ctx_other apart]

theorem nowRead_notices : (nowRead l a st s).wires.notices = (nowOnline l a st s).wires.notices :=
  (Served.refl.takeApplied (l := l) (a := a) (s := nowOnline l a st s) st.applied).notices

theorem nowRead_told : (nowOnline l a st s).wires.fromLine[l] <+: (nowRead l a st s).wires.fromLine[l] := by
  have applied := (Served.refl.takeApplied (l := l) (a := a) (s := nowOnline l a st s) st.applied).told
  refine applied.trans ?_
  simp only [nowRead, handMsgs, State.setWires_wires, modAt_get_same]
  exact List.prefix_append _ _

theorem nowRead_presence {r : Room} (room : (s.ctx l a).room = some r) :
    (a, LineMsg.presence (s.line l).era r st.raw (s.ctx l a).rawLast) ∈ (nowRead l a st s).wires.fromLine[l] := by
  simp only [nowRead, handMsgs, State.setWires_wires, modAt_get_same, PanelCtx.msgs, room]
  simp

theorem nowOnline_up {r : Room} (room : (s.ctx l a).room = some r) (offline : (s.ctx l a).pstate = .offline) :
    (a, LineMsg.up r) ∈ (nowOnline l a st s).wires.fromLine[l] := by
  simp only [nowOnline, if_pos offline, handMsgs, State.setWires_wires, modAt_get_same, PanelCtx.msgs, room]
  simp

end

/-! ## The push after a good turn (R97) -/

section
variable {l : Line} {a : Addr} {q : Seq} {s : State}

theorem pushDisplay_unsent {x : DisplayRec} (entry : (s.ctx l a).dentry = some (.unsent x)) :
    pushDisplay l a q s = s.setLine l
      { s.line l with
        ctx := put (s.line l).ctx a
          { s.ctx l a with dentry := some (.sent x ((s.ctx l a).dvSent.getD q + 1)), dvSent := some ((s.ctx l a).dvSent.getD q + 1) }
        sent := (s.line l).sent ++ [displayFrame a ((s.ctx l a).dvSent.getD q + 1) x] } := by
  unfold pushDisplay
  dsimp only
  rw [entry]
  dsimp only
  rw [sendFrame, setCtx, modLine_modLine]
  rfl

theorem pushDisplay_sent {x : DisplayRec} {v : Seq} (entry : (s.ctx l a).dentry = some (.sent x v)) :
    pushDisplay l a q s = s.setLine l { s.line l with sent := (s.line l).sent ++ [displayFrame a v x] } := by
  unfold pushDisplay
  dsimp only
  rw [entry]
  rfl

theorem pushDisplay_stands (entry : (s.ctx l a).dentry = none ∨ (s.ctx l a).dentry = some .awaiting) : pushDisplay l a q s = s := by
  unfold pushDisplay
  dsimp only
  rcases entry with entry | entry <;> rw [entry]

end

/-- Settles O42: the panel ONLINE and read, then steps that leave its readings; and a failed turn by what MISSED reaches. -/
theorem turnsUpdateTheirContexts : Obligations.TurnsUpdateTheirContexts := by
  unfold Obligations.TurnsUpdateTheirContexts
  refine ⟨fun l a st s => ?_, fun l a s => ?_, fun l a k s => ?_⟩
  · intro c t inCtx tell online v1 v2 v3 v4
    have tell_eq (m : Room → LineMsg) (v : State) : tell m v = handMsgs l (c.msgs a m) v := by
      show (match c.room with
        | some r => handOcu l a (m r) v
        | none => v) = _
      unfold PanelCtx.msgs
      cases c.room with
      | none => exact handMsgs_nil.symm
      | some r => rfl
    have v2_eq : v2 = nowOnline l a st s := by
      show (if c.pstate = .offline then tell .up (handNotice (.plu l) online v1) else v1) = _
      rw [tell_eq]
      rfl
    have v4_eq : v4 = nowRead l a st s := by
      show tell _ (setCtx l a { (takeApplied l a st.applied v2).ctx l a with rawLast := some st.raw, rawPrev := c.rawLast }
        (takeApplied l a st.applied v2)) = _
      rw [tell_eq, v2_eq]
      rfl
    have steps : t = pushDisplay l a st.applied (eventWalk l a st.events v4) := by rw [v4_eq]; exact goodSteps_eq l a st s
    have served : Served l a (nowRead l a st s) t := by
      rw [steps, v4_eq]
      exact (Served.refl.eventWalk st.events).pushDisplay st.applied
    obtain ⟨state, missed, room, last, prev⟩ := PanelCtx.readings_eq_iff.mp (served.readings.trans (nowRead_readings l a st s))
    have notices : t.wires.notices = (nowOnline l a st s).wires.notices := served.notices.trans (nowRead_notices l a st s)
    refine ⟨steps, missed, state, room, last, prev, fun l' a' other => (served.others l' a' other).trans (nowRead_others l a st s l' a' other),
      fun was => ?_, fun was => ?_, fun r named => ⟨served.told.mem (nowRead_presence l a st s named), fun was => ?_⟩, by simp [t]⟩
    · rw [notices, nowOnline, if_neg was]
      rfl
    · rw [notices, nowOnline, if_pos was]
      rfl
    · exact ((nowRead_told l a st s).trans served.told).mem (nowOnline_up l a st s named was)
  · intro c u inCtx
    refine ⟨fun q => ?_, fun es => rfl, handNext_stands l a s, fun voids e free buffered pass => ?_,
      fun q => ⟨fun x => pushDisplay_unsent, fun x v => pushDisplay_sent, pushDisplay_stands⟩⟩
    · intro d
      have d_eq : c.afterApplied q = d := rfl
      have room : d.room = c.room := (PanelCtx.readings_eq_iff.mp (PanelCtx.afterApplied_readings q c)).2.2.1
      rw [takeApplied_eq, show (s.ctx l a).afterApplied q = d from d_eq]
      clear_value d
      refine ⟨fun gone other => ⟨fun r named => ?_, fun unnamed => ?_⟩, fun stands => if_neg ?_⟩
      · rw [if_pos ⟨gone, other⟩, tellOcu_of_room (by rw [setCtx_ctx_same]; exact room.trans named)]
        rfl
      · rw [if_pos ⟨gone, other⟩, tellOcu_of_none (by rw [setCtx_ctx_same]; exact room.trans unnamed)]
        rfl
      · rintro ⟨gone, other⟩
        exact stands.elim (fun h => h gone) other
    · exact handNext_voids l a s free pass (by rw [show (s.ctx l a).evbuf = voids ++ [e] from buffered]; simp)
  · intro c t missed
    obtain ⟨x, line⟩ := failTurn_line l a k s
    have counted : t.line l = _ := line
    have others : ∀ l' a', (l', a') ≠ (l, a) → t.ctx l' a' = s.ctx l' a' := fun l' a' other => by
      have apart : ¬(l = l' ∧ a = a') := fun ⟨h, k⟩ => other (by rw [h, k])
      by_cases down : c.pstate = .online ∧ missed = 3
      · rw [show t = _ from failTurn_offline l a k s down.1 down.2, handMsgs_ctx, handNotes_ctx, setCtx_ctx_other apart, countFailure_ctx]
      · rw [show t = _ from failTurn_counts l a k s (not_and_or.mp down), setCtx_ctx_other apart, countFailure_ctx]
    refine ⟨by rw [counted]; rfl, by rw [counted]; rfl, by rw [counted]; rfl, others, fun stays => ?_, fun on third => ?_, by simp [t]⟩
    · rw [show t = _ from failTurn_counts l a k s stays, setCtx_ctx_same]
      exact ⟨rfl, rfl⟩
    · rw [show t = _ from failTurn_offline l a k s on third]
      refine ⟨setCtx_ctx_same, ⟨panelNote .panelOffline l a c.room k.toNat, rfl, rfl, rfl, rfl, rfl⟩, fun r named => ?_⟩
      rw [PanelCtx.msgs, show (s.ctx l a).room = some r from named]
      rfl

end Sys2Proof.Machine

/-! PROOFS. Panel lines: where an announcement is placed, which addresses it reaches, and when its request is answered (05 R101, R102). -/

namespace Sys2Proof.Machine

open Host

/-! ## The addresses a group reaches (R102) -/

theorem hits_iff (an : Announcement) (a : Addr) :
    an.hits a = true ↔ ∀ b : Fin 5, an.mask.testBit b.val = true ∨ (a.val.testBit b.val = an.pattern.testBit b.val) := by
  have bit (b : Fin 5) : ((BitVec.ofNat 5 a.val ^^^ BitVec.ofNat 5 an.pattern) &&& ~~~(BitVec.ofNat 5 an.mask)).getLsbD b.val = false ↔
      (an.mask.testBit b.val = true ∨ (a.val.testBit b.val = an.pattern.testBit b.val)) := by
    have low : b.val < 5 := b.isLt
    simp only [BitVec.getLsbD_and, BitVec.getLsbD_xor, BitVec.getLsbD_not, BitVec.getLsbD_ofNat, low, decide_true, Bool.true_and]
    cases an.mask.testBit b.val <;> cases a.val.testBit b.val <;> cases an.pattern.testBit b.val <;> decide
  have zero : an.hits a = true ↔ (BitVec.ofNat 5 a.val ^^^ BitVec.ofNat 5 an.pattern) &&& ~~~(BitVec.ofNat 5 an.mask) = 0 := decide_eq_true_iff
  rw [zero]
  constructor
  · intro all b
    rw [← bit, all]
    exact BitVec.getLsbD_zero
  · intro all
    refine BitVec.eq_of_getLsbD_eq fun i low => ?_
    rw [(bit ⟨i, low⟩).mpr (all ⟨i, low⟩)]
    exact BitVec.getLsbD_zero.symm

theorem hits_of_full_mask {an : Announcement} {a : Addr} (full : an.mask = 31) : an.hits a = true := by
  rw [hits_iff, full]
  exact fun b => .inl ((by decide : ∀ b : Fin 5, Nat.testBit 31 b.val = true) b)

theorem hits_of_no_mask {an : Announcement} {a : Addr} (empty : an.mask = 0) (small : an.pattern ≤ 31) :
    an.hits a = true ↔ a.val = an.pattern := by
  simp only [hits_iff, empty, Nat.zero_testBit, Bool.false_eq_true, false_or]
  refine ⟨fun same => Nat.eq_of_testBit_eq fun i => ?_, fun same b => by rw [same]⟩
  by_cases low : i < 5
  · exact same ⟨i, low⟩
  · have below {n : Nat} (small : n < 2 ^ 5) : n.testBit i = false :=
      Nat.testBit_lt_two_pow (small.trans_le (Nat.pow_le_pow_right (by decide) (Nat.not_lt.mp low)))
    rw [below a.isLt, below (by omega)]

/-! ## One line's part of a request done -/

section
variable {l : Line} {j k : LineJob} {count : Nat}

theorem jobStep_other {p : Port} {n : Fin 256} {ann : Bool} (other : ¬(k.port = p ∧ k.reqno = n ∧ k.announce = ann)) :
    jobStep l p n ann count k = k := if_neg other

theorem jobStep_own : jobStep l j.port j.reqno j.announce count j =
    { j with left := j.left.filter (fun x => x != l), counts := j.counts ++ [(l, count)] } := if_pos ⟨rfl, rfl, rfl⟩

/-- Of the jobs only the request's own changes. -/
theorem map_jobStep_others {ks : List LineJob} (others : ∀ k ∈ ks, ¬(k.port = j.port ∧ k.reqno = j.reqno ∧ k.announce = j.announce)) :
    ks.map (jobStep l j.port j.reqno j.announce count) = ks := by
  rw [List.map_congr_left fun k mem => jobStep_other (others k mem), List.map_id']

theorem filter_done_eq_nil {ks : List LineJob} (waits : ∀ k ∈ ks, k.left ≠ []) : ks.filter (fun k => k.left.isEmpty) = [] :=
  List.filter_eq_nil_iff.mpr fun k mem => by simpa using waits k mem

theorem filter_waiting_eq_self {ks : List LineJob} (waits : ∀ k ∈ ks, k.left ≠ []) : ks.filter (fun k => !k.left.isEmpty) = ks :=
  List.filter_eq_self.mpr fun k mem => by simpa using waits k mem

/-- A line's part done: the jobs left waiting stay, and those that wait no longer are answered. -/
theorem lineDone_eq (s : State) (p : Port) (n : Fin 256) (ann : Bool) : lineDone l p n ann count s =
    ((s.jobs.map (jobStep l p n ann count)).filter (fun j => j.left.isEmpty)).foldl
      (fun s j => answer j.port j.reqno .ok (jobItems j) s)
      (s.setJobs ((s.jobs.map (jobStep l p n ann count)).filter (fun j => !j.left.isEmpty))) := rfl

variable {s : State} {before after : List LineJob} (jobs : s.jobs = before ++ j :: after)
  (others : ∀ k ∈ before ++ after, ¬(k.port = j.port ∧ k.reqno = j.reqno ∧ k.announce = j.announce) ∧ k.left ≠ [])
include jobs others

/-- The jobs after a line's part is done. -/
theorem map_jobStep : s.jobs.map (jobStep l j.port j.reqno j.announce count) =
    before ++ { j with left := j.left.filter (fun x => x != l), counts := j.counts ++ [(l, count)] } :: after := by
  rw [jobs, List.map_append, List.map_cons, map_jobStep_others fun k mem => (others k (by simp [mem])).1,
    map_jobStep_others fun k mem => (others k (by simp [mem])).1, jobStep_own]

theorem lineDone_of_left (left : j.left.filter (fun x => x != l) ≠ []) :
    lineDone l j.port j.reqno j.announce count s = s.setJobs
      (before ++ { j with left := j.left.filter (fun x => x != l), counts := j.counts ++ [(l, count)] } :: after) := by
  have waits : ∀ k ∈ before ++ { j with left := j.left.filter (fun x => x != l), counts := j.counts ++ [(l, count)] } :: after,
      k.left ≠ [] := by
    intro k mem
    rcases List.mem_append.mp mem with h | h
    · exact (others k (by simp [h])).2
    · rcases List.mem_cons.mp h with rfl | h
      · exact left
      · exact (others k (by simp [h])).2
  rw [lineDone_eq, map_jobStep jobs others, filter_done_eq_nil waits, filter_waiting_eq_self waits]
  rfl

theorem lineDone_of_last (last : j.left.filter (fun x => x != l) = []) :
    lineDone l j.port j.reqno j.announce count s =
      answer j.port j.reqno .ok (jobItems { j with left := [], counts := j.counts ++ [(l, count)] }) (s.setJobs (before ++ after)) := by
  have waits {ks : List LineJob} (within : ∀ k ∈ ks, k ∈ before ++ after) : ∀ k ∈ ks, k.left ≠ [] := fun k mem => (others k (within k mem)).2
  have first : ∀ k ∈ before, k.left ≠ [] := waits fun k mem => by simp [mem]
  have second : ∀ k ∈ after, k.left ≠ [] := waits fun k mem => by simp [mem]
  rw [lineDone_eq, map_jobStep jobs others, last, List.filter_append, List.filter_append, filter_done_eq_nil first,
    filter_waiting_eq_self first, List.filter_cons_of_neg (by simp), List.filter_cons_of_pos (by rfl), filter_done_eq_nil second,
    filter_waiting_eq_self second]
  rfl

end

/-! ## Where an announcement is placed (R101) -/

section
variable {an : Announcement} {l : Line} {s : State}

theorem placeAnnounce_eq : placeAnnounce an s l = flushAnnounces l (s.setLine l
    (if (s.line l).annSlot.isNone then { s.line l with annSlot := some an, sent := [] }
     else { s.line l with annWait := (s.line l).annWait ++ [an], sent := [] })) := rfl

/-- A line that polls, or is in a turn, keeps what is placed. -/
theorem flushAnnounces_setLine_busy {u : LineUnit} (ctx : u.ctx = (s.line l).ctx) (phase : u.phase = (s.line l).phase)
    (busy : configuredAddrs (s.line l) ≠ [] ∨ ((s.line l).phase ≠ .idle ∧ (s.line l).phase ≠ .restarted)) :
    flushAnnounces l (s.setLine l u) = s.setLine l u := by
  refine flushAnnounces_busy ?_
  rw [configuredAddrs_ne_nil, setLine_ctx ctx, ← configuredAddrs_ne_nil, setLine_line_same, phase]
  exact busy

theorem announceWork_bad {q : Asker} {a : AnnounceArg}
    (bad : a.lines = 0 ∨ 15 < a.lines ∨ 31 < a.pattern ∨ 31 < a.mask ∨ 255 < a.code ∨ 255 < a.duration) :
    announceWork q a s = reply q .badParam [] s := if_pos (by simpa [or_assoc] using bad)

theorem announceWork_good {q : Asker} {a : AnnounceArg}
    (good : ¬(a.lines = 0 ∨ 15 < a.lines ∨ 31 < a.pattern ∨ 31 < a.mask ∨ 255 < a.code ∨ 255 < a.duration)) :
    announceWork q a s = (linesOf a.lines).foldl (placeAnnounce ⟨q.port, q.reqno, a.pattern, a.mask, a.code, a.duration⟩)
      (s.setJobs (s.jobs ++ [{ port := q.port, reqno := q.reqno, announce := true, left := linesOf a.lines, counts := [] }])) :=
  if_neg (by simpa [or_assoc] using good)

end

/-- Settles O43: the request by its checks, the slot by what stands in it, the job by the lines it still waits for, and the group bit by
bit. -/
theorem announceIsPlacedOnEachLine : Obligations.AnnounceIsPlacedOnEachLine := by
  unfold Obligations.AnnounceIsPlacedOnEachLine
  refine ⟨⟨fun p h rest s lines pattern mask code duration asks req => ?_, fun an l s => ?_⟩, fun l s => ⟨sendAnnounce_none, fun an => sendAnnounce_some⟩,
    fun l s before after j count jobs others => ⟨lineDone_of_left jobs others, lineDone_of_last jobs others⟩,
    fun an a => ⟨hits_iff an a, hits_of_full_mask, hits_of_no_mask⟩⟩
  · have run : exec (.announce p) s = .next (announceWork (h.asker p) ⟨lines, pattern, mask, code, duration⟩ (s.took p rest)) :=
      exec_of_asks rfl asks (by rw [req])
    rw [run]
    refine ⟨fun bad => ?_, fun low high pat msk cod dur => ?_⟩
    · rw [announceWork_bad bad, reply_took]
    · rw [announceWork_good (by dsimp only; omega)]
      rfl
  · intro u busy
    rw [placeAnnounce_eq]
    refine ⟨fun is_busy empty => ?_, fun is_busy full => ?_, fun free empty no_wait => ?_⟩
    · rw [if_pos (by rw [show (s.line l).annSlot = none from empty]; rfl)]
      exact flushAnnounces_setLine_busy rfl rfl is_busy
    · rw [if_neg (by simpa using full)]
      exact flushAnnounces_setLine_busy rfl rfl is_busy
    · rw [if_pos (by rw [show (s.line l).annSlot = none from empty]; rfl)]
      obtain ⟨nothing, rests⟩ := not_or.mp free
      have none_left : configuredAddrs ((s.setLine l { u with annSlot := some an, sent := [] }).line l) = [] := by
        have same : (s.setLine l { u with annSlot := some an, sent := [] }).ctx = s.ctx := setLine_ctx rfl
        rw [configuredAddrs_eq_nil, same, ← configuredAddrs_eq_nil]
        exact not_not.mp nothing
      rw [flushAnnounces_free none_left (by rw [setLine_line_same]; exact (not_and_or.mp rests).imp not_not.mp not_not.mp), setLine_line_same,
        show (s.line l).annWait = [] from no_wait]
      rfl

end Sys2Proof.Machine

/-! PROOFS. Panel lines: the room table, RETAIN and the warm start (05 R86, R90, R106). -/

namespace Sys2Proof.Machine

open Host

/-! ## A line, the jobs and the wires written together -/

/-- The state with one line unit, the jobs and the wires replaced. -/
def onLine (l : Line) (u : LineUnit) (js : List LineJob) (w : Wires) (s : State) : State := ((s.setLine l u).setJobs js).setWires w

section
variable {l : Line} {u : LineUnit} {js : List LineJob} {w : Wires} {s : State}

@[simp] theorem onLine_line : (onLine l u js w s).line l = u := setLine_line_same u

theorem onLine_line_other {m : Line} (other : m ≠ l) : (onLine l u js w s).line m = s.line m := setLine_line_other u other

@[simp] theorem onLine_setLine (v : LineUnit) : (onLine l u js w s).setLine l v = onLine l v js w s :=
  congrArg (fun t => (State.setJobs t js).setWires w) (setLine_setLine u v)

@[simp] theorem onLine_setJobs (ks : List LineJob) : (onLine l u js w s).setJobs ks = onLine l u ks w s := rfl

@[simp] theorem onLine_jobs : (onLine l u js w s).jobs = js := rfl

@[simp] theorem onLine_wires : (onLine l u js w s).wires = w := rfl

theorem handMsgs_onLine (ms : List (Addr × LineMsg)) :
    handMsgs l ms (onLine l u js w s) = onLine l u js { w with fromLine := modAt w.fromLine l (· ++ ms) } s := rfl

end

/-! ## The waiting resets of a line (R105) -/

/-- A line whose panels are all as LINE_RESET leaves them. -/
structure LineUnit.Cleared (u : LineUnit) : Prop where
  ctx : ∀ a : Addr, (u.ctx[a]).afterReset = u.ctx[a]
  offline : ∀ a : Addr, (u.ctx[a]).pstate ≠ .online
  stats : { u with crcCount := 0, timeoutCount := 0, trap := none } = u

theorem PanelCtx.afterReset_afterReset (c : PanelCtx) : c.afterReset.afterReset = c.afterReset := by
  unfold PanelCtx.afterReset
  split_ifs with off <;> simp_all

theorem PanelCtx.afterReset_not_online (c : PanelCtx) : c.afterReset.pstate ≠ .online := by
  unfold PanelCtx.afterReset
  split_ifs with off <;> simp_all

section
variable {l : Line} {s : State}

theorem resetLine_cleared : ((resetLine l s).line l).Cleared := by
  obtain ⟨ctx, run, each⟩ := resetLine_eq l s
  rw [run, handMsgs_line, handNotes_line, setLine_line_same]
  exact ⟨fun a => by rw [each, PanelCtx.afterReset_afterReset], fun a => by rw [each]; exact PanelCtx.afterReset_not_online _, rfl⟩

/-- A second reset finds nothing to do. -/
theorem resetLine_of_cleared (cleared : (s.line l).Cleared) : resetLine l s = s := by
  obtain ⟨ctx, run, each⟩ := resetLine_eq l s
  have same : ctx = (s.line l).ctx := Vector.ext fun i low => by
    exact (each ⟨i, low⟩).trans (cleared.ctx ⟨i, low⟩)
  have none_online : (List.finRange 32).filter (fun a => decide ((s.ctx l a).pstate = .online)) = [] :=
    List.filter_eq_nil_iff.mpr fun a _ => decide_eq_true_iff.not.mpr (cleared.offline a)
  rw [run, none_online, same]
  simp only [List.filterMap_nil, List.map_nil, handNotes_nil, handMsgs_nil]
  exact (congrArg (s.setLine l) cleared.stats).trans setLine_self

theorem resetLine_jobs : (resetLine l s).jobs = s.jobs :=
  (only_resetLine (ps := [.lines, .wires]) (by decide) (by decide)).mpr (.refl _ _) .jobs (by decide)

/-- What a line's part of a LINE_RESET leaves: the announcements that another line still has to send, and but for answers the wires. -/
theorem lineDone_reset (p : Port) (n : Fin 256) (s : State) : ∃ jobs answers,
    lineDone l p n false 0 s = (s.setJobs jobs).setWires { s.wires with answers := answers } ∧
    ∀ j ∈ s.jobs, j.announce = true → j.left ≠ [] → j ∈ jobs := by
  obtain ⟨answers, given⟩ := foldl_answer LineJob.port LineJob.reqno (fun _ _ => .ok) (fun j _ => jobItems j)
    ((s.jobs.map (jobStep l p n false 0)).filter (fun j => j.left.isEmpty))
    (s.setJobs ((s.jobs.map (jobStep l p n false 0)).filter (fun j => !j.left.isEmpty)))
  refine ⟨_, answers, (lineDone_eq s p n false).trans given, fun j mem ann waits => List.mem_filter.mpr ⟨List.mem_map.mpr ⟨j, mem, ?_⟩, ?_⟩⟩
  · exact jobStep_other (by simp [ann])
  · simpa using waits

/-- The waiting resets, of which there is one: the line is reset, and each request is told of. -/
theorem foldl_resets (w : Port × Fin 256) (ws : List (Port × Fin 256)) (s : State) : ∃ jobs answers,
    (w :: ws).foldl (fun t w => lineDone l w.1 w.2 false 0 (resetLine l t)) s =
      ((resetLine l s).setJobs jobs).setWires { (resetLine l s).wires with answers := answers } ∧
    ∀ j ∈ s.jobs, j.announce = true → j.left ≠ [] → j ∈ jobs := by
  induction ws generalizing w s with
  | nil =>
    obtain ⟨jobs, answers, run, kept⟩ := lineDone_reset (l := l) w.1 w.2 (resetLine l s)
    exact ⟨jobs, answers, by rw [List.foldl_cons, List.foldl_nil, run], fun j mem => kept j (by rw [resetLine_jobs]; exact mem)⟩
  | cons v ws ih =>
    obtain ⟨jobs, answers, run, kept⟩ := lineDone_reset (l := l) w.1 w.2 (resetLine l s)
    obtain ⟨jobs', answers', run', kept'⟩ := ih v (lineDone l w.1 w.2 false 0 (resetLine l s))
    have cleared : ((lineDone l w.1 w.2 false 0 (resetLine l s)).line l).Cleared := by
      rw [line_of_lines (lineDone_lines _ _ _ _ _ _)]
      exact resetLine_cleared
    rw [resetLine_of_cleared cleared, run] at run'
    refine ⟨jobs', answers', ?_, fun j mem ann waits => kept' j ?_ ann waits⟩
    · rw [List.foldl_cons, run, run']
      generalize resetLine l s = u
      rfl
    · have still : j ∈ (resetLine l s).jobs := by rw [resetLine_jobs]; exact mem
      rw [run]
      exact kept j still ann waits

/-- What a reset panel that was ONLINE hands, in address order. -/
def downs (l : Line) (s : State) : List (Addr × LineMsg) :=
  ((List.finRange 32).filter fun a => decide ((s.ctx l a).pstate = .online)).filterMap fun a => (s.ctx l a).room.map fun r => (a, .down r)

/-- A line whose turn has been abandoned, with its waiting resets, if any, done. -/
def LineUnit.abandoned (u : LineUnit) (x : LinePhase) (ctx : Vector PanelCtx 32) : LineUnit :=
  { u with
    phase := x, rest := [], sent := [], era := u.era + 1, resetWait := [], ctx := ctx
    crcCount := if u.resetWait ≠ [] then 0 else u.crcCount
    timeoutCount := if u.resetWait ≠ [] then 0 else u.timeoutCount
    trap := if u.resetWait ≠ [] then none else u.trap }

theorem abandonTurn_eq (x : LinePhase) : ∃ ctx jobs answers notices,
    abandonTurn l x s = onLine l ((s.line l).abandoned x ctx) jobs
      { s.wires with
        answers := answers, notices := notices
        fromLine := modAt s.wires.fromLine l (· ++ if (s.line l).resetWait ≠ [] then downs l s else []) } s ∧
    (∀ a : Addr, ctx[a] = if (s.line l).resetWait ≠ [] then (s.ctx l a).afterReset else s.ctx l a) ∧
    (∀ j ∈ s.jobs, j.announce = true → j.left ≠ [] → j ∈ jobs) ∧
    ((s.line l).resetWait = [] → jobs = s.jobs ∧ answers = s.wires.answers) := by
  have run : abandonTurn l x s = (s.line l).resetWait.foldl (fun t w => lineDone l w.1 w.2 false 0 (resetLine l t))
      (s.setLine l { s.line l with phase := x, rest := [], sent := [], era := (s.line l).era + 1, resetWait := [] }) := by
    have kept (u v : LineUnit) : (s.setLine l u).setLine l v = s.setLine l v := setLine_setLine u v
    unfold abandonTurn doResets
    dsimp only [modLine]
    rw [setLine_line_same, kept]
  cases waiting : (s.line l).resetWait with
  | nil =>
    refine ⟨(s.line l).ctx, s.jobs, s.wires.answers, s.wires.notices, ?_, fun a => by rw [if_neg (by simp)]; rfl, fun j mem _ _ => mem,
      fun _ => ⟨rfl, rfl⟩⟩
    rw [run, LineUnit.abandoned, waiting, if_neg (by simp), if_neg (by simp), if_neg (by simp), if_neg (by simp), modAt_append_nil]
    rfl
  | cons w ws =>
    obtain ⟨jobs, answers, done, kept⟩ := foldl_resets (l := l) w ws
      (s.setLine l { s.line l with phase := x, rest := [], sent := [], era := (s.line l).era + 1, resetWait := [] })
    obtain ⟨ctx, reset, each⟩ := resetLine_eq l
      (s.setLine l { s.line l with phase := x, rest := [], sent := [], era := (s.line l).era + 1, resetWait := [] })
    have same : (s.setLine l { s.line l with phase := x, rest := [], sent := [], era := (s.line l).era + 1, resetWait := [] }).ctx = s.ctx :=
      setLine_ctx rfl
    rw [same] at reset each
    rw [setLine_line_same, setLine_setLine] at reset
    rw [reset] at done
    refine ⟨ctx, jobs, answers, modAt s.wires.notices (producerIx (.plu l)) (· ++ ((List.finRange 32).filter fun a =>
        decide ((s.ctx l a).pstate = .online)).map fun a => panelNote .panelOffline l a (s.ctx l a).room 2), ?_, fun a => by rw [if_pos (by simp)]; exact each a, kept, fun empty => by simp at empty⟩
    rw [run, LineUnit.abandoned, waiting, done, if_pos (by simp), if_pos (by simp), if_pos (by simp), if_pos (by simp)]
    rfl

/-! ## The warm start of a line (R106) -/

/-- What a warm start makes of a context. -/
def PanelCtx.afterWarm (c : PanelCtx) : PanelCtx :=
  if c.pstate = .unconfigured then c
  else { c with
    pstate := .offline, missed := 0, rawLast := none, rawPrev := none, evbuf := [], outstanding := none, dvSent := none, dvAck := none
    dentry := match c.dentry with
      | some (.unsent d) => some (.unsent d)
      | some (.sent d _) => some (.unsent d)
      | _ => some .awaiting }

theorem warmAddr_eq (l : Line) : warmAddr l = atAddr l PanelCtx.afterWarm (fun _ _ => [])
    (fun a c => if c.pstate ≠ .unconfigured ∧ (c.dentry = none ∨ c.dentry = some .awaiting) then c.msgs a .loss else []) := by
  funext s a
  unfold warmAddr atAddr PanelCtx.afterWarm
  dsimp only
  rw [handNotes_nil]
  by_cases off : (s.ctx l a).pstate = .unconfigured
  · rw [if_neg (by rw [configured_iff]; exact not_not.mpr off), if_pos off, if_neg fun on => on.1 off, handMsgs_nil]
    exact setCtx_self.symm
  · rw [if_pos (configured_iff.mpr off), if_neg off]
    cases entry : (s.ctx l a).dentry with
    | none => simp [off, tellOcu_eq, PanelCtx.msgs]
    | some d => cases d <;> simp [off, tellOcu_eq, PanelCtx.msgs]

/-- The displays that a warm start asks for, in address order. -/
def losses (l : Line) (s : State) : List (Addr × LineMsg) :=
  ((List.finRange 32).filter fun a =>
    decide ((s.ctx l a).pstate ≠ .unconfigured ∧ ((s.ctx l a).dentry = none ∨ (s.ctx l a).dentry = some .awaiting))).filterMap
      fun a => (s.ctx l a).room.map fun r => (a, .loss r)

theorem foldl_warmAddr : ∃ ctx,
    (List.finRange 32).foldl (warmAddr l) s = handMsgs l (losses l s) (s.setLine l { s.line l with ctx := ctx }) ∧
    ∀ a : Addr, ctx[a] = (s.ctx l a).afterWarm := by
  obtain ⟨ctx, run, each⟩ := foldl_atAddr_all PanelCtx.afterWarm (fun _ _ => [])
    (fun a c => if c.pstate ≠ .unconfigured ∧ (c.dentry = none ∨ c.dentry = some .awaiting) then c.msgs a .loss else []) s (l := l)
  refine ⟨ctx, ?_, each⟩
  rw [warmAddr_eq, run, List.flatMap_eq_nil_iff.mpr fun _ _ => rfl, handNotes_nil]
  simp only [PanelCtx.msgs_eq]
  rw [flatMap_ite_eq_filterMap]
  rfl

theorem PanelCtx.afterReset_room (c : PanelCtx) : c.afterReset.room = c.room := by
  unfold PanelCtx.afterReset
  split <;> rfl

theorem PanelCtx.afterReset_dentry (c : PanelCtx) : c.afterReset.dentry = c.dentry := by
  unfold PanelCtx.afterReset
  split <;> rfl

theorem PanelCtx.afterReset_unconfigured (c : PanelCtx) : c.afterReset.pstate = .unconfigured ↔ c.pstate = .unconfigured := by
  unfold PanelCtx.afterReset
  split_ifs with off
  · rfl
  · exact ⟨fun h => (by cases h), fun h => absurd h off⟩

/-- A line after its warm start. -/
def LineUnit.warm (u : LineUnit) (ctx : Vector PanelCtx 32) : LineUnit :=
  { u.abandoned .restarted ctx with cycleStart := none, cycleList := [], annSlot := none, annWait := [] }

/-- The warm start of a line, whole. -/
theorem warmLine_eq : ∃ ctx jobs answers notices,
    warmLine l s = onLine l ((s.line l).warm ctx) (jobs.filter (fun j => !(j.announce && j.left.contains l)))
      { s.wires with
        answers := answers, notices := notices
        fromLine := modAt s.wires.fromLine l (· ++ ((if (s.line l).resetWait ≠ [] then downs l s else []) ++ losses l s)) } s ∧
    (∀ a : Addr, ctx[a] = (if (s.line l).resetWait ≠ [] then (s.ctx l a).afterReset else s.ctx l a).afterWarm) ∧
    (∀ j ∈ s.jobs, j.announce = true → j.left ≠ [] → j ∈ jobs) ∧
    ((s.line l).resetWait = [] → jobs = s.jobs ∧ answers = s.wires.answers) := by
  obtain ⟨ctx, jobs, answers, notices, run, each, kept, still⟩ := abandonTurn_eq (l := l) (s := s) .restarted
  have started : warmLine l s = (List.finRange 32).foldl (warmAddr l)
      (onLine l ((s.line l).warm ctx) (jobs.filter (fun j => !(j.announce && j.left.contains l)))
        { s.wires with
          answers := answers, notices := notices
          fromLine := modAt s.wires.fromLine l (· ++ if (s.line l).resetWait ≠ [] then downs l s else []) } s) := by
    unfold warmLine
    dsimp only [modLine]
    rw [run, onLine_line, onLine_setLine, onLine_jobs]
    rfl
  obtain ⟨ctx', warm, each'⟩ := foldl_warmAddr (l := l) (s := onLine l ((s.line l).warm ctx)
    (jobs.filter (fun j => !(j.announce && j.left.contains l)))
    { s.wires with
      answers := answers, notices := notices
      fromLine := modAt s.wires.fromLine l (· ++ if (s.line l).resetWait ≠ [] then downs l s else []) } s)
  have at_ (a : Addr) (js : List LineJob) (w : Wires) : (onLine l ((s.line l).warm ctx) js w s).ctx l a =
      if (s.line l).resetWait ≠ [] then (s.ctx l a).afterReset else s.ctx l a := by
    rw [← each a, State.ctx, onLine_line]
    rfl
  have asked (js : List LineJob) (w : Wires) : losses l (onLine l ((s.line l).warm ctx) js w s) = losses l s := by
    unfold losses
    simp only [at_]
    split <;> simp only [ne_eq, PanelCtx.afterReset_unconfigured, PanelCtx.afterReset_dentry, PanelCtx.afterReset_room]
  refine ⟨ctx', jobs, answers, notices, ?_, fun a => by rw [each', at_], kept, still⟩
  rw [started, warm, asked, onLine_line, onLine_setLine, handMsgs_onLine, ← modAt_append]
  rfl

/-! ## One address compared with the room table (R86) -/

section
variable {a : Addr}

theorem reconfigure_eq : reconfigure l s a =
    (if (s.ctx l a).configured then
      (namingRoom s l a).elim (unconfigure l a (tellOcu l a .down s)) fun q =>
        if (s.ctx l a).room = some q then s
        else tellOcu l a .loss (setCtx l a { s.ctx l a with room := some q, rawLast := none, rawPrev := none, dentry := some .awaiting }
          (tellOcu l a .down s))
    else (namingRoom s l a).elim s fun r => setCtx l a { PanelCtx.reset with pstate := .offline, room := some r } s) := by
  unfold reconfigure
  dsimp only
  cases (s.ctx l a).configured <;> cases namingRoom s l a <;> rfl

theorem reconfigure_off (off : (s.ctx l a).pstate = .unconfigured) : reconfigure l s a =
    (namingRoom s l a).elim s fun r => setCtx l a { PanelCtx.reset with pstate := .offline, room := some r } s := by
  rw [reconfigure_eq, if_neg (by rw [configured_iff]; exact not_not.mpr off)]

theorem reconfigure_on (on : (s.ctx l a).pstate ≠ .unconfigured) : reconfigure l s a =
    (namingRoom s l a).elim (unconfigure l a (tellOcu l a .down s)) fun q =>
      if (s.ctx l a).room = some q then s
      else tellOcu l a .loss (setCtx l a { s.ctx l a with room := some q, rawLast := none, rawPrev := none, dentry := some .awaiting }
        (tellOcu l a .down s)) := by
  rw [reconfigure_eq, if_pos (configured_iff.mpr on)]

end

/-! ## What a receiver's list from PWC changes of a line when its head is taken -/

@[simp] theorem popSupply_line (i : Fin 12) : (popSupply i s).line = s.line := line_of_lines (popSupply_lines i s)

@[simp] theorem popSupply_ctx (i : Fin 12) : (popSupply i s).ctx = s.ctx := ctx_of_lines (popSupply_lines i s)

theorem exec_lineSupplyChange_of_head {x : SState} (head : s.wires.supply[lineIx l].head? = some (.state x)) :
    exec (.lineSupplyChange l) s =
      .next (settleSupply (if x = .retain then abandonTurn l .stopped (popSupply (lineIx l) s) else popSupply (lineIx l) s)) :=
  exec_of_supply (work := fun x s => if x = .retain then abandonTurn l .stopped s else s) (a := x) rfl head rfl

end

/-- The readings and the entry of a context after a warm start, the waiting reset done first or not. -/
theorem PanelCtx.afterWarm_of_on {c : PanelCtx} (on : c.pstate ≠ .unconfigured) (reset : Prop) [Decidable reset] :
    (if reset then c.afterReset else c).afterWarm = { c with
      pstate := .offline, missed := 0, rawLast := none, rawPrev := none, evbuf := [], outstanding := none, dvSent := none, dvAck := none
      ackSeq := if reset then none else c.ackSeq
      dentry := match c.dentry with
        | some (.unsent d) => some (.unsent d)
        | some (.sent d _) => some (.unsent d)
        | _ => some .awaiting } := by
  by_cases h : reset
  · have reset_on : c.afterReset.pstate ≠ .unconfigured := (PanelCtx.afterReset_unconfigured c).not.mpr on
    rw [if_pos h, if_pos h, PanelCtx.afterWarm, if_neg reset_on, PanelCtx.afterReset, if_neg on]
  · rw [if_neg h, if_neg h, PanelCtx.afterWarm, if_neg on]

theorem PanelCtx.afterWarm_of_off {c : PanelCtx} (off : c.pstate = .unconfigured) (reset : Prop) [Decidable reset] :
    (if reset then c.afterReset else c).afterWarm = c := by
  have kept : c.afterReset = c := if_pos off
  rw [kept, ite_self]
  exact if_pos off

/-- Settles O44: each address by its context and the table, the stop by the waiting resets, the warm start as one step at each address. -/
theorem linesFollowTablesAndSupply : Obligations.LinesFollowTablesAndSupply := by
  unfold Obligations.LinesFollowTablesAndSupply
  refine ⟨⟨fun l s sig head => ?_, fun l s a => ⟨fun off no_room => ?_, fun r off room => ?_, fun r on room same => ?_, fun q on was no_room => ?_, fun q r on was room other => ?_⟩⟩,
    fun l s => ⟨fun x head => ⟨fun goes => ?_, ?_⟩, fun head => ?_⟩⟩
  · exact congrArg Outcome.next (takeConfig_of_head head)
  · rw [reconfigure_off off, no_room]
    rfl
  · rw [reconfigure_off off, room]
    rfl
  · rw [reconfigure_on on, room]
    exact if_pos same
  · rw [reconfigure_on on, no_room, tellOcu_of_room was]
    rfl
  · have differs : ¬(s.ctx l a).room = some r := fun same => other (Option.some.inj (was.symm.trans same))
    rw [reconfigure_on on, room]
    refine (if_neg differs).trans ?_
    rw [tellOcu_of_room was, tellOcu_of_room (r := r) (by rw [setCtx_ctx_same])]
    rfl
  · rw [exec_lineSupplyChange_of_head head, if_neg goes]
  · intro stops
    rw [exec_lineSupplyChange_of_head head, if_pos stops, abandonTurn, modLine, popSupply_line]
  · intro configured told downs_ losses_
    obtain ⟨ctx, jobs, answers, notices, run, each, kept, still⟩ := warmLine_eq (l := l) (s := popSupply (lineIx l) s)
    have after : exec (.lineWarmStart l) s = .next (settleSupply (warmLine l (popSupply (lineIx l) s))) :=
      exec_of_supply (work := fun _ s => warmLine l s) (a := ()) rfl head rfl
    have only : Only [.lines, .jobs, .pwc, .wires] s (warmLine l (popSupply (lineIx l) s)) := by simp
    rw [popSupply_line, popSupply_wires] at run
    rw [popSupply_line, popSupply_ctx] at each
    rw [popSupply_jobs] at kept
    rw [popSupply_line, popSupply_jobs, popSupply_wires] at still
    have downs_eq : (if (s.line l).resetWait ≠ [] then downs l (popSupply (lineIx l) s) else []) = downs_ := by
      have filtered : configured.filter (fun a => decide ((s.line l).resetWait ≠ [] ∧ (s.ctx l a).pstate = .online)) =
          if (s.line l).resetWait ≠ [] then (List.finRange 32).filter (fun a => decide ((s.ctx l a).pstate = .online)) else [] := by
        rw [List.filter_filter]
        by_cases h : (s.line l).resetWait ≠ []
        · rw [if_pos h]
          refine List.filter_congr fun a _ => ?_
          rw [Bool.eq_iff_iff, Bool.and_eq_true, decide_eq_true_iff, decide_eq_true_iff, decide_eq_true_iff]
          exact ⟨fun both => both.1.2, fun on => ⟨⟨h, on⟩, by rw [on]; simp⟩⟩
        · rw [if_neg h]
          exact List.filter_eq_nil_iff.mpr fun a _ both => h (of_decide_eq_true (Bool.and_eq_true_iff.mp both).1).1
      show _ = List.filterMap _ (configured.filter _)
      rw [filtered, downs, popSupply_ctx]
      split <;> rfl
    have losses_eq : losses l (popSupply (lineIx l) s) = losses_ := by
      have filtered : configured.filter (fun a => decide ((s.ctx l a).dentry = none ∨ (s.ctx l a).dentry = some .awaiting)) =
          (List.finRange 32).filter (fun a =>
            decide ((s.ctx l a).pstate ≠ .unconfigured ∧ ((s.ctx l a).dentry = none ∨ (s.ctx l a).dentry = some .awaiting))) := by
        rw [List.filter_filter]
        refine List.filter_congr fun a _ => ?_
        rw [Bool.and_comm, Bool.decide_and]
      show _ = List.filterMap _ (configured.filter _)
      rw [filtered, losses, popSupply_ctx]
    rw [downs_eq, losses_eq] at run
    generalize warmLine l (popSupply (lineIx l) s) = t at run after only
    have line : t.line l = (s.line l).warm ctx := by rw [run, onLine_line]
    have jobs_eq : t.jobs = jobs.filter (fun j => !(j.announce && j.left.contains l)) := by rw [run, onLine_jobs]
    have at_ (a : Addr) : t.ctx l a = ctx[a] := by
      rw [State.ctx, line]
      rfl
    refine ⟨t, after, by rw [line]; rfl, by rw [line]; rfl, by rw [line]; rfl, by rw [line]; rfl, by rw [line]; rfl, by rw [line]; rfl,
      by rw [line]; rfl, by rw [line]; rfl, ?_, fun j mem both => ?_, fun j mem ann away waits => ?_, fun no_reset => ?_, by rw [line]; rfl,
      by rw [line]; rfl, by rw [line]; rfl, fun a off => ?_, fun a on => ?_, fun l' other => ?_, only⟩
    · rw [run, onLine_wires, List.append_assoc]
      rfl
    · rw [jobs_eq, List.mem_filter] at mem
      simp [both.1, both.2] at mem
    · rw [jobs_eq, List.mem_filter]
      exact ⟨kept j mem ann waits, by simp [away]⟩
    · obtain ⟨jobs_same, answers_same⟩ := still (not_not.mp no_reset)
      rw [run, onLine_jobs, onLine_wires, jobs_same]
      exact ⟨rfl, answers_same⟩
    · rw [at_, each]
      exact PanelCtx.afterWarm_of_off off _
    · rw [at_, each]
      exact PanelCtx.afterWarm_of_on on _
    · rw [run, onLine_line_other other, popSupply_line]

end Sys2Proof.Machine

/-! PROOFS. The occupancy unit: presence from pairs of readings, ghost counting, and the slot boundary (06 R108, R109, R116 to R121). -/

namespace Sys2Proof.Machine

open Host

/-! ## What a line hands is taken -/

theorem takeFromLine_of_taken {α : Type} {l : Line} {a : Addr} {s : State} {m : LineMsg} {x : α} {rest : List (Addr × LineMsg)}
    {sel : LineMsg → Option α} {work : α → State → State} (first : takeAddr a s.wires.fromLine[l] = some (m, rest))
    (selected : sel m = some x) :
    takeFromLine l a sel work s = work x (s.setWires { s.wires with fromLine := put s.wires.fromLine l rest }) := by
  rw [takeFromLine, first]
  simp only [selected]

/-- A command that takes a message of a line, with such a message first for its address. -/
theorem exec_of_lineMsg {α : Type} {c : Instr} {l : Line} {a : Addr} {s : State} {m : LineMsg} {x : α} {rest : List (Addr × LineMsg)}
    {sel : LineMsg → Option α} {work : α → State → State} (is : exec c s = .next (takeFromLine l a sel work s))
    (first : takeAddr a s.wires.fromLine[l] = some (m, rest)) (selected : sel m = some x) :
    exec c s = .next (work x (s.setWires { s.wires with fromLine := put s.wires.fromLine l rest })) := by
  rw [is, takeFromLine_of_taken first selected]

/-! ## Items that join once -/

section
variable {s : State} {r : Room}

theorem joinOnce_again {it : Item} (queued : ∃ x ∈ allItems s, x.origin = it.origin ∧ x.room = it.room) : joinOnce it s = s := by
  obtain ⟨x, mem, origin, room⟩ := queued
  exact if_pos (List.any_eq_true.mpr ⟨x, mem, by simp [origin, room]⟩)

theorem allItems_joinOnce {it : Item} (free : ¬∃ x ∈ allItems s, x.origin = it.origin ∧ x.room = it.room) :
    allItems (joinOnce it s) = allItems s ++ [it] := by
  have none_such : ¬(allItems s).any (fun x => x.origin = it.origin && x.room = it.room) = true := by
    rw [List.any_eq_true]
    rintro ⟨x, mem, both⟩
    exact free ⟨x, mem, by simpa using both⟩
  rw [joinOnce, if_neg none_such, allItems_presentNext]
  simp [allItems]

/-- An item that joins changes of OCU only the queue and PRESENTED. -/
theorem joinOnce_ocu (it : Item) (s : State) : ∃ presented queue,
    joinOnce it s = s.setOcu { s.ocu with presented := presented, queue := queue } := by
  unfold joinOnce
  split
  · exact ⟨s.ocu.presented, s.ocu.queue, rfl⟩
  · unfold presentNext
    split
    · exact ⟨_, _, rfl⟩
    · exact ⟨s.ocu.presented, _, rfl⟩

/-! ## Presence (R108, R118, R121) -/

theorem presenceReport_void {era : Nat} {last : Raw} {prev : Option Raw} (no : era < s.ocu.era ∨ prev ≠ some last) :
    presenceReport era r last prev s = s :=
  if_neg fun ⟨current, pair⟩ => no.elim (fun early => absurd current (Nat.not_le.mpr early)) fun differ => differ pair

theorem presenceReport_pair {era : Nat} {last : Raw} {prev : Option Raw} (current : s.ocu.era ≤ era) (pair : prev = some last) :
    presenceReport era r last prev s =
      if last = .occupied && s.ocu.presence[r] != .occupied then testPresence r (withdrawGhost r (setPresence r last.presence s))
      else setPresence r last.presence s := if_pos ⟨current, pair⟩

theorem presenceTest_iff : presenceTest s r = true ↔
    s.clockSet .ocu = true ∧ (s.attrOf r).presenceCheckin = true ∧ (s.attrOf r).badgeOnly = false ∧
      ∃ e ∈ s.schedule r, e.summary = .confirmed ∧ (s.bookRec e.index).body.earlyIn = false ∧ e.start ≤ s.ocuSlot ∧
        s.ocuSlot < e.start + (s.attrOf r).g := by
  unfold presenceTest
  simp only [Bool.and_eq_true, Bool.not_eq_true', List.any_eq_true, decide_eq_true_iff, and_assoc]
  rfl

theorem readForPresence_sound (sound : ∀ e ∈ s.schedule r, e.summary = .confirmed → (s.bookRec e.index).body.faults = 0) :
    readForPresence r s = s := by
  unfold readForPresence
  dsimp only
  split
  · refine readAll_sound fun i mem => ?_
    obtain ⟨e, inside, rfl⟩ := List.mem_map.mp mem
    obtain ⟨standing, test⟩ := List.mem_filter.mp inside
    refine sound e standing ?_
    simp only [Bool.and_eq_true, decide_eq_true_iff] at test
    exact test.1.1
  · rfl

theorem testPresence_eq : testPresence r s =
    if presenceTest (readForPresence r s) r then joinOnce (plainItem .presence r .panelCheckin) (readForPresence r s)
    else readForPresence r s := rfl

theorem allItems_readForPresence : allItems (readForPresence r s) = allItems s := allItems_of_ocu (readForPresence_ocu r s)

end

/-- Settles O45: a report by its era and its pair, a withdrawal by the queue, and the test by the schedule and what is queued. -/
theorem presenceIsConfirmedByPairs : Obligations.PresenceIsConfirmedByPairs := by
  unfold Obligations.PresenceIsConfirmedByPairs
  refine ⟨fun l a s rest r => ?_, fun s r => ?_, fun s r => presenceTest_iff, fun s r => ?_⟩
  · intro u known
    refine ⟨fun era last prev first => ?_, fun first => ?_, fun first => ?_⟩
    · have run : exec (.presenceReport l a) s = .next (presenceReport era r last prev u) :=
        exec_of_lineMsg (x := (era, r, last, prev)) (work := fun m s => presenceReport m.1 m.2.1 m.2.2.1 m.2.2.2 s) rfl first rfl
      rw [run]
      refine ⟨fun no => by rw [presenceReport_void (s := u) no], fun current pair => ?_⟩
      rw [presenceReport_pair (s := u) current pair]
      refine ⟨?_, ?_, ?_, ?_⟩
      · rintro rfl
        rfl
      · rintro rfl
        rfl
      · rintro rfl was
        rw [show u.ocu.presence[r] = .occupied from was]
        rfl
      · rintro rfl was
        exact congrArg Outcome.next (if_pos (Bool.and_eq_true_iff.mpr ⟨rfl, bne_iff_ne.mpr was⟩))
    · exact exec_of_lineMsg (x := r) (work := fun r s => setPresence r .unknown s) rfl first rfl
    · exact exec_of_lineMsg (x := r) (work := fun _ s => s) rfl first rfl
  · intro theirs
    refine ⟨fun none_such => if_neg ?_, fun some_such => if_pos some_such⟩
    rw [show s.ocu.queue.any (fun x => x.origin = .ghost && x.room = r) = false from none_such]
    exact Bool.false_ne_true
  · intro u t queued
    have items : allItems u = allItems s := allItems_readForPresence
    refine ⟨fun no => ?_, fun test free => ?_, readForPresence_sound, by simp [u]⟩
    · show testPresence r s = u
      rw [testPresence_eq]
      rcases no with fails | queued
      · exact if_neg (by rw [show presenceTest (readForPresence r s) r = false from fails]; exact Bool.false_ne_true)
      · split
        · exact joinOnce_again (by rw [allItems_readForPresence]; exact queued)
        · rfl
    · show allItems (testPresence r s) = _
      rw [testPresence_eq, if_pos test, allItems_joinOnce (by rw [allItems_readForPresence]; exact free), allItems_readForPresence]

/-! ## Ghost counting (R120) -/

section
variable {slot : Nat} {s : State} {r : Room}

theorem readForGhost_sound
    (sound : (s.attrOf r).h = 0 ∨ ∀ e ∈ s.schedule r, e.summary = .active → (s.bookRec e.index).body.faults = 0) :
    readForGhost slot r s = s := by
  unfold readForGhost
  split
  · rfl
  · next counts =>
    refine readAll_sound fun i mem => ?_
    obtain ⟨e, inside, rfl⟩ := List.mem_map.mp mem
    obtain ⟨standing, test⟩ := List.mem_filter.mp inside
    simp only [Bool.and_eq_true, decide_eq_true_iff] at test
    exact sound.elim (fun off => absurd off counts) fun all => all e standing test.1.1

/-- Whether an entry of a room is counted at a slot. -/
def Counts (s : State) (slot : Nat) (r : Room) (e : Entry) : Prop :=
  e ∈ s.schedule r ∧ e.summary = .active ∧ e.start ≤ slot ∧ slot < e.stop ∧ (s.bookRec e.index).body.unverified = false

/-- The counted entry of a room. -/
def countedEntry (s : State) (slot : Nat) (r : Room) : Option Entry :=
  (s.schedule r).find? (fun e => e.summary = .active && e.start ≤ slot && slot < e.stop && !(entryBody s e).unverified)

theorem countedRecord_eq : countedRecord s slot r =
    if (s.attrOf r).h = 0 then none else (countedEntry s slot r).map (fun e => s.handle e.index) := rfl

theorem counts_test {e : Entry} :
    (e.summary = .active && e.start ≤ slot && slot < e.stop && !(entryBody s e).unverified) = true ↔
      e.summary = .active ∧ e.start ≤ slot ∧ slot < e.stop ∧ (s.bookRec e.index).body.unverified = false := by
  simp only [Bool.and_eq_true, Bool.not_eq_true', decide_eq_true_iff, and_assoc]
  rfl

theorem countedEntry_counts {e : Entry} (found : countedEntry s slot r = some e) : Counts s slot r e := by
  unfold countedEntry at found
  have test := List.find?_some found
  exact ⟨List.mem_of_find?_eq_some found, counts_test.mp test⟩

theorem countedEntry_eq_none : countedEntry s slot r = none ↔ ∀ e, ¬Counts s slot r e := by
  unfold countedEntry
  rw [List.find?_eq_none]
  exact ⟨fun all e counts => all e counts.1 (counts_test.mpr counts.2), fun all e mem test => all e ⟨mem, counts_test.mp test⟩⟩

theorem countedRecord_eq_none : countedRecord s slot r = none ↔ (s.attrOf r).h = 0 ∨
    ∀ e ∈ s.schedule r, e.summary = .active → e.start ≤ slot → slot < e.stop → (s.bookRec e.index).body.unverified = true := by
  rw [countedRecord_eq]
  by_cases off : (s.attrOf r).h = 0
  · simp [off]
  · rw [if_neg off, Option.map_eq_none_iff, countedEntry_eq_none]
    simp only [off, false_or]
    refine ⟨fun all e mem active start stop => ?_, fun all e counts => ?_⟩
    · exact (Bool.not_eq_false _).mp fun verified => all e ⟨mem, active, start, stop, verified⟩
    · obtain ⟨mem, active, start, stop, verified⟩ := counts
      exact absurd (verified.symm.trans (all e mem active start stop)) Bool.false_ne_true

theorem countedRecord_counts {id : BookingId} (found : countedRecord s slot r = some id) :
    (s.attrOf r).h ≠ 0 ∧ ∃ e, Counts s slot r e ∧ id = s.handle e.index := by
  rw [countedRecord_eq] at found
  by_cases off : (s.attrOf r).h = 0
  · rw [if_pos off] at found
    cases found
  · rw [if_neg off] at found
    obtain ⟨e, entry, rfl⟩ := Option.map_eq_some_iff.mp found
    exact ⟨off, e, countedEntry_counts entry, rfl⟩

/-- The only entry that counts is the one counted. -/
theorem countedRecord_of_only {e : Entry} (on : (s.attrOf r).h ≠ 0) (counts : Counts s slot r e) (only : ∀ e', Counts s slot r e' → e' = e) :
    countedRecord s slot r = some (s.handle e.index) := by
  cases found : countedEntry s slot r with
  | none => exact absurd counts (countedEntry_eq_none.mp found e)
  | some d =>
    obtain rfl := only d (countedEntry_counts found)
    rw [countedRecord_eq, if_neg on, found]
    rfl

/-- The count of a room at a boundary, from the counted record and what is counted of it (R120). -/
def ghostAfter (s : State) (r : Room) (id : BookingId) : Nat :=
  ghostStep s.ocu.presence[r] (if s.ocu.ghostRec[r] = some id then s.ocu.ghostCount[r] else 0)

/-- OCU's count and counted record of one room replaced. -/
def setGhost (r : Room) (n : Nat) (id : Option BookingId) (s : State) : State :=
  s.setOcu { s.ocu with ghostCount := put s.ocu.ghostCount r n, ghostRec := put s.ocu.ghostRec r id }

theorem ghostCountOne_none (nothing : countedRecord (readForGhost slot r s) slot r = none) :
    ghostCountOne slot s r = setGhost r 0 none (readForGhost slot r s) := by
  unfold ghostCountOne
  dsimp only
  rw [nothing]
  rfl

theorem ghostCountOne_some {id : BookingId} (counted : countedRecord (readForGhost slot r s) slot r = some id) :
    ghostCountOne slot s r =
      if (s.attrOf r).h ≤ ghostAfter s r id then
        joinOnce (plainItem .ghost r .ghostRelease) (setGhost r (ghostAfter s r id) (some id) (readForGhost slot r s))
      else setGhost r (ghostAfter s r id) (some id) (readForGhost slot r s) := by
  have attr : (readForGhost slot r s).attrOf r = s.attrOf r := by
    have rzt : (readForGhost slot r s).rzt = s.rzt :=
      (only_readForGhost (ps := [.book, .wires]) (by decide) (by decide)).mpr (.refl _ _) .rzt (by decide)
    unfold State.attrOf State.zoneAttr State.zoneOf
    rw [rzt]
  have after : ghostAfter s r id = ghostAfter (readForGhost slot r s) r id := by
    unfold ghostAfter
    rw [readForGhost_ocu]
  rw [after, ← attr]
  unfold ghostCountOne
  dsimp only
  rw [counted]
  rfl

/-- Counting changes of OCU one room's count and counted record, the queue and PRESENTED; the bodies are read first. -/
theorem ghostCountOne_eq : ∃ n id presented queue, ghostCountOne slot s r = (readForGhost slot r s).setOcu
    { s.ocu with ghostCount := put s.ocu.ghostCount r n, ghostRec := put s.ocu.ghostRec r id, presented := presented, queue := queue } := by
  have same := readForGhost_ocu slot r s
  cases counted : countedRecord (readForGhost slot r s) slot r with
  | none => exact ⟨0, none, s.ocu.presented, s.ocu.queue, by rw [ghostCountOne_none counted, setGhost, same]⟩
  | some id =>
    rw [ghostCountOne_some counted]
    split
    · obtain ⟨presented, queue, joined⟩ := joinOnce_ocu (plainItem .ghost r .ghostRelease)
        (setGhost r (ghostAfter s r id) (some id) (readForGhost slot r s))
      refine ⟨ghostAfter s r id, some id, presented, queue, joined.trans ?_⟩
      rw [setGhost, same]
      rfl
    · exact ⟨ghostAfter s r id, some id, s.ocu.presented, s.ocu.queue, by rw [setGhost, same]⟩

theorem allItems_setGhost {n : Nat} {id : Option BookingId} : allItems (setGhost r n id (readForGhost slot r s)) = allItems s :=
  (allItems_of_ocu (s := readForGhost slot r s) (t := readForGhost slot r s) rfl).trans (allItems_of_ocu (readForGhost_ocu slot r s))

end

/-- Settles O49: the boundary by its parts, and the count of one room by its counted record. -/
theorem ocuTakesASlotBoundary : Obligations.OcuTakesASlotBoundary := by
  unfold Obligations.OcuTakesASlotBoundary
  refine ⟨fun s c head => ?_, fun slot s r => ?_⟩
  · intro u v w x
    have run : exec .ocuSlotBoundary s = .next (settleTime (ocuTick c u)) := exec_of_tick rfl head rfl
    refine ⟨fun between => ?_, fun boundary => ?_⟩
    · rw [run, ocuTick, if_neg (by simpa [Clock.isSlotBoundary] using between)]
    · rw [run, ocuTick, if_pos (by simpa [Clock.isSlotBoundary] using boundary)]
      rfl
  · intro u t
    obtain ⟨n, id, presented, queue, whole⟩ := ghostCountOne_eq (slot := slot) (s := s) (r := r)
    have whole : t = _ := whole
    refine ⟨fun r' other => ?_, by simp [t], by rw [whole]; rfl, by rw [whole]; rfl, readForGhost_sound, countedRecord_eq_none,
      ⟨fun id => countedRecord_counts, fun e on counts only id => ?_⟩, fun nothing => ?_, fun id counted => ?_⟩
    · rw [whole]
      exact ⟨put_get_other _ _ (Ne.symm other), put_get_other _ _ (Ne.symm other)⟩
    · rw [countedRecord_of_only on counts only, Option.some.injEq]
      exact eq_comm
    · have done : t = setGhost r 0 none (readForGhost slot r s) := ghostCountOne_none nothing
      rw [done]
      exact ⟨put_get_same _ _ _, put_get_same _ _ _, allItems_setGhost⟩
    · intro before n
      have after : n = ghostAfter s r id := by
        show (match s.ocu.presence[r] with
          | .vacant => min (before + 1) 12
          | .occupied => 0
          | .unknown => before) = ghostStep s.ocu.presence[r] before
        cases s.ocu.presence[r] <;> rfl
      have done : t = _ := ghostCountOne_some counted
      rw [← after] at done
      have count : t.ocu.ghostCount[r] = n ∧ t.ocu.ghostRec[r] = some id := by
        rw [done]
        split
        · obtain ⟨presented, queue, joined⟩ := joinOnce_ocu (plainItem .ghost r .ghostRelease) (setGhost r n (some id) (readForGhost slot r s))
          rw [joined]
          exact ⟨put_get_same _ _ _, put_get_same _ _ _⟩
        · exact ⟨put_get_same _ _ _, put_get_same _ _ _⟩
      refine ⟨count.1, count.2, fun few => ?_, fun enough free => ?_, fun enough again => ?_⟩
      · rw [done, if_neg (Nat.not_le.mpr few), allItems_setGhost]
      · rw [done, if_pos enough, allItems_joinOnce ?_, allItems_setGhost]
        rw [allItems_setGhost]
        rintro ⟨x, mem, origin, room⟩
        exact (free x mem).elim (fun h => h origin) fun h => h room
      · rw [done, if_pos enough, joinOnce_again (by rw [allItems_setGhost]; exact again), allItems_setGhost]

end Sys2Proof.Machine

/-! PROOFS. The occupancy unit: panel events as items, and the book's outcomes (06 R111, R113 to R116, R119, R121). -/

namespace Sys2Proof.Machine

open Host

/-! ## Verdicts for items -/

section
variable {s : State}

theorem verdictFor_of_source {it : Item} {x : Source} (source : it.source = some x) (taken : Bool) :
    verdictFor it taken s = handLine x.line x.addr (.verdict x.seq taken) s := by
  rw [verdictFor, source]

theorem foldl_verdictFor_prefix (taken : Bool) (items : List Item) (s : State) (l : Line) :
    s.wires.toLine[l] <+: (items.foldl (fun s x => verdictFor x taken s) s).wires.toLine[l] := by
  induction items generalizing s with
  | nil => exact List.prefix_rfl
  | cons it items ih => exact (verdictFor_prefix it taken s l).trans (ih _)

/-- Every item given its verdict has it on its way to its line. -/
theorem foldl_verdictFor_mem (taken : Bool) {items : List Item} {it : Item} (mem : it ∈ items) {x : Source} (source : it.source = some x)
    (s : State) : (x.addr, OcuMsg.verdict x.seq taken) ∈ (items.foldl (fun s x => verdictFor x taken s) s).wires.toLine[x.line] := by
  induction items generalizing s with
  | nil => cases mem
  | cons y items ih =>
    rcases List.mem_cons.mp mem with rfl | later
    · exact (foldl_verdictFor_prefix taken items _ x.line).mem (verdictFor_mem source taken s)
    · exact ih later _

/-! ## The queue -/

theorem presentNext_wires : (presentNext s).wires = s.wires := by
  unfold presentNext
  split <;> rfl

theorem presentNext_presented (some_item : s.ocu.queue ≠ []) : (presentNext s).ocu.presented.isSome = true := by
  unfold presentNext
  split
  · rfl
  · next no_match =>
    cases presented : s.ocu.presented with
    | some x => rfl
    | none =>
      obtain ⟨it, rest, queue⟩ := List.exists_cons_of_ne_nil some_item
      exact absurd queue (no_match it rest presented)

variable {it : Item} {l : Line} {a : Addr}

theorem joinPanel_presented (held : ∃ x, s.ocu.presented = some x ∧ x.fromPanel l a = true) :
    joinPanel it l a s = verdictFor it false s := by
  obtain ⟨x, presented, own⟩ := held
  exact if_pos (by rw [presented]; exact own)

/-- An item of a panel that has none presented takes the place of those the panel has queued. -/
theorem joinPanel_queued (free : ∀ x, s.ocu.presented = some x → x.fromPanel l a = false) : joinPanel it l a s =
    presentNext (((s.ocu.queue.filter (fun x => x.fromPanel l a)).foldl (fun s x => verdictFor x false s)
        (s.setOcu { s.ocu with queue := s.ocu.queue.filter (fun x => !x.fromPanel l a) })).setOcu
      { s.ocu with queue := s.ocu.queue.filter (fun x => !x.fromPanel l a) ++ [it] }) := by
  have none_own : ¬s.ocu.presented.any (fun x => x.fromPanel l a) = true := by
    cases presented : s.ocu.presented with
    | none => simp
    | some x => simp [free x presented]
  unfold joinPanel
  dsimp only
  rw [if_neg none_own, foldl_verdictFor_ocu]
  rfl

theorem allItems_joinPanel (free : ∀ x, s.ocu.presented = some x → x.fromPanel l a = false) :
    allItems (joinPanel it l a s) = (allItems s).filter (fun x => !x.fromPanel l a) ++ [it] := by
  have presented : s.ocu.presented.toList.filter (fun x => !x.fromPanel l a) = s.ocu.presented.toList :=
    List.filter_eq_self.mpr fun x mem => by simp [free x (Option.mem_toList.mp mem)]
  rw [joinPanel_queued free, allItems_presentNext]
  simp only [allItems, State.setOcu_ocu, List.filter_append, presented, List.append_assoc]

theorem joinPanel_isSome (free : ∀ x, s.ocu.presented = some x → x.fromPanel l a = false) :
    (joinPanel it l a s).ocu.presented.isSome = true := by
  rw [joinPanel_queued free]
  exact presentNext_presented (by simp)

theorem joinPanel_repeats (free : ∀ x, s.ocu.presented = some x → x.fromPanel l a = false) {x : Item} (queued : x ∈ s.ocu.queue)
    (own : x.fromPanel l a = true) {y : Source} (source : x.source = some y) :
    (y.addr, OcuMsg.verdict y.seq false) ∈ (joinPanel it l a s).wires.toLine[y.line] := by
  rw [joinPanel_queued free, presentNext_wires]
  exact foldl_verdictFor_mem false (List.mem_filter.mpr ⟨queued, own⟩) source _

/-! ## A panel event taken (R113, R114) -/

variable {r : Room} {ev : PEvent}

theorem panelEvent_issue {code : Nat} (kind : ev.kind = .reportIssue code) :
    panelEvent l a r ev s = handLine l a (.verdict ev.seq true) (issueNotice r l a code s) := by
  rw [panelEvent, kind]

theorem panelEvent_request {req : OcuRequest} {badge slots : Option Nat} (asks : ev.kind.request = some (req, badge, slots)) :
    panelEvent l a r ev s =
      if s.clockSet .ocu then
        joinPanel { origin := .panel, room := r, request := req, badge := badge, slots := slots, source := some ⟨l, a, ev.seq, ev.kind⟩ } l a s
      else handLine l a (.verdict ev.seq true) (setFeedback r .notAvailable s) := by
  unfold panelEvent
  split
  · next code kind =>
    rw [kind] at asks
    cases asks
  · rw [asks]
    cases s.clockSet .ocu <;> rfl

end

/-! ## The book's outcomes (R115, R119, R121) -/

theorem exec_bookOutcome_of {s : State} {it : Item} {o : BookOutcome} (presented : s.ocu.presented = some it) (outcome : s.wires.outcome = some o) :
    exec .bookOutcome s = .next (presentNext
      (itemAnswered it o ((s.setWires { s.wires with outcome := none }).setOcu { s.ocu with presented := none }))) := by
  have run : exec .bookOutcome s = execBookOutcome s := rfl
  rw [run, execBookOutcome, presented, outcome]

/-- Settles O46: the event by its kind and by what the panel has presented, the outcome by the item's origin. -/
theorem panelEventsAndTheirOutcomes : Obligations.PanelEventsAndTheirOutcomes := by
  unfold Obligations.PanelEventsAndTheirOutcomes
  refine ⟨⟨rfl, fun _ => rfl, rfl, rfl, rfl, fun _ => rfl, fun _ => rfl, rfl⟩, fun l a s rest r ev first => ?_, fun s it o presented outcome => ?_,
    fun r f s => rfl⟩
  · intro u
    have run : exec (.panelEvent l a) s = .next (panelEvent l a r ev u) :=
      exec_of_lineMsg (x := (r, ev)) (work := fun m s => panelEvent l a m.1 m.2 s) rfl first rfl
    rw [run]
    refine ⟨fun code kind => ?_, fun req badge slots asks => ?_⟩
    · exact ⟨_, rfl, by rw [panelEvent_issue kind]; rfl, by rw [panelEvent_issue kind]; rfl, by rw [panelEvent_issue kind]; rfl,
        by rw [panelEvent_issue kind]; simp [issueNotice, u]⟩
    · rw [panelEvent_request (s := u) asks]
      refine ⟨fun unset => ?_, fun set held => ?_, fun set free => ?_⟩
      · rw [if_neg (by rw [show u.clockSet .ocu = false from unset]; exact Bool.false_ne_true)]
      · rw [if_pos (show u.clockSet .ocu = true from set), joinPanel_presented (s := u) held, verdictFor_of_source rfl]
      · intro item
        rw [if_pos (show u.clockSet .ocu = true from set)]
        exact ⟨_, rfl, allItems_joinPanel (s := u) free, joinPanel_isSome (s := u) free,
          fun x queued own y source => joinPanel_repeats (s := u) free queued own source,
          (only_joinPanel (by decide) (by decide)).mpr ((only_setWires (by decide)).mpr (.refl _ _))⟩
  · intro u
    rw [exec_bookOutcome_of presented outcome]
    refine ⟨fun origin => ?_, fun origin => ?_, fun x f taken origin source gives => ?_, fun q => ?_, fun id => ?_⟩
    · rw [itemAnswered, origin]
    · rw [itemAnswered, origin]
      rfl
    · rw [itemAnswered, origin]
      dsimp only
      rw [gives]
      dsimp only
      rw [verdictFor_of_source source]
    · cases q <;> rfl
    · exact ⟨rfl, rfl, rfl, rfl, rfl, rfl, rfl, rfl, rfl, rfl, rfl, rfl, rfl, rfl, rfl, rfl, rfl⟩

end Sys2Proof.Machine

/-! PROOFS. The occupancy unit: what a display record shows, which commands recompose a room, and the supply at OCU (06 R125 to R131). -/

namespace Sys2Proof.Machine

open Host

/-! ## What a room shows (R125) -/

section
variable {s : State} {r : Room}

theorem shown_notAvailable (no : s.clockSet .ocu = false ∨ (s.roomRec r).cap = 0) : shown s r = ⟨.notAvailable, none, none, none⟩ :=
  if_pos (by rcases no with h | h <;> simp [h])

variable (set : s.clockSet .ocu = true) (serves : (s.roomRec r).cap ≠ 0)
include set serves

/-- The rows after the first: the entry now, else the next entry, else free. -/
theorem shown_eq : shown s r = ((entryNow s r s.ocuSlot).bind (shownNow s)).getD
    (((nextEntry s r s.ocuSlot).bind (shownNext s s.ocuSlot (s.attrOf r).e)).getD
      (shownFree (((s.now .ocu).day + 1) * 288) (nextEntry s r s.ocuSlot))) := by
  have available : ¬(!s.clockSet .ocu || (s.roomRec r).cap = 0) = true := by simp [set, serves]
  unfold shown
  dsimp only
  rw [if_neg available]
  cases (entryNow s r s.ocuSlot).bind (shownNow s) with
  | some x => rfl
  | none => cases (nextEntry s r s.ocuSlot).bind (shownNext s s.ocuSlot (s.attrOf r).e) <;> rfl

theorem shown_of_now {e : Entry} (now : entryNow s r s.ocuSlot = some e) {x : Shown} (row : shownNow s e = some x) : shown s r = x := by
  rw [shown_eq set serves, now, Option.bind_some, row, Option.getD_some]

theorem shown_of_next (now : entryNow s r s.ocuSlot = none) {e : Entry} (next : nextEntry s r s.ocuSlot = some e) {x : Shown}
    (row : shownNext s s.ocuSlot (s.attrOf r).e e = some x) : shown s r = x := by
  rw [shown_eq set serves, now, Option.bind_none, Option.getD_none, next, Option.bind_some, row, Option.getD_some]

theorem shown_of_free (now : entryNow s r s.ocuSlot = none) (row : (nextEntry s r s.ocuSlot).bind (shownNext s s.ocuSlot (s.attrOf r).e) = none) :
    shown s r = shownFree (((s.now .ocu).day + 1) * 288) (nextEntry s r s.ocuSlot) := by
  rw [shown_eq set serves, now, Option.bind_none, Option.getD_none, row, Option.getD_none]

end

section
variable {s : State} {e : Entry} {slot early : Nat}

theorem shownNow_confirmed (state : e.summary = .confirmed) : shownNow s e =
    if (entryBody s e).earlyIn then some ⟨.inUse, some e, some e.stop, none⟩ else some ⟨.checkinOpen, some e, some e.stop, some e.start⟩ := by
  rw [shownNow, state]

theorem shownNext_confirmed (near : e.start < slot + 12) (state : e.summary = .confirmed) : shownNext s slot early e =
    if (entryBody s e).earlyIn then some ⟨.inUse, some e, some e.stop, some e.start⟩
    else if e.start ≤ slot + early then some ⟨.checkinOpen, some e, some e.start, some e.start⟩
    else some ⟨.bookedNext, some e, some e.start, some e.start⟩ := by
  rw [shownNext, if_pos near, state]

theorem shownNext_held (near : e.start < slot + 12) (state : e.summary = .held) :
    shownNext s slot early e = some ⟨.heldNext, some e, some e.start, some e.start⟩ := by
  rw [shownNext, if_pos near, state]

theorem shownNext_none (far : slot + 12 ≤ e.start ∨ (e.summary ≠ .confirmed ∧ e.summary ≠ .held)) : shownNext s slot early e = none := by
  unfold shownNext
  rcases far with far | ⟨not_confirmed, not_held⟩
  · exact if_neg (Nat.not_lt.mpr far)
  · split
    · cases state : e.summary <;> simp_all
    · rfl

/-! ## The other fields (R126) -/

theorem catering_some : catering s (some e) =
    if e.summary != .damaged && (entryBody s e).cateringDelivered then .delivered
    else (((s.bookRec e.index).order.bind fun o => resolveOrder o s).map orderCatering).getD .none := by
  unfold catering
  dsimp only
  split
  · rfl
  · show (match (s.bookRec e.index).order.bind (fun o => resolveOrder o s) with
      | some o => orderCatering o
      | none => Catering.none) = _
    cases (s.bookRec e.index).order.bind (fun o => resolveOrder o s) <;> rfl

theorem orderCatering_late {o : OrderRec} (late : o.late = true) : orderCatering o = .late := if_pos late

theorem orderCatering_timely {o : OrderRec} (timely : o.late = false) : orderCatering o =
    if o.state = .due then .onWay else if o.state = .committed then .preparing else .none := by
  unfold orderCatering
  rw [timely]
  cases o.state <;> rfl

end

/-! ## Recomposing (R127, R130) -/

section
variable {s : State} {r : Room}

theorem readForDisplay_roomRec (q : Room) : (readForDisplay r s).roomRec q = s.roomRec q := by
  have rzt : (readForDisplay r s).rzt = s.rzt :=
    (only_readForDisplay (ps := [.book, .wires]) (by decide) (by decide)).mpr (.refl _ _) .rzt (by decide)
  unfold State.roomRec
  rw [rzt]

theorem recompose_no_panel (panel : (s.roomRec r).panel = none) : recompose r s = readForDisplay r s := by
  unfold recompose
  dsimp only
  rw [readForDisplay_roomRec, panel]

theorem displayLoss_no_panel (panel : (s.roomRec r).panel = none) : displayLoss r s = readForDisplay r s := by
  unfold displayLoss
  dsimp only
  rw [readForDisplay_roomRec, panel]

theorem displayLoss_panel {p : PanelAddr} (panel : (s.roomRec r).panel = some p) :
    displayLoss r s = handDisplay r p (compose (readForDisplay r s) r) (readForDisplay r s) := by
  unfold displayLoss
  dsimp only
  rw [readForDisplay_roomRec, panel]

theorem recompose_panel {p : PanelAddr} (panel : (s.roomRec r).panel = some p) : recompose r s =
    if s.ocu.lastDisplay[r] = some (compose (readForDisplay r s) r) then readForDisplay r s
    else handDisplay r p (compose (readForDisplay r s) r) (readForDisplay r s) := by
  unfold recompose
  dsimp only
  rw [readForDisplay_roomRec, panel, readForDisplay_ocu]

/-- A room recomposed leaves what the panel of another room was handed last. -/
theorem recompose_lastDisplay_other {q : Room} (other : q ≠ r) : (recompose r s).ocu.lastDisplay[q] = s.ocu.lastDisplay[q] := by
  cases panel : (s.roomRec r).panel with
  | none => rw [recompose_no_panel panel, readForDisplay_ocu]
  | some p =>
    have run := recompose_panel panel
    by_cases same : s.ocu.lastDisplay[r] = some (compose (readForDisplay r s) r)
    · rw [if_pos same] at run
      rw [run, readForDisplay_ocu]
    · rw [if_neg same] at run
      have handed : (recompose r s).ocu.lastDisplay = put s.ocu.lastDisplay r (some (compose (readForDisplay r s) r)) := by
        rw [run, ← readForDisplay_ocu r s]
        rfl
      rw [handed]
      exact put_get_other _ _ (Ne.symm other)

theorem foldl_recompose_lastDisplay {rooms : List Room} {q : Room} (other : q ∉ rooms) (s : State) :
    (rooms.foldl (fun v r => recompose r v) s).ocu.lastDisplay[q] = s.ocu.lastDisplay[q] := by
  induction rooms generalizing s with
  | nil => rfl
  | cons r rooms ih =>
    obtain ⟨differs, rest⟩ := List.ne_and_not_mem_of_not_mem_cons other
    rw [List.foldl_cons, ih rest, recompose_lastDisplay_other differs]

end

/-- Settles O47: the table row by row, the fields by the subject, and the handing by what the panel was handed last. -/
theorem displayRecordsAreComposedAndHanded : Obligations.DisplayRecordsAreComposedAndHanded := by
  unfold Obligations.DisplayRecordsAreComposedAndHanded
  refine ⟨fun s r => ?_, fun s r => ?_, fun s r => ?_⟩
  · intro slot early x
    refine ⟨shown_notAvailable, fun set serves => ⟨fun e now => ?_, fun now e next => ?_, fun now next => ?_⟩⟩
    · have row {y : Shown} : shownNow s e = some y → x = y := shown_of_now set serves now
      refine ⟨fun state => row ?_, fun state => row ?_, fun state => row ?_, fun state early => row ?_, fun state late => row ?_, fun state => row ?_⟩
      · rw [shownNow, state]
      · rw [shownNow, state]
      · rw [shownNow, state]
      · rw [shownNow_confirmed state, if_pos early]
      · rw [shownNow_confirmed state, if_neg (by simp [late])]
      · rw [shownNow, state]
    · have row {y : Shown} : shownNext s slot early e = some y → x = y := shown_of_next set serves now next
      refine ⟨fun near state isEarly => row ?_, fun near state notEarly reached => row ?_, fun near state notEarly ahead => row ?_,
        fun near state => row (shownNext_held near state), fun far => ?_⟩
      · rw [shownNext_confirmed near state, if_pos isEarly]
      · rw [shownNext_confirmed near state, if_neg (by simp [notEarly]), if_pos reached]
      · rw [shownNext_confirmed near state, if_neg (by simp [notEarly]), if_neg (Nat.not_le.mpr ahead)]
      · have free : x = _ := shown_of_free set serves now (by rw [next, Option.bind_some, shownNext_none far])
        rw [free, next, shownFree]
    · have free : x = _ := shown_of_free set serves now (by rw [next, Option.bind_none])
      rw [free, next, shownFree]
  · intro d x
    refine ⟨rfl, rfl, rfl, rfl, decide_eq_true_iff, rfl, fun no_subject => ?_, fun e subject => ?_⟩
    · have meeting : d.meeting = x.subject.bind (fun e => if e.summary = .damaged then none else (entryBody s e).display) := rfl
      have served : d.catering = catering s x.subject := rfl
      rw [meeting, served, no_subject]
      exact ⟨rfl, rfl⟩
    · intro b order served
      have meeting : d.meeting = if e.summary = .damaged then none else b.display := by
        show x.subject.bind _ = _
        rw [subject, Option.bind_some]
      have catered : d.catering = _ := (congrArg (catering s) subject).trans catering_some
      have unserved : ¬served → ¬(e.summary != .damaged && b.cateringDelivered) = true := by
        rw [Bool.and_eq_true, bne_iff_ne]
        exact id
      refine ⟨fun damaged => by rw [meeting, if_pos damaged], fun whole => by rw [meeting, if_neg whole], fun is => ?_, fun no gone => ?_,
        fun id o no names named => ?_⟩
      · rw [catered, if_pos (by rw [Bool.and_eq_true, bne_iff_ne]; exact is)]
      · have none_found : (order.bind fun o => resolveOrder o s) = none := by
          cases h : order with
          | none => rfl
          | some id => exact gone id h
        rw [catered, if_neg (unserved no), none_found]
        rfl
      · have found : (order.bind fun o => resolveOrder o s) = some o := by rw [names]; exact named
        rw [catered, if_neg (unserved no), found, Option.map_some, Option.getD_some]
        refine ⟨orderCatering_late, fun timely due => ?_, fun timely committed => ?_, fun timely not_due not_committed => ?_⟩
        · rw [orderCatering_timely timely, if_pos due]
        · rw [orderCatering_timely timely, if_neg (by rw [committed]; decide), if_pos committed]
        · rw [orderCatering_timely timely, if_neg not_due, if_neg not_committed]
  · intro u handed
    refine ⟨fun panel => ⟨recompose_no_panel panel, displayLoss_no_panel panel⟩, fun p panel => ⟨displayLoss_panel panel, fun same => ?_, fun differs => ?_⟩⟩
    · rw [recompose_panel panel, if_pos same]
    · rw [recompose_panel panel, if_neg differs]
      rfl

/-! ## Supply states, stop and warm start at OCU (R110, R112, R131) -/

section
variable {s : State}

theorem configRoom_eq (sig : ConfigSignal) (s : State) (r : Room) : configRoom sig s r =
    recompose r (if r ∈ sig.panelChanged then s.setOcu { s.ocu with lastDisplay := put s.ocu.lastDisplay r none } else s) := by
  unfold configRoom
  simp only [List.contains_iff_mem]
  rfl

/-- A stop of OCU: its items leave, but for a presented one that the book has taken. -/
theorem ocuStop_ocu : (ocuStop s).ocu =
    { s.ocu with queue := [], presented := if s.wires.outcome = none then none else s.ocu.presented } := by
  unfold ocuStop
  dsimp only
  rw [foldl_verdictFor_ocu]
  cases s.wires.outcome <;> rfl

theorem ocuStop_repeats {it : Item} (leaves : it ∈ s.ocu.queue ∨ (s.ocu.presented = some it ∧ s.wires.outcome = none)) {x : Source}
    (source : it.source = some x) : (x.addr, OcuMsg.verdict x.seq false) ∈ (ocuStop s).wires.toLine[x.line] := by
  refine foldl_verdictFor_mem false (List.mem_append.mpr ?_) source _
  rcases leaves with queued | ⟨presented, untaken⟩
  · exact .inr queued
  · refine .inl ?_
    rw [untaken, presented]
    exact List.mem_singleton_self it

theorem exec_ocuSupplyChange_of_head {x : SState} (head : s.wires.supply[ocuIx].head? = some (.state x)) :
    exec .ocuSupplyChange s =
      .next (settleSupply (recomposeAll (if x = .retain then forgetPresence (popSupply ocuIx s) else popSupply ocuIx s))) :=
  exec_of_supply (i := ocuIx) (sel := fun | .state x => some x | _ => none)
    (work := fun x s => recomposeAll (if x = .retain then forgetPresence s else s)) (a := x) rfl head rfl

theorem exec_ocuWarmStart_of_head (head : s.wires.supply[ocuIx].head? = some .warmStart) :
    exec .ocuWarmStart s = .next (settleSupply (ocuWarmStart (popSupply ocuIx s))) :=
  exec_of_supply (i := ocuIx) (sel := fun | .warmStart => some () | _ => none) (work := fun _ s => ocuWarmStart s) (a := ()) rfl head rfl

/-- The warm start of OCU: what it keeps, and the rooms whose feedback goes. -/
theorem ocuWarmStart_eq : ocuWarmStart s = ((List.finRange 128).filter (fun r => (s.ocu.feedback[r]).isSome)).foldl (fun v r => recompose r v)
    (s.setOcu { s.ocu with
      presence := Vector.replicate 128 .unknown, feedback := Vector.replicate 128 none, era := s.ocu.era + 1 }) := by
  rw [← ixsWhere_eq]
  rfl

end

/-- Settles O48: each command by the message it takes, and the stop and the warm start by what OCU then holds. -/
theorem ocuFollowsIndicationsAndSupply : Obligations.OcuFollowsIndicationsAndSupply := by
  unfold Obligations.OcuFollowsIndicationsAndSupply
  refine ⟨fun s => ⟨fun r rs waits => ?_, fun r rs waits => ?_, fun l a r rest first => ?_, fun r f x boundary stands => ?_, fun sig head => ?_⟩,
    fun s => ⟨fun x head => ?_, fun head => ?_, fun head => ?_⟩⟩
  · have run : exec .scheduleIndication s = execScheduleIndication s := rfl
    rw [run, execScheduleIndication, waits]
  · have run : exec .orderIndication s = execOrderIndication s := rfl
    rw [run, execOrderIndication, waits]
  · exact exec_of_lineMsg (x := r) (work := fun r s => displayLoss r s) rfl first rfl
  · have run : exec (.feedbackExpiry r) s = .next (if (s.now .ocu).isSlotBoundary && feedbackOver s.ocuSlot s.ocu.feedback[r] then
        recompose r (clearFeedback r s) else s) := rfl
    have over_iff : ((s.now .ocu).isSlotBoundary && feedbackOver s.ocuSlot s.ocu.feedback[r]) = true ↔ x ≤ s.ocuSlot := by
      simp only [stands, feedbackOver, Clock.isSlotBoundary, boundary]
      simp
    rw [run]
    refine ⟨fun past => ?_, fun ahead => ?_⟩
    · rw [if_pos (over_iff.mpr past)]
      rfl
    · rw [if_neg (over_iff.not.mpr (Nat.not_le.mpr ahead))]
  · refine congrArg Outcome.next ((takeConfig_of_head head).trans (congrArg settleConfig ?_))
    exact List.foldl_ext _ _ _ fun t r _ => configRoom_eq sig t r
  · intro u
    have same : u.ocu = s.ocu := popSupply_ocu _ _
    rw [exec_ocuSupplyChange_of_head head, ← same]
    rfl
  · have run : exec .ocuStop s = .next (settleSupply (ocuStop (popSupply ocuIx s))) :=
      exec_of_supply (work := fun _ s => ocuStop s) (a := ()) rfl head rfl
    have outcome : (popSupply ocuIx s).wires.outcome = s.wires.outcome := by rw [popSupply_wires]
    refine ⟨_, run, ?_, fun it queued x source => ?_, fun it x presented untaken source => ?_, ?_⟩
    · rw [settleSupply_ocu, ocuStop_ocu, outcome, popSupply_ocu]
    · rw [settleSupply_wires_toLine]
      exact ocuStop_repeats (.inl (by rw [popSupply_ocu]; exact queued)) source
    · rw [settleSupply_wires_toLine]
      exact ocuStop_repeats (.inr ⟨by rw [popSupply_ocu]; exact presented, outcome.trans untaken⟩) source
    · simp
  · intro u fresh
    have feedback : (popSupply ocuIx s).ocu = s.ocu := popSupply_ocu _ _
    have run := exec_ocuWarmStart_of_head head
    rw [ocuWarmStart_eq, feedback] at run
    refine ⟨run, _, run, ?_, fun r absent => ?_, ?_⟩
    · obtain ⟨d, ocu⟩ := (Recomposed.foldl (fun s r => recompose_recomposed r s)
        ((List.finRange 128).filter (fun r => (s.ocu.feedback[r]).isSome)) fresh).ocu
      rw [settleSupply_ocu]
      exact ocu.trans (by rw [ocu])
    · have stays : r ∉ (List.finRange 128).filter (fun r => (s.ocu.feedback[r]).isSome) := fun mem => by
        have some_feedback := (List.mem_filter.mp mem).2
        rw [absent] at some_feedback
        cases some_feedback
      rw [settleSupply_ocu, foldl_recompose_lastDisplay stays]
      rfl
    · have shown := (Recomposed.foldl (fun s r => recompose_recomposed r s)
        ((List.finRange 128).filter (fun r => (s.ocu.feedback[r]).isSome)) fresh).only
      refine (only_settleSupply (by decide) (by decide)).mpr (Only.trans (t := fresh) ?_ (shown.mono (by decide)))
      simp [fresh, u]

end Sys2Proof.Machine

/-! PROOFS. The kitchen planner's maps and orders: what each operation on them leaves and changes, once each (07 R136, R141, R142). -/

namespace Sys2Proof.Machine

open Host

/-! ## LOADs (R136) -/

section
variable {s : State} {k : Kitchen} {b : Nat}

theorem mapIx_eq_some {base : Nat} {i : Fin 192} : mapIx base b = some i ↔ base * 96 ≤ b ∧ i.val = b - base * 96 := by
  unfold mapIx
  split
  · next inside =>
    rw [Option.some.injEq, Fin.ext_iff]
    exact ⟨fun same => ⟨inside.1, same.symm⟩, fun same => same.2.symm⟩
  · next outside =>
    exact ⟨fun no => (by cases no), fun same => absurd ⟨same.1, by omega⟩ outside⟩

/-- A bucket of the maps' two days. -/
theorem mapIx_inside {base : Nat} (low : base * 96 ≤ b) (high : b < base * 96 + 192) :
    mapIx base b = some ⟨b - base * 96, by omega⟩ := mapIx_eq_some.mpr ⟨low, rfl⟩

theorem load_of_mapIx {i : Fin 192} (at_ : mapIx s.kplDay b = some i) : s.load k b = (s.kpl.maps[k])[i] := by
  rw [State.load, at_]

theorem load_of_outside (outside : mapIx s.kplDay b = none) : s.load k b = 0 := by
  rw [State.load, outside]

/-- LOADs are read from the maps and the day they begin at. -/
theorem load_congr {t : State} (maps : t.kpl.maps = s.kpl.maps) (times : t.times = s.times) : t.load k b = s.load k b := by
  unfold State.load State.kplDay State.now State.timeOf
  rw [maps, times]

theorem changeLoad_eq (f : Nat → Nat) (k : Kitchen) (b : Nat) (s : State) :
    ∃ maps, changeLoad f k b s = s.setKpl { s.kpl with maps := maps } := by
  unfold changeLoad
  split
  · exact ⟨_, rfl⟩
  · exact ⟨s.kpl.maps, rfl⟩

theorem changeLoad_other {f : Nat → Nat} {k' : Kitchen} {b' : Nat} (other : ¬(k' = k ∧ b' = b)) :
    (changeLoad f k b s).load k' b' = s.load k' b' := by
  unfold changeLoad
  split
  · next i at_ =>
    let t := s.setKpl { s.kpl with maps := modAt s.kpl.maps k (fun m => modAt m i f) }
    cases at' : mapIx s.kplDay b' with
    | none => exact (load_of_outside (s := t) at').trans (load_of_outside at').symm
    | some j =>
      refine (load_of_mapIx (s := t) at').trans (Eq.trans ?_ (load_of_mapIx at').symm)
      by_cases same : k = k'
      · subst same
        have differ : i ≠ j := fun e => by
          obtain ⟨low, i_eq⟩ := mapIx_eq_some.mp at_
          obtain ⟨low', j_eq⟩ := mapIx_eq_some.mp at'
          rw [Fin.ext_iff] at e
          exact other ⟨rfl, by omega⟩
        have map : t.kpl.maps[k] = modAt (s.kpl.maps[k]) i f := modAt_get_same _ _ _
        rw [map]
        exact modAt_get_other _ _ differ
      · have map : t.kpl.maps[k'] = s.kpl.maps[k'] := modAt_get_other _ _ same
        rw [map]
  · rfl

theorem changeLoad_same {f : Nat → Nat} (inside : (mapIx s.kplDay b).isSome = true) : (changeLoad f k b s).load k b = f (s.load k b) := by
  obtain ⟨i, at_⟩ := Option.isSome_iff_exists.mp inside
  let t := s.setKpl { s.kpl with maps := modAt s.kpl.maps k (fun m => modAt m i f) }
  have run : changeLoad f k b s = t := by rw [changeLoad, at_]
  have map : t.kpl.maps[k] = modAt (s.kpl.maps[k]) i f := modAt_get_same _ _ _
  rw [run, load_of_mapIx (s := t) at_, map, load_of_mapIx at_]
  exact modAt_get_same _ _ _

/-- What is withdrawn from a bucket outside the maps leaves the 0 that is read there. -/
theorem changeLoad_sub_same (n : Nat) : (changeLoad (· - n) k b s).load k b = s.load k b - n := by
  cases at_ : mapIx s.kplDay b with
  | some i => exact changeLoad_same (by rw [at_]; rfl)
  | none =>
    have run : changeLoad (· - n) k b s = s := by rw [changeLoad, at_]
    rw [run, load_of_outside at_, Nat.zero_sub]

/-! ## Contributions added and withdrawn -/

/-- What contributions give to one bucket. -/
def unitsAt (cs : List (Nat × Nat)) (b : Nat) : Nat := ((cs.filter (fun c => c.1 = b)).map Prod.snd).sum

theorem unitsAt_cons (c : Nat × Nat) (cs : List (Nat × Nat)) (b : Nat) :
    unitsAt (c :: cs) b = (if c.1 = b then c.2 else 0) + unitsAt cs b := by
  unfold unitsAt
  by_cases same : c.1 = b
  · rw [List.filter_cons_of_pos (by simpa using same), if_pos same, List.map_cons, List.sum_cons]
  · rw [List.filter_cons_of_neg (by simpa using same), if_neg same, Nat.zero_add]

theorem foldl_changeLoad_eq (f : Nat × Nat → Nat → Nat) (k : Kitchen) (cs : List (Nat × Nat)) (s : State) :
    ∃ maps, cs.foldl (fun s c => changeLoad (f c) k c.1 s) s = s.setKpl { s.kpl with maps := maps } := by
  induction cs generalizing s with
  | nil => exact ⟨s.kpl.maps, rfl⟩
  | cons c cs ih =>
    obtain ⟨maps, first⟩ := changeLoad_eq (f c) k c.1 s
    obtain ⟨maps', rest⟩ := ih (changeLoad (f c) k c.1 s)
    refine ⟨maps', ?_⟩
    rw [List.foldl_cons, rest, first]
    rfl

theorem addLoads_eq (k : Option Kitchen) (cs : List (Nat × Nat)) (s : State) :
    ∃ maps, addLoads k cs s = s.setKpl { s.kpl with maps := maps } := by
  cases k with
  | none => exact ⟨s.kpl.maps, rfl⟩
  | some k => exact foldl_changeLoad_eq (fun c x => x + c.2) k cs s

theorem withdrawLoads_eq (k : Option Kitchen) (cs : List (Nat × Nat)) (s : State) :
    ∃ maps, withdrawLoads k cs s = s.setKpl { s.kpl with maps := maps } := by
  cases k with
  | none => exact ⟨s.kpl.maps, rfl⟩
  | some k => exact foldl_changeLoad_eq (fun c x => x - c.2) k cs s

theorem changeLoad_kplDay (f : Nat → Nat) (k : Kitchen) (b : Nat) (s : State) : (changeLoad f k b s).kplDay = s.kplDay := by
  obtain ⟨maps, run⟩ := changeLoad_eq f k b s
  rw [run]
  rfl

theorem addLoads_load (k : Kitchen) (cs : List (Nat × Nat)) (s : State) {b : Nat} (inside : (mapIx s.kplDay b).isSome = true) :
    (addLoads (some k) cs s).load k b = s.load k b + unitsAt cs b := by
  induction cs generalizing s with
  | nil => rfl
  | cons c cs ih =>
    have step : addLoads (some k) (c :: cs) s = addLoads (some k) cs (changeLoad (· + c.2) k c.1 s) := rfl
    rw [step, ih _ (by rw [changeLoad_kplDay]; exact inside), unitsAt_cons]
    by_cases same : c.1 = b
    · subst same
      rw [changeLoad_same inside, if_pos rfl, Nat.add_assoc]
    · rw [changeLoad_other fun both => same both.2.symm, if_neg same, Nat.zero_add]

theorem withdrawLoads_load (k : Kitchen) (cs : List (Nat × Nat)) (s : State) (b : Nat) :
    (withdrawLoads (some k) cs s).load k b = s.load k b - unitsAt cs b := by
  induction cs generalizing s with
  | nil => rfl
  | cons c cs ih =>
    have step : withdrawLoads (some k) (c :: cs) s = withdrawLoads (some k) cs (changeLoad (· - c.2) k c.1 s) := rfl
    rw [step, ih, unitsAt_cons]
    by_cases same : c.1 = b
    · subst same
      rw [changeLoad_sub_same, if_pos rfl, Nat.sub_sub]
    · rw [changeLoad_other fun both => same both.2.symm, if_neg same, Nat.zero_add]

theorem foldl_changeLoad_other (f : Nat × Nat → Nat → Nat) {k k' : Kitchen} (other : k' ≠ k) (cs : List (Nat × Nat)) (s : State) (b : Nat) :
    (cs.foldl (fun s c => changeLoad (f c) k c.1 s) s).load k' b = s.load k' b := by
  induction cs generalizing s with
  | nil => rfl
  | cons c cs ih => rw [List.foldl_cons, ih, changeLoad_other fun both => other both.1]

theorem addLoads_load_other {k k' : Kitchen} (other : k' ≠ k) (cs : List (Nat × Nat)) (s : State) (b : Nat) :
    (addLoads (some k) cs s).load k' b = s.load k' b := foldl_changeLoad_other (fun c x => x + c.2) other cs s b

theorem withdrawLoads_load_other {k k' : Kitchen} (other : k' ≠ k) (cs : List (Nat × Nat)) (s : State) (b : Nat) :
    (withdrawLoads (some k) cs s).load k' b = s.load k' b := foldl_changeLoad_other (fun c x => x - c.2) other cs s b

end

/-! ## Orders (R141) -/

section
variable {s : State} {i j : OrderIx}

@[simp] theorem setOrder_orderRec_same (o : OrderRec) : (setOrder i o s).orderRec i = o := put_get_same s.kpl.orders i o

theorem setOrder_orderRec_other (o : OrderRec) (other : j ≠ i) : (setOrder i o s).orderRec j = s.orderRec j :=
  put_get_other s.kpl.orders o (Ne.symm other)

theorem orderRec_congr {t : State} (orders : t.kpl.orders = s.kpl.orders) : t.orderRec = s.orderRec := by
  unfold State.orderRec
  rw [orders]

theorem addLoads_orderRec (k : Option Kitchen) (cs : List (Nat × Nat)) : (addLoads k cs s).orderRec = s.orderRec := by
  obtain ⟨maps, run⟩ := addLoads_eq k cs s
  rw [run]
  rfl

theorem withdrawLoads_orderRec (k : Option Kitchen) (cs : List (Nat × Nat)) : (withdrawLoads k cs s).orderRec = s.orderRec := by
  obtain ⟨maps, run⟩ := withdrawLoads_eq k cs s
  rw [run]
  rfl

theorem setOrder_load (o : OrderRec) (k : Kitchen) (b : Nat) : (setOrder i o s).load k b = s.load k b := load_congr rfl rfl

theorem resolveOrder_eq_some {id : OrderId} {o : OrderRec} : resolveOrder id s = some o ↔
    o = s.orderRec id.index ∧ o.live = true ∧ o.gen = id.gen := by
  unfold resolveOrder
  dsimp only
  split
  · next named =>
    rw [Option.some.injEq]
    exact ⟨by rintro rfl; exact ⟨rfl, named⟩, fun h => h.1.symm⟩
  · next stale =>
    refine ⟨fun no => (by cases no), ?_⟩
    rintro ⟨rfl, named⟩
    exact absurd named stale

/-- A handle names the same order in states that hold the same orders. -/
theorem resolveOrder_congr {t : State} (orders : t.kpl.orders = s.kpl.orders) (id : OrderId) : resolveOrder id t = resolveOrder id s := by
  unfold resolveOrder
  rw [orderRec_congr orders]

end

end Sys2Proof.Machine

/-! PROOFS. The kitchen planner's placement: the walk over the open buckets, trials, placements, and what freeing an order gives back
(07 R136, R141, R142, R145, R146). -/

namespace Sys2Proof.Machine

open Host

/-! ## The walk over the buckets (R145) -/

/-- The walk over a list of buckets with headroom, from its first on. -/
def fill (room : Nat → Nat) : List Nat → Nat → List (Nat × Nat) → Option (List (Nat × Nat))
  | [], rem, acc => if rem = 0 then some acc else none
  | b :: bs, rem, acc =>
    if rem = 0 then some acc
    else if acc.length = 4 then none
    else fill room bs (rem - min rem (room b)) ((b, min rem (room b)) :: acc)

section
variable {capb : Nat} {load : Nat → Nat} {room : Nat → Nat}

theorem range_map_sub_succ (n b : Nat) : (List.range (n + 1)).map (fun i => b - i) = b :: (List.range n).map (fun i => b - 1 - i) := by
  rw [List.range_succ_eq_map, List.map_cons, List.map_map, Nat.sub_zero]
  congr 1
  refine List.map_congr_left fun i _ => ?_
  rw [Function.comp_apply]
  omega

theorem fill_zero (bs : List Nat) (acc : List (Nat × Nat)) : fill room bs 0 acc = some acc := by
  cases bs <;> rfl

/-- A walk passes the full buckets over. -/
theorem walk_eq_fill (n b rem : Nat) (acc : List (Nat × Nat)) : walk capb load n b rem acc =
    fill (fun b => capb - load b) (((List.range n).map (fun i => b - i)).filter (fun b => decide (load b < capb))) rem acc := by
  induction n generalizing b rem acc with
  | zero => rfl
  | succ n ih =>
    rw [range_map_sub_succ, walk]
    by_cases done : rem = 0
    · subst done
      rw [if_pos rfl, fill_zero]
    · rw [if_neg done]
      dsimp only
      by_cases full : capb - load b = 0
      · rw [if_pos full, List.filter_cons_of_neg (by simpa using Nat.sub_eq_zero_iff_le.mp full), ih]
      · rw [if_neg full, List.filter_cons_of_pos (by simpa using Nat.lt_of_sub_ne_zero full), fill, if_neg done]
        split
        · rfl
        · exact ih _ _ _

/-- What a walk takes: from the front of its buckets, whole from each but the last taken, the units asked for in at most four takes. -/
structure Taken (room : Nat → Nat) (bs : List Nat) (rem : Nat) (ts : List (Nat × Nat)) : Prop where
  front : ts.map Prod.fst <+: bs
  units : (ts.map Prod.snd).sum = rem
  within : ∀ x ∈ ts, 0 < x.2 ∧ x.2 ≤ room x.1
  whole : ts.Pairwise (fun x _ => x.2 = room x.1)

theorem fill_eq_some {bs : List Nat} {rem : Nat} {acc cs : List (Nat × Nat)} (open_ : ∀ b ∈ bs, 0 < room b) (few : acc.length ≤ 4)
    (run : fill room bs rem acc = some cs) : ∃ ts, cs = ts.reverse ++ acc ∧ ts.length + acc.length ≤ 4 ∧ Taken room bs rem ts := by
  induction bs generalizing rem acc with
  | nil =>
    by_cases done : rem = 0
    · subst done
      rw [fill_zero] at run
      cases run
      exact ⟨[], rfl, by simpa using few, by simp, rfl, by simp, .nil⟩
    · rw [fill, if_neg done] at run
      cases run
  | cons b bs ih =>
    by_cases done : rem = 0
    · subst done
      rw [fill_zero] at run
      cases run
      exact ⟨[], rfl, by simpa using few, by simp, rfl, by simp, .nil⟩
    · rw [fill, if_neg done] at run
      split at run
      · cases run
      · next less =>
        obtain ⟨ts, rfl, short, taken⟩ := ih (fun c mem => open_ c (by simp [mem])) (by rw [List.length_cons]; omega) run
        have has_room : 0 < room b := open_ b (by simp)
        refine ⟨(b, min rem (room b)) :: ts, by simp, by rw [List.length_cons] at short ⊢; omega, ?_, ?_, ?_, ?_⟩
        · exact List.prefix_cons_iff.mpr (.inr ⟨_, rfl, taken.front⟩)
        · rw [List.map_cons, List.sum_cons, taken.units]
          dsimp only
          omega
        · intro x mem
          rcases List.mem_cons.mp mem with rfl | later
          · dsimp only
            omega
          · exact taken.within x later
        · refine List.pairwise_cons.mpr ⟨fun y later => ?_, taken.whole⟩
          have left : 0 < rem - min rem (room b) := by
            have some_left := (taken.within y later).1
            have counted : y.2 ≤ (ts.map Prod.snd).sum := List.le_sum_of_mem (List.mem_map_of_mem later)
            rw [taken.units] at counted
            omega
          dsimp only
          omega

theorem fill_isSome_iff {bs : List Nat} {rem : Nat} {acc : List (Nat × Nat)} (few : acc.length ≤ 4) :
    (fill room bs rem acc).isSome = true ↔ rem ≤ ((bs.take (4 - acc.length)).map room).sum := by
  induction bs generalizing rem acc with
  | nil =>
    unfold fill
    split
    · next done => simp [done]
    · next left => simp [left]
  | cons b bs ih =>
    by_cases done : rem = 0
    · subst done
      simp [fill_zero]
    · rw [fill, if_neg done]
      by_cases four : acc.length = 4
      · rw [if_pos four, four]
        simpa using done
      · have places : 4 - acc.length = (4 - (acc.length + 1)) + 1 := by omega
        rw [if_neg four, ih (by rw [List.length_cons]; omega), List.length_cons, places, List.take_succ_cons, List.map_cons, List.sum_cons]
        omega

end

/-! ## A trial (R145) -/

section
variable {s : State} {room : Room} {units : Nat} {m : Int} {k : Kitchen}

/-- The departure bucket of a delivery in a room from a kitchen. -/
def departureOf (s : State) (room : Room) (m : Int) (k : Kitchen) : Int := m / 15 - (((s.roomRec room).travel)[k] : Nat)

/-- The buckets with headroom in the window before `last`, from the last down. -/
def openBuckets (s : State) (k : Kitchen) (last : Nat) : List Nat :=
  ((List.range (min (s.kpl.kitchens[k]).lead (last - s.kplBucket))).map (fun n => last - n)).filter
    (fun b => decide (s.load k b < (s.kpl.kitchens[k]).capb))

theorem trial_off (off : (s.kpl.kitchens[k]).enabled = false) : trial s room units m k = .error .kitchenFull :=
  if_pos (by simpa using off)

theorem trial_soon (on : (s.kpl.kitchens[k]).enabled = true) (soon : departureOf s room m k - 1 < (s.kplBucket : Int) + 1) :
    trial s room units m k = .error .tooSoon :=
  (if_neg (by simpa using on)).trans (if_pos soon)

theorem trial_eq (on : (s.kpl.kitchens[k]).enabled = true) (late : (s.kplBucket : Int) + 1 ≤ departureOf s room m k - 1) :
    trial s room units m k =
      (fill (fun b => (s.kpl.kitchens[k]).capb - s.load k b) (openBuckets s k (departureOf s room m k - 1).toNat) units []).elim
        (.error .kitchenFull) (fun cs => .ok ⟨k, (departureOf s room m k).toNat, cs⟩) := by
  have window : (departureOf s room m k - 1 -
      max (departureOf s room m k - 1 - ((s.kpl.kitchens[k]).lead : Int) + 1) ((s.kplBucket : Int) + 1) + 1).toNat =
      min (s.kpl.kitchens[k]).lead ((departureOf s room m k - 1).toNat - s.kplBucket) := by omega
  refine (if_neg (by simpa using on)).trans ((if_neg (Int.not_lt.mpr late)).trans ?_)
  rw [openBuckets, ← walk_eq_fill, ← window]
  unfold departureOf
  dsimp only
  cases walk (s.kpl.kitchens[k]).capb (s.load k) _ _ units [] <;> rfl

/-- A trial places nothing in a kitchen that is off or too late to begin. -/
theorem trial_ok {pl : Placing} (placed : trial s room units m k = .ok pl) :
    (s.kpl.kitchens[k]).enabled = true ∧ (s.kplBucket : Int) + 1 ≤ departureOf s room m k - 1 := by
  cases on : (s.kpl.kitchens[k]).enabled with
  | false =>
    rw [trial_off on] at placed
    cases placed
  | true =>
    refine ⟨rfl, Int.not_lt.mp fun soon => ?_⟩
    rw [trial_soon on soon] at placed
    cases placed

theorem mem_openBuckets {last b : Nat} (low : s.kplBucket < last) : b ∈ openBuckets s k last ↔
    s.load k b < (s.kpl.kitchens[k]).capb ∧ s.kplBucket < b ∧ b ≤ last ∧ last < b + (s.kpl.kitchens[k]).lead := by
  unfold openBuckets
  rw [List.mem_filter, List.mem_map, decide_eq_true_iff, and_comm]
  refine and_congr_right fun _ => ?_
  simp only [List.mem_range]
  constructor
  · rintro ⟨n, small, rfl⟩
    omega
  · rintro ⟨above, below, near⟩
    exact ⟨last - b, by omega, by omega⟩

/-- The open buckets stand from the last down. -/
theorem openBuckets_descend (last : Nat) : (openBuckets s k last).Pairwise (fun x y => y < x) := by
  refine List.Pairwise.filter _ (List.pairwise_map.mpr (List.Pairwise.imp_of_mem ?_ List.pairwise_lt_range))
  intro i j _ memj order
  rw [List.mem_range] at memj
  omega

theorem openBuckets_open {last b : Nat} (mem : b ∈ openBuckets s k last) : 0 < (s.kpl.kitchens[k]).capb - s.load k b := by
  have below := (List.mem_filter.mp mem).2
  rw [decide_eq_true_iff] at below
  omega

/-- What a trial that succeeds places. -/
theorem trial_taken {pl : Placing} (placed : trial s room units m k = .ok pl) :
    pl.kitchen = k ∧ pl.departure = (departureOf s room m k).toNat ∧ ∃ ts, pl.contribs = ts.reverse ∧ ts.length ≤ 4 ∧
      Taken (fun b => (s.kpl.kitchens[k]).capb - s.load k b) (openBuckets s k (departureOf s room m k - 1).toNat) units ts := by
  obtain ⟨on, late⟩ := trial_ok placed
  rw [trial_eq on late] at placed
  cases filled : fill (fun b => (s.kpl.kitchens[k]).capb - s.load k b) (openBuckets s k (departureOf s room m k - 1).toNat) units [] with
  | none =>
    rw [filled] at placed
    cases placed
  | some cs =>
    rw [filled] at placed
    cases placed
    obtain ⟨ts, rfl, short, taken⟩ := fill_eq_some (fun b => openBuckets_open) (by simp) filled
    exact ⟨rfl, rfl, ts, List.append_nil _, short, taken⟩

/-- Whether a trial succeeds: by what the first four open buckets have left. -/
theorem trial_succeeds (on : (s.kpl.kitchens[k]).enabled = true) (late : (s.kplBucket : Int) + 1 ≤ departureOf s room m k - 1)
    (enough : units ≤ (((openBuckets s k (departureOf s room m k - 1).toNat).take 4).map (fun b => (s.kpl.kitchens[k]).capb - s.load k b)).sum) :
    ∃ pl, trial s room units m k = .ok pl := by
  obtain ⟨cs, filled⟩ := Option.isSome_iff_exists.mp ((fill_isSome_iff (acc := []) (by simp)).mpr enough)
  exact ⟨_, (trial_eq on late).trans (by rw [filled]; rfl)⟩

theorem trial_full (on : (s.kpl.kitchens[k]).enabled = true) (late : (s.kplBucket : Int) + 1 ≤ departureOf s room m k - 1)
    (short : (((openBuckets s k (departureOf s room m k - 1).toNat).take 4).map (fun b => (s.kpl.kitchens[k]).capb - s.load k b)).sum < units) :
    trial s room units m k = .error .kitchenFull := by
  have failed : fill (fun b => (s.kpl.kitchens[k]).capb - s.load k b) (openBuckets s k (departureOf s room m k - 1).toNat) units [] = none := by
    rw [← Option.not_isSome_iff_eq_none, fill_isSome_iff (by simp)]
    exact Nat.not_le.mpr short
  rw [trial_eq on late, failed]
  rfl

/-! ## A placement (R146) -/

/-- The trial of the kitchen asked for, or of the room's primary one. -/
def firstTrial (s : State) (room : Room) (kreq : KReq) (units : Nat) (m : Int) : Except Code Placing :=
  match kreq with
  | .kitchen k => trial s room units m k
  | .primary => (s.roomRec room).k1.elim (.error .kitchenFull) (trial s room units m)

variable {kreq : KReq} {fallback : Bool}

theorem placement_eq : placement s room kreq fallback units m = (firstTrial s room kreq units m).tryCatch
    (fun c => if fallback then (s.roomRec room).k2.elim (.error c) (trial s room units m) else .error c) := by
  have second (c : Code) : (match (s.roomRec room).k2 with
      | some k => trial s room units m k
      | none => .error c) = (s.roomRec room).k2.elim (.error c) (trial s room units m) := by
    cases (s.roomRec room).k2 <;> rfl
  unfold placement firstTrial
  cases kreq with
  | kitchen k =>
    dsimp only
    cases trial s room units m k with
    | ok pl => rfl
    | error c => exact if_congr Iff.rfl (second c) rfl
  | primary =>
    dsimp only
    cases (s.roomRec room).k1 with
    | none => exact if_congr Iff.rfl (second .kitchenFull) rfl
    | some k =>
      dsimp only [Option.elim]
      cases trial s room units m k with
      | ok pl => rfl
      | error c => exact if_congr Iff.rfl (second c) rfl

end

/-! ## What freeing an order gives back (R141) -/

section
variable {s : State} {i j : OrderIx}

theorem freeOrderRec_eq : freeOrderRec i s = handOrderInd (s.orderRec i).room (setOrder i (OrderRec.blank ((s.orderRec i).gen + 1))
    (leaveDeferred i (withdrawLoads (s.orderRec i).kitchen (s.orderRec i).contribs s))) := rfl

theorem freeOrderRec_same : (freeOrderRec i s).orderRec i = OrderRec.blank ((s.orderRec i).gen + 1) := put_get_same _ _ _

theorem freeOrderRec_other (other : j ≠ i) : (freeOrderRec i s).orderRec j = s.orderRec j := by
  have kept : (freeOrderRec i s).orderRec j = (withdrawLoads (s.orderRec i).kitchen (s.orderRec i).contribs s).orderRec j :=
    put_get_other _ _ (Ne.symm other)
  rw [kept, withdrawLoads_orderRec]

theorem freeOrderRec_load (k : Kitchen) (b : Nat) :
    (freeOrderRec i s).load k b = (withdrawLoads (s.orderRec i).kitchen (s.orderRec i).contribs s).load k b := load_congr rfl rfl

theorem withdrawLoads_nothing (nothing : (s.orderRec i).kitchen = none ∨ (s.orderRec i).contribs = []) :
    withdrawLoads (s.orderRec i).kitchen (s.orderRec i).contribs s = s := by
  rcases nothing with none_ | none_
  · rw [none_]
    rfl
  · rw [none_]
    cases (s.orderRec i).kitchen <;> rfl

end

/-- Settles O50: a trial by the walk over its open buckets, a placement by its trials, and the maps by what is added and withdrawn. -/
theorem placementsKeepWithinCapacity : Obligations.PlacementsKeepWithinCapacity := by
  unfold Obligations.PlacementsKeepWithinCapacity
  refine ⟨fun s room units m k => ?_, fun s room kreq fallback units m => ?_, fun k cs s => ?_, fun k cs s => ?_, fun s => ?_,
    fun i o pl s => ⟨rfl, rfl⟩, fun kind i o detail cause s => ?_, fun i s => ?_⟩
  · intro kitchen departure now
    refine ⟨trial_off, trial_soon, fun pl placed => ?_, fun on late => ?_⟩
    · obtain ⟨on, late⟩ := trial_ok placed
      obtain ⟨rfl, departs, ts, contribs, short, taken⟩ := trial_taken placed
      have late' : now + 1 ≤ departure - 1 := late
      have low : s.kplBucket < (departure - 1).toNat := by
        have : (s.kplBucket : Int) + 1 ≤ departure - 1 := late
        omega
      have departs' : pl.departure = departure.toNat := departs
      have dep : (pl.departure : Int) = departure := by
        have : (0 : Int) ≤ s.kplBucket := Int.natCast_nonneg _
        have : (s.kplBucket : Int) + 1 ≤ departure - 1 := late
        omega
      obtain ⟨rest, split⟩ := taken.front
      have descend := openBuckets_descend (s := s) (k := pl.kitchen) (departure - 1).toNat
      have order : ts.Pairwise (fun x y => y.1 < x.1) :=
        List.pairwise_map.mp (List.Pairwise.sublist taken.front.sublist descend)
      have inside : ∀ x ∈ ts, s.load pl.kitchen x.1 < kitchen.capb ∧ s.kplBucket < x.1 ∧ x.1 ≤ (departure - 1).toNat ∧
          (departure - 1).toNat < x.1 + kitchen.lead := fun x mem =>
        (mem_openBuckets low).mp (taken.front.mem (List.mem_map_of_mem mem))
      have members : ∀ x, x ∈ pl.contribs ↔ x ∈ ts := fun x => by rw [contribs, List.mem_reverse]
      refine ⟨on, rfl, dep, by rw [contribs, List.length_reverse]; exact short, ?_, ?_, fun x mem => ?_, ?_, fun x mem b above below empty => ?_⟩
      · rw [contribs, List.map_reverse, List.sum_reverse]
        exact taken.units
      · rw [contribs, List.pairwise_reverse]
        exact order
      · rw [members] at mem
        obtain ⟨some_units, within⟩ := taken.within x mem
        obtain ⟨empty, after, before, near⟩ := inside x mem
        have capacity : x.2 ≤ kitchen.capb - s.load pl.kitchen x.1 := within
        have : now = (s.kplBucket : Int) := rfl
        refine ⟨some_units, by omega, by omega, by omega, by omega⟩
      · have whole := List.Pairwise.forall_of_forall_of_flip (R := fun x y : Nat × Nat => x.1 < y.1 → y.2 = kitchen.capb - s.load pl.kitchen y.1)
          (fun x _ less => absurd less (Nat.lt_irrefl _)) (order.imp fun below above => absurd below (Nat.lt_asymm above))
          (List.Pairwise.imp (S := flip fun x y : Nat × Nat => x.1 < y.1 → y.2 = kitchen.capb - s.load pl.kitchen y.1) (fun all _ => all) taken.whole)
        intro x memx y memy less
        rw [members] at memx memy
        have all := whole memx memy less
        have := (inside y memy).1
        omega
      · rw [members] at mem
        obtain ⟨-, after, before, near⟩ := inside x mem
        have open_ : b ∈ openBuckets s pl.kitchen (departure - 1).toNat :=
          (mem_openBuckets low).mpr ⟨empty, by omega, by omega, by
            have : (s.kpl.kitchens[pl.kitchen]).lead = kitchen.lead := rfl
            omega⟩
        have taken_first : b ∈ ts.map Prod.fst := by
          rw [show openBuckets s pl.kitchen (departure - 1).toNat = ts.map Prod.fst ++ rest from split.symm] at open_ descend
          rcases List.mem_append.mp open_ with first | later
          · exact first
          · exact absurd ((List.pairwise_append.mp descend).2.2 x.1 (List.mem_map_of_mem mem) b later) (Nat.lt_asymm above)
        rw [contribs, List.map_reverse, List.mem_reverse]
        exact taken_first
    · intro last open_ room4
      exact ⟨trial_succeeds on late, trial_full on late⟩
  · intro first
    have first_eq : first = firstTrial s room kreq units m := by
      unfold firstTrial
      show (match kreq, (s.roomRec room).k1 with
        | .kitchen k, _ => trial s room units m k
        | .primary, some k => trial s room units m k
        | .primary, none => .error .kitchenFull) = _
      cases kreq with
      | kitchen k => rfl
      | primary => cases (s.roomRec room).k1 <;> rfl
    rw [placement_eq, ← first_eq]
    refine ⟨fun pl ok => by rw [ok]; rfl, fun c failed none_else => ?_, fun c k failed allowed second => ?_⟩
    · rw [failed]
      rcases none_else with no | no
      · rw [no]
        rfl
      · rw [no]
        cases fallback <;> rfl
    · rw [failed, allowed, second]
      rfl
  · intro t
    obtain ⟨maps, run⟩ := addLoads_eq (some k) cs s
    refine ⟨fun b low high => addLoads_load k cs s (by rw [mapIx_inside low high]; rfl), fun k' b other => addLoads_load_other other cs s b, ?_, by simp [t]⟩
    rw [show t = _ from run]
    rfl
  · intro t
    obtain ⟨maps, run⟩ := withdrawLoads_eq (some k) cs s
    refine ⟨fun b => withdrawLoads_load k cs s b, fun k' b other => withdrawLoads_load_other other cs s b, ?_, by simp [t], rfl, rfl⟩
    rw [show t = _ from run]
    rfl
  · refine ⟨?_, fun i => ?_, fun id o => resolveOrder_eq_some, fun day m => decide_eq_true_iff⟩
    · rw [State.freeOrder, firstIx_eq_none_iff]
      simp [State.orderRec]
    · rw [State.freeOrder, firstIx_eq_some_iff]
      simp [State.orderRec]
  · exact ⟨rfl, fun none_ => by rw [kitchenDetail, none_]; rfl, fun k some_ => by rw [kitchenDetail, some_]; rfl⟩
  · intro o t
    obtain ⟨maps, run⟩ := withdrawLoads_eq o.kitchen o.contribs s
    have freed : t = handOrderInd o.room (setOrder i (OrderRec.blank (o.gen + 1)) (leaveDeferred i (s.setKpl { s.kpl with maps := maps }))) := by
      rw [← run]
      exact freeOrderRec_eq
    refine ⟨freeOrderRec_same, fun j => freeOrderRec_other, by rw [freed]; rfl, by rw [freed]; rfl, fun nothing => ?_, fun k kitchen => ⟨fun b => ?_, fun k' b other => ?_⟩,
      by rw [freed]; rfl, by simp [t]⟩
    · have maps_eq : t.kpl.maps = (withdrawLoads o.kitchen o.contribs s).kpl.maps := rfl
      rw [maps_eq, withdrawLoads_nothing nothing]
    · have load := freeOrderRec_load (s := s) (i := i) k b
      rw [show (s.orderRec i).kitchen = some k from kitchen, withdrawLoads_load] at load
      exact load
    · have load := freeOrderRec_load (s := s) (i := i) k' b
      rw [show (s.orderRec i).kitchen = some k from kitchen, withdrawLoads_load_other other] at load
      exact load

end Sys2Proof.Machine

/-! PROOFS. The kitchen planner's requests about one order (07 R150 to R152). -/

namespace Sys2Proof.Machine

open Host

section
variable {p : Port} {h : HandedRequest} {rest : List HandedRequest} {s : State} {id : OrderId} (asks : s.asks p h rest)
include asks

theorem exec_orderRetry_of_asks (req : h.req = .orderRetry id) :
    exec (.orderRetry p) s = .next (orderRetryWork (h.asker p) id (s.took p rest)) := exec_of_asks rfl asks (by rw [req])

theorem exec_orderCancel_of_asks (req : h.req = .orderCancel id) :
    exec (.orderCancel p) s = .next (orderCancelWork (h.asker p) id (s.took p rest)) := exec_of_asks rfl asks (by rw [req])

theorem exec_markDelivered_of_asks (req : h.req = .markDelivered id) :
    exec (.markDelivered p) s = .next (markDeliveredWork (h.asker p) id (s.took p rest)) := exec_of_asks rfl asks (by rw [req])

end

section
variable {q : Asker} {s : State} {id : OrderId} {o : OrderRec}

theorem foreignGateway_iff : foreignGateway q o = true ↔ ¬(q.role ≠ .gateway ∨ o.owner = q.port) := by
  simp [foreignGateway]

/-! ## ORDER_RETRY (R150) -/

theorem orderRetryWork_unset (unset : s.clockSet .kpl = false) : orderRetryWork q id s = reply q .clockUnset [] s :=
  if_pos (by simp [unset])

theorem orderRetryWork_stale (set : s.clockSet .kpl = true) (stale : resolveOrder id s = none) :
    orderRetryWork q id s = reply q .unknown [] s :=
  (if_neg (by simp [set])).trans (onOrder_stale stale)

variable (set : s.clockSet .kpl = true) (named : resolveOrder id s = some o)
include set named

theorem orderRetryWork_named : orderRetryWork q id s =
    if foreignGateway q o then reply q .denied [] s
    else if o.state ≠ .unplaced then reply q .badState [] s
    else match placement s o.room o.kreq o.fallback o.units o.delivery with
      | .ok pl => reply q .ok (e1 pl.kitchen.val) (handOrderInd o.room
          (orderNotice .orderPlaced id.index (o.placed pl) (placedDetail (o.placed pl)) (some q.port) (writePlaced id.index o pl s)))
      | .error c => reply q c [] s :=
  (if_neg (by simp [set])).trans (onOrder_named named)

theorem orderRetryWork_denied (foreign : foreignGateway q o = true) : orderRetryWork q id s = reply q .denied [] s := by
  rw [orderRetryWork_named set named, if_pos foreign]

theorem orderRetryWork_badState (own : foreignGateway q o = false) (other : o.state ≠ .unplaced) :
    orderRetryWork q id s = reply q .badState [] s := by
  rw [orderRetryWork_named set named, if_neg (by simp [own]), if_pos other]

theorem orderRetryWork_failed {c : Code} (own : foreignGateway q o = false) (unplaced : o.state = .unplaced)
    (failed : placement s o.room o.kreq o.fallback o.units o.delivery = .error c) : orderRetryWork q id s = reply q c [] s := by
  rw [orderRetryWork_named set named, if_neg (by simp [own]), if_neg (not_not.mpr unplaced), failed]

theorem orderRetryWork_placed {pl : Placing} (own : foreignGateway q o = false) (unplaced : o.state = .unplaced)
    (placed : placement s o.room o.kreq o.fallback o.units o.delivery = .ok pl) : orderRetryWork q id s =
      reply q .ok (e1 pl.kitchen.val) (handOrderInd o.room
        (orderNotice .orderPlaced id.index (o.placed pl) (placedDetail (o.placed pl)) (some q.port) (writePlaced id.index o pl s))) := by
  rw [orderRetryWork_named set named, if_neg (by simp [own]), if_neg (not_not.mpr unplaced), placed]

end

section
variable {q : Asker} {s : State} {id : OrderId} {o : OrderRec}

/-- An order that is not yet committed. -/
def OrderRec.early (o : OrderRec) : Prop := o.state = .deferred ∨ o.state = .placed ∨ o.state = .unplaced

theorem not_early_iff : ¬o.early ↔ o.state = .committed ∨ o.state = .due := by
  unfold OrderRec.early
  cases o.state <;> simp

/-! ## ORDER_CANCEL and MARK_DELIVERED (R151, R152) -/

theorem orderCancelWork_stale (stale : resolveOrder id s = none) : orderCancelWork q id s = reply q .unknown [] s := onOrder_stale stale

theorem markDeliveredWork_stale (stale : resolveOrder id s = none) : markDeliveredWork q id s = reply q .unknown [] s := onOrder_stale stale

variable (named : resolveOrder id s = some o)
include named

theorem orderCancelWork_denied (foreign : foreignGateway q o = true) : orderCancelWork q id s = reply q .denied [] s :=
  (onOrder_named named).trans (if_pos foreign)

theorem orderCancelWork_committed (own : foreignGateway q o = false) (late : ¬o.early) :
    orderCancelWork q id s = reply q .cateringCommitted [] s := by
  refine (onOrder_named named).trans ((if_neg (by simp [own])).trans ?_)
  rcases not_early_iff.mp late with state | state <;> rw [state]

theorem orderCancelWork_early (own : foreignGateway q o = false) (early : o.early) : orderCancelWork q id s =
    reply q .ok [] (tellEnded id o false (freeOrderWith id.index .orderCancelled 0 (some q.port) s)) := by
  refine (onOrder_named named).trans ((if_neg (by simp [own])).trans ?_)
  rcases early with state | state | state <;> rw [state]

theorem markDeliveredWork_early (early : o.early) : markDeliveredWork q id s = reply q .badState [] s := by
  refine (onOrder_named named).trans ?_
  rcases early with state | state | state <;> rw [state]

theorem markDeliveredWork_late (late : ¬o.early) : markDeliveredWork q id s = reply q .ok [] (tellEnded id o true (freeOrderRec id.index s)) := by
  refine (onOrder_named named).trans ?_
  rcases not_early_iff.mp late with state | state <;> rw [state]

theorem orderRec_of_named : s.orderRec id.index = o := (resolveOrder_eq_some.mp named).1.symm

end

/-- Settles O51: each request by the clock, the handle, the owner and the state of the order. -/
theorem orderRequests : Obligations.OrderRequests := by
  unfold Obligations.OrderRequests
  refine ⟨fun p h rest s id asks => ⟨fun req unset => ?_, fun stale => ⟨fun req set => ?_, fun req => ?_, fun req => ?_⟩⟩, fun p h rest s id o asks named => ?_⟩
  · rw [exec_orderRetry_of_asks asks req, orderRetryWork_unset (s := s.took p rest) unset, reply_took]
  · rw [exec_orderRetry_of_asks asks req, orderRetryWork_stale (s := s.took p rest) set stale, reply_took]
  · rw [exec_orderCancel_of_asks asks req, orderCancelWork_stale (s := s.took p rest) stale, reply_took]
  · rw [exec_markDelivered_of_asks asks req, markDeliveredWork_stale (s := s.took p rest) stale, reply_took]
  · intro u mine early told
    have told_eq (delivered : Bool) (t : State) : tellEnded id o delivered t = told delivered t := rfl
    have here : resolveOrder id u = some o := named
    have record : u.orderRec id.index = o := orderRec_of_named here
    have foreign : ¬mine → foreignGateway (h.asker p) o = true := (foreignGateway_iff (q := h.asker p) (o := o)).mpr
    have own : mine → foreignGateway (h.asker p) o = false := fun m =>
      (Bool.not_eq_true _).mp fun f => (foreignGateway_iff (q := h.asker p) (o := o)).mp f m
    refine ⟨fun req set => ⟨fun no => ?_, fun yes other => ?_, fun c yes unplaced failed => ?_, fun pl yes unplaced placed => ?_⟩,
      fun req => ⟨fun no => ?_, fun yes late => ?_, fun yes is_early => ?_⟩, fun req => ⟨fun is_early => ?_, fun late => ?_⟩⟩
    · rw [exec_orderRetry_of_asks asks req, orderRetryWork_denied (s := u) set here (foreign no), reply_took]
    · rw [exec_orderRetry_of_asks asks req, orderRetryWork_badState (s := u) set here (own yes) other, reply_took]
    · rw [exec_orderRetry_of_asks asks req, orderRetryWork_failed (s := u) set here (own yes) unplaced failed, reply_took]
    · rw [exec_orderRetry_of_asks asks req, orderRetryWork_placed (s := u) set here (own yes) unplaced placed]
      rfl
    · rw [exec_orderCancel_of_asks asks req, orderCancelWork_denied (s := u) here (foreign no), reply_took]
    · rw [exec_orderCancel_of_asks asks req, orderCancelWork_committed (s := u) here (own yes) late, reply_took]
    · rw [exec_orderCancel_of_asks asks req, orderCancelWork_early (s := u) here (own yes) is_early, told_eq, freeOrderWith, record]
      rfl
    · rw [exec_markDelivered_of_asks asks req, markDeliveredWork_early (s := u) here is_early, reply_took]
    · rw [exec_markDelivered_of_asks asks req, markDeliveredWork_late (s := u) here late, told_eq]
      rfl

end Sys2Proof.Machine

/-! PROOFS. The kitchen planner's boundaries and rollover, and the deadlines of one order (07 R137 to R139, R149). -/

namespace Sys2Proof.Machine

open Host

section
variable {s : State} {i : OrderIx} {c : Nat}

/-! ## The deadlines of one order (R137, R138) -/

theorem liveOrders_eq : liveOrders s = (List.finRange 512).filter (fun i => (s.orderRec i).live) := ixsWhere_eq _ _

theorem commitOn_reached (live : (s.orderRec i).live = true) (placed : (s.orderRec i).state = .placed)
    (reached : ∃ x ∈ (s.orderRec i).contribs, x.1 ≤ c) : commitOn c i s = commit i s :=
  if_pos (by simpa [live, placed] using reached)

theorem commitOn_waits (waits : (s.orderRec i).state ≠ .placed ∨ ∀ x ∈ (s.orderRec i).contribs, c < x.1) : commitOn c i s = s := by
  refine if_neg ?_
  rcases waits with other | ahead
  · simp [other]
  · have none_reached : (s.orderRec i).contribs.any (fun x => x.1 ≤ c) = false := by simpa using ahead
    rw [none_reached, Bool.and_false]
    exact Bool.false_ne_true

theorem dispatchOn_reached {d : Nat} (live : (s.orderRec i).live = true) (committed : (s.orderRec i).state = .committed)
    (departs : (s.orderRec i).departure = some d) (reached : d ≤ c) : dispatchOn c i s = dispatch i s :=
  if_pos (by simp [live, committed, departs, reached])

theorem dispatchOn_waits (waits : (s.orderRec i).state ≠ .committed ∨ ∀ d, (s.orderRec i).departure = some d → c < d) :
    dispatchOn c i s = s := by
  refine if_neg ?_
  rcases waits with other | ahead
  · simp [other]
  · cases departs : (s.orderRec i).departure with
    | none => simp
    | some d => simp [ahead d departs]

theorem lateNow_iff {minute : Nat} {o : OrderRec} {k : Kitchen} (kitchen : o.kitchen = some k) : lateNow s minute o = true ↔
    o.live = true ∧ (o.state = .committed ∨ o.state = .due) ∧ o.late = false ∧
      o.delivery + ((s.kpl.boundaryMargins[k] * 5 : Nat) : Int) ≤ (minute : Int) := by
  unfold lateNow
  rw [kitchen]
  simp only [Bool.and_eq_true, Bool.or_eq_true, Bool.not_eq_true', decide_eq_true_iff, Option.any_some, and_assoc]

theorem exec_orderCommit_at (boundary : (s.now .kpl).minute % 15 = 0) : exec (.orderCommit i) s = .next (commitOn s.kplBucket i s) :=
  congrArg Outcome.next (if_pos (by simpa [Clock.isBucketBoundary] using boundary))

theorem exec_orderDispatch_at (boundary : (s.now .kpl).minute % 15 = 0) : exec (.orderDispatch i) s = .next (dispatchOn s.kplBucket i s) :=
  congrArg Outcome.next (if_pos (by simpa [Clock.isBucketBoundary] using boundary))

theorem exec_lateMarking_at (boundary : (s.now .kpl).minute % 5 = 0) :
    exec (.lateMarking i) s = .next (lateOn (s.now .kpl).minutes i s) :=
  congrArg Outcome.next (if_pos (by simpa [Clock.isSlotBoundary] using boundary))

/-! ## Contributions passed (R137) -/

theorem unitsAt_filter (p : Nat → Bool) (cs : List (Nat × Nat)) (b : Nat) :
    unitsAt (cs.filter (fun x => p x.1)) b = if p b then unitsAt cs b else 0 := by
  unfold unitsAt
  rw [List.filter_filter]
  by_cases holds : p b = true
  · rw [if_pos holds]
    congr 2
    refine List.filter_congr fun x _ => ?_
    by_cases same : x.1 = b
    · simp [same, holds]
    · simp [same]
  · rw [if_neg holds, List.filter_eq_nil_iff.mpr]
    · rfl
    · intro x _ both
      rw [Bool.and_eq_true, decide_eq_true_iff] at both
      exact holds (both.1 ▸ both.2)

theorem dropPassed_orderRec : (dropPassed c i s).orderRec i =
    { s.orderRec i with contribs := (s.orderRec i).contribs.filter (fun x => decide (c ≤ x.1)) } := setOrder_orderRec_same _

theorem dropPassed_load {k : Kitchen} (kitchen : (s.orderRec i).kitchen = some k) (b : Nat) : (dropPassed c i s).load k b =
    if b < c then s.load k b - unitsAt (s.orderRec i).contribs b else s.load k b := by
  unfold dropPassed
  dsimp only
  rw [setOrder_load, kitchen, withdrawLoads_load, unitsAt_filter (fun x => decide (x < c))]
  by_cases passed : b < c
  · rw [if_pos (by simpa using passed), if_pos passed]
  · rw [if_neg (by simpa using passed), if_neg passed, Nat.sub_zero]

/-! ## The maps shifted (R139) -/

theorem shiftMap_early (m : Vector Nat 192) (i : Fin 96) :
    (shiftMap m)[i.castLE (by omega : 96 ≤ 192)] = m[(⟨i.val + 96, by omega⟩ : Fin 192)] := by
  simp [shiftMap, Nat.add_comm]

theorem shiftMap_late (m : Vector Nat 192) (i : Fin 96) : (shiftMap m)[(⟨i.val + 96, by omega⟩ : Fin 192)] = 0 := by
  have at_ : (shiftMap m)[(⟨i.val + 96, by omega⟩ : Fin 192)] =
      (m.toList.drop 96 ++ List.replicate 96 0)[i.val + 96]'(by rw [List.length_append, List.length_replicate, List.length_drop, Vector.length_toList]; omega) := rfl
  rw [at_, List.getElem_append_right (by rw [List.length_drop, Vector.length_toList]; omega), List.getElem_replicate]

/-! ## A deferred order that falls due (R149) -/

theorem leaveDeferred_writePlaced (i : OrderIx) (o : OrderRec) (pl : Placing) (s : State) : leaveDeferred i (writePlaced i o pl s) =
    (writePlaced i o pl s).setKpl { (writePlaced i o pl s).kpl with deferred := s.kpl.deferred.filter (fun j => j != i) } := by
  have same : (writePlaced i o pl s).kpl.deferred = s.kpl.deferred := by
    obtain ⟨maps, run⟩ := addLoads_eq (some pl.kitchen) pl.contribs (setOrder i (o.placed pl) s)
    rw [writePlaced, run]
    rfl
  rw [leaveDeferred, same]

theorem plannerTick_eq (c : Clock) (s : State) : plannerTick c s =
    (let v := if c.minute = 0 then plannerRollover c.day s else s
     let w := if c.minute % 15 = 0 then bucketBoundary c.bucket v else v
     if c.minute % 5 = 0 then (liveOrders w).foldl (fun t i => lateOn c.minutes i t) (takeMargins w) else w) := by
  simp only [plannerTick, Clock.isRollover, Clock.isBucketBoundary, Clock.isSlotBoundary, decide_eq_true_iff]

end

/-- Settles O52: the tick by its boundaries, each deadline by the order's state and time, and the rollover by its steps. -/
theorem plannerTakesATick : Obligations.PlannerTakesATick := by
  unfold Obligations.PlannerTakesATick
  refine ⟨fun s c head => ?_, fun s => liveOrders_eq, fun i s live => ?_, fun s day => ?_, fun s i => ?_⟩
  · intro u v committed dispatched dropped w margins x
    have work : plannerTick c u = x := plannerTick_eq c u
    have tick : exec .plannerTick s = .next (settleTime (plannerTick c u)) := exec_of_tick rfl head rfl
    refine ⟨by rw [tick, work], fun midnight => ?_⟩
    have rollover : exec .plannerRollover s = .next (settleTime (plannerTick c u)) :=
      exec_of_tick rfl head (by simpa [Clock.isRollover] using midnight)
    rw [rollover, work]
  · intro o minute written
    refine ⟨fun boundary => ?_, fun boundary k kitchen => ?_, fun c => ?_⟩
    · rw [exec_orderCommit_at boundary, exec_orderDispatch_at boundary]
      refine ⟨fun placed reached => ?_, fun waits => ?_, fun d state departs reached => ?_, fun d departs waits => ?_⟩
      · rw [commitOn_reached live placed reached]
        rfl
      · rw [commitOn_waits waits]
      · rw [dispatchOn_reached live state departs reached]
        rfl
      · rw [dispatchOn_waits (waits.imp_right fun ahead e same => by rw [Option.some.inj (same.symm.trans departs)]; exact ahead)]
    · rw [exec_lateMarking_at boundary]
      have late_iff := lateNow_iff (s := s) (minute := (s.now .kpl).minutes) kitchen
      refine ⟨fun state timely reached => ?_, fun no => ?_⟩
      · rw [lateOn, if_pos (late_iff.mpr ⟨live, state, timely, reached⟩)]
        rfl
      · have not_late : ¬lateNow s (s.now .kpl).minutes (s.orderRec i) = true := by
          rw [late_iff]
          rintro ⟨-, state, timely, reached⟩
          rcases no with was | ahead | ⟨not_committed, not_due⟩
          · exact absurd (timely.symm.trans was) Bool.false_ne_true
          · exact absurd reached (Int.not_le.mpr ahead)
          · exact state.elim not_committed not_due
        rw [lateOn, if_neg not_late]
    · exact ⟨dropPassed_orderRec, fun k kitchen b => dropPassed_load kitchen b⟩
  · intro t
    have maps (k : Kitchen) : t.kpl.maps[k] = shiftMap s.kpl.maps[k] := mapV_get _ _ _
    refine ⟨fun k i => by rw [maps]; exact ⟨shiftMap_early _ i, shiftMap_late _ i⟩, fun i => mapV_get _ _ _, ?_⟩
    intro a b c stale
    have stale_eq : stale = ixsWhere (fun o => o.live && o.orphaned && dueBefore day o.delivery) c.kpl.orders := by
      rw [ixsWhere_eq]
      refine List.filter_congr fun i _ => ?_
      rw [Bool.eq_iff_iff, decide_eq_true_iff, Bool.and_eq_true, Bool.and_eq_true, and_assoc]
      exact and_congr_right fun _ => and_congr_right fun _ => decide_eq_true_iff.symm
    rw [stale_eq]
    rfl
  · intro o gone
    refine ⟨fun pl placed => ?_, fun code failed => ?_⟩
    · intro x
      unfold placeDeferred
      dsimp only
      rw [show placement s (s.orderRec i).room (s.orderRec i).kreq (s.orderRec i).fallback (s.orderRec i).units (s.orderRec i).delivery = .ok pl from placed]
      dsimp only
      rw [leaveDeferred_writePlaced]
      rfl
    · intro x
      unfold placeDeferred
      dsimp only
      rw [show placement s (s.orderRec i).room (s.orderRec i).kreq (s.orderRec i).fallback (s.orderRec i).units (s.orderRec i).delivery = .error code from failed]
      rfl

end Sys2Proof.Machine

/-! PROOFS. The book–planner path: a message of the book taken, and an order made at an attach (07 R147, R149). -/

namespace Sys2Proof.Machine

open Host

/-! ## A message of the book taken -/

/-- A command that takes the book's message at the head of the lane, with such a message there. -/
theorem exec_of_bookMsg {α : Type} {c : Instr} {s : State} {m : BookMsg} {a : α} {sel : BookMsg → Option α} {work : α → State → State}
    (is : exec c s = .next (takeBookMsg sel work s)) (head : s.wires.toPlanner.head? = some m) (chosen : sel m = some a) :
    exec c s = .next (if s.kpl.frozen then s.setWires { s.wires with toPlanner := s.wires.toPlanner.tail }
      else work a (s.setWires { s.wires with toPlanner := s.wires.toPlanner.tail })) := by
  rw [is, takeBookMsg, head, Option.bind_some, chosen]
  rfl

/-! ## The parameters of an order -/

theorem classOf_eq_some {n : Nat} {c : MealClass} : classOf n = some c ↔ c.toNat = n := by
  match n with
  | 0 => cases c <;> simp [classOf, MealClass.toNat]
  | 1 => cases c <;> simp [classOf, MealClass.toNat]
  | 2 => cases c <;> simp [classOf, MealClass.toNat]
  | n + 3 => cases c <;> simp [classOf, MealClass.toNat]

theorem classOf_eq_none {n : Nat} : classOf n = none ↔ 2 < n := by
  match n with
  | 0 => simp [classOf]
  | 1 => simp [classOf]
  | 2 => simp [classOf]
  | n + 3 => simp [classOf]

theorem kreqOf_eq_none {n : Nat} : kreqOf n = none ↔ 4 < n := by
  cases n with
  | zero => simp [kreqOf]
  | succ n =>
    simp only [kreqOf, Option.map_eq_none_iff, kitchenOf]
    split <;> simp <;> omega

theorem kreqOf_toNat {n : Nat} {k : KReq} (carried : kreqOf n = some k) : k.toNat = n := by
  cases n with
  | zero =>
    cases carried
    rfl
  | succ n =>
    simp only [kreqOf, kitchenOf] at carried
    split at carried
    · cases carried
      rfl
    · cases carried

section
variable {q : OrderParam}

theorem OrderParam.judge_eq : q.judge = (classOf q.cls).bind fun cls => (kreqOf q.kreq).bind fun kreq =>
    if q.covers = 0 ∨ 200 < q.covers ∨ q.offset < -6 ∨ 90 < q.offset ∨ 1 < q.fallback then none
    else some { covers := q.covers, cls := cls, kreq := kreq, offset := q.offset, fallback := q.fallback = 1 } := rfl

theorem OrderParam.judge_eq_none : q.judge = none ↔
    q.covers = 0 ∨ 200 < q.covers ∨ 2 < q.cls ∨ 4 < q.kreq ∨ q.offset < -6 ∨ 90 < q.offset ∨ 1 < q.fallback := by
  rw [OrderParam.judge_eq]
  cases cls : classOf q.cls with
  | none =>
    have := classOf_eq_none.mp cls
    simp [this]
  | some c =>
    have in_cls : ¬2 < q.cls := fun bad => by
      rw [classOf_eq_none.mpr bad] at cls
      cases cls
    cases kreq : kreqOf q.kreq with
    | none =>
      have := kreqOf_eq_none.mp kreq
      simp [this]
    | some k =>
      have in_kreq : ¬4 < q.kreq := fun bad => by
        rw [kreqOf_eq_none.mpr bad] at kreq
        cases kreq
      rw [Option.bind_some, Option.bind_some]
      simp only [in_cls, in_kreq, false_or]
      split
      · next bad => exact iff_of_true rfl bad
      · next fine => exact iff_of_false (fun h => Option.some_ne_none _ h) fine

theorem OrderParam.judge_eq_some {k : OrderAsk} (judged : q.judge = some k) : k.covers = q.covers ∧ k.cls.toNat = q.cls ∧
    k.kreq.toNat = q.kreq ∧ k.offset = q.offset ∧ (k.fallback = true ↔ q.fallback = 1) := by
  rw [OrderParam.judge_eq, Option.bind_eq_some_iff] at judged
  obtain ⟨cls, is_cls, judged⟩ := judged
  obtain ⟨kreq, is_kreq, judged⟩ := Option.bind_eq_some_iff.mp judged
  split at judged
  · cases judged
  · cases judged
    exact ⟨rfl, classOf_eq_some.mp is_cls, kreqOf_toNat is_kreq, rfl, decide_eq_true_iff⟩

end

/-! ## The deferred list (R149) -/

/-- Whether an order stands before another on the deferred list. -/
def DeferredBefore (s : State) (a b : OrderIx) : Prop :=
  (s.orderRec a).delivery < (s.orderRec b).delivery ∨ ((s.orderRec a).delivery = (s.orderRec b).delivery ∧ a < b)

section
variable {s : State}

theorem DeferredBefore.trans {a b c : OrderIx} (first : DeferredBefore s a b) (second : DeferredBefore s b c) : DeferredBefore s a c := by
  rcases first with earlier | ⟨same, below⟩ <;> rcases second with later | ⟨too, under⟩
  · exact .inl (earlier.trans later)
  · exact .inl (too ▸ earlier)
  · exact .inl (same ▸ later)
  · exact .inr ⟨same.trans too, below.trans under⟩

theorem deferredBefore_total {a b : OrderIx} (differ : a ≠ b) (no : ¬DeferredBefore s a b) : DeferredBefore s b a := by
  obtain ⟨not_earlier, not_below⟩ := not_or.mp no
  rcases Int.lt_or_eq_of_le (Int.not_lt.mp not_earlier) with later | same
  · exact .inl later
  · exact .inr ⟨same, (lt_or_gt_of_ne differ).resolve_left fun below => not_below ⟨same.symm, below⟩⟩

theorem insertDeferred_cons (i j : OrderIx) (js : List OrderIx) : insertDeferred s i (j :: js) =
    if (s.orderRec i).delivery < (s.orderRec j).delivery ∨ ((s.orderRec i).delivery = (s.orderRec j).delivery ∧ i.val < j.val) then i :: j :: js
    else j :: insertDeferred s i js := rfl

theorem insertDeferred_perm (i : OrderIx) (js : List OrderIx) : (insertDeferred s i js).Perm (i :: js) := by
  induction js with
  | nil => exact .refl _
  | cons j js ih =>
    rw [insertDeferred_cons]
    split
    · exact .refl _
    · exact (ih.cons j).trans (.swap i j js)

theorem insertDeferred_ordered {i : OrderIx} {js : List OrderIx} (new : i ∉ js) (ordered : js.Pairwise (DeferredBefore s)) :
    (insertDeferred s i js).Pairwise (DeferredBefore s) := by
  induction js with
  | nil => exact List.pairwise_singleton _ _
  | cons j js ih =>
    obtain ⟨first, rest⟩ := List.pairwise_cons.mp ordered
    obtain ⟨differ, later⟩ := List.ne_and_not_mem_of_not_mem_cons new
    rw [insertDeferred_cons]
    split
    · next before =>
      refine List.pairwise_cons.mpr ⟨fun x mem => ?_, ordered⟩
      rcases List.mem_cons.mp mem with rfl | mem
      · exact before
      · exact DeferredBefore.trans before (first x mem)
    · next after =>
      refine List.pairwise_cons.mpr ⟨fun x mem => ?_, ih later rest⟩
      rcases List.mem_cons.mp ((insertDeferred_perm i js).mem_iff.mp mem) with rfl | mem
      · exact deferredBefore_total differ after
      · exact first x mem

end

/-! ## An order created (R147) -/

section
variable {s t : State} {i : OrderIx} {o x : OrderRec} {pl : Placing}

theorem joinDeferred_orderRec : (joinDeferred i t).orderRec = t.orderRec := rfl

theorem joinDeferred_eq :
    joinDeferred i t = t.setKpl { t.kpl with deferred := insertDeferred t i (t.kpl.deferred.filter fun j => j != i) } := rfl

theorem joinDeferred_ordered (ordered : (t.kpl.deferred.filter fun j => j != i).Pairwise (DeferredBefore t)) :
    (joinDeferred i t).kpl.deferred.Pairwise (DeferredBefore t) :=
  insertDeferred_ordered (by simp) ordered

theorem leaveDeferred_orderRec : (leaveDeferred i t).orderRec = t.orderRec := rfl

theorem writePlaced_orderRec : (writePlaced i o pl s).orderRec i = o.placed pl := by
  rw [writePlaced, addLoads_orderRec, setOrder_orderRec_same]

/-- What an order created for an attach hands: its notice, its indication and the book's answer. -/
theorem orderCreated_eq {n : Nat} {b : BookingId} (record : t.orderRec i = x) (booking : x.booking = some b) :
    orderCreated n i t = handBook (.attachOk n b ⟨i, x.gen⟩)
      (handOrderInd x.room (orderNotice .orderPlaced i x (detail2 x.state.toNat (kitchenDetail x)) (some x.owner) t)) := by
  subst record
  unfold orderCreated
  dsimp only
  rw [booking]
  rfl

section
variable {a : AttachArg}

theorem attachWork_unset (unset : s.clockSet .kpl = false) : attachWork a s = handBook (.attachFailed a.serial a.id .clockUnset) s :=
  if_pos (by simp [unset])

variable (set : s.clockSet .kpl = true)
include set

theorem attachWork_bad (bad : a.prm.judge = none) : attachWork a s = handBook (.attachFailed a.serial a.id .badParam) s := by
  refine (if_neg (by simp [set])).trans ?_
  rw [bad]

variable {k : OrderAsk} (judged : a.prm.judge = some k)
include judged

theorem attachWork_judged : attachWork a s =
    if ((a.stop * 5 : Nat) : Int) ≤ deliveryOf a.start k.offset then handBook (.attachFailed a.serial a.id .badParam) s
    else s.freeOrder.elim (handBook (.attachFailed a.serial a.id .ordersFull) s) fun i =>
      if farAhead s (deliveryOf a.start k.offset) then
        orderCreated a.serial i (joinDeferred i (setOrder i (newOrder (s.orderRec i).gen a k (deliveryOf a.start k.offset)) s))
      else
        match placement s a.room k.kreq k.fallback (k.covers * k.cls.weight) (deliveryOf a.start k.offset) with
        | .ok pl => orderCreated a.serial i (writePlaced i (newOrder (s.orderRec i).gen a k (deliveryOf a.start k.offset)) pl s)
        | .error c => handBook (.attachFailed a.serial a.id c) s := by
  refine (if_neg (by simp [set])).trans ?_
  rw [judged]
  dsimp only
  split
  · rfl
  · cases s.freeOrder <;> rfl

theorem attachWork_past (past : ((a.stop * 5 : Nat) : Int) ≤ deliveryOf a.start k.offset) :
    attachWork a s = handBook (.attachFailed a.serial a.id .badParam) s := by
  rw [attachWork_judged set judged, if_pos past]

variable (inside : deliveryOf a.start k.offset < ((a.stop * 5 : Nat) : Int))
include inside

theorem attachWork_full (full : s.freeOrder = none) : attachWork a s = handBook (.attachFailed a.serial a.id .ordersFull) s := by
  rw [attachWork_judged set judged, if_neg (Int.not_le.mpr inside), full]
  rfl

variable (free : s.freeOrder = some i)
include free

theorem attachWork_far (far : dueBefore (s.kplDay + 2) (deliveryOf a.start k.offset) = false) : attachWork a s =
    orderCreated a.serial i (joinDeferred i (setOrder i (newOrder (s.orderRec i).gen a k (deliveryOf a.start k.offset)) s)) := by
  rw [attachWork_judged set judged, if_neg (Int.not_le.mpr inside), free]
  exact if_pos (by rw [farAhead, far]; rfl)

variable (near : dueBefore (s.kplDay + 2) (deliveryOf a.start k.offset) = true)
include near

theorem attachWork_placed
    (placed : placement s a.room k.kreq k.fallback (k.covers * k.cls.weight) (deliveryOf a.start k.offset) = .ok pl) :
    attachWork a s = orderCreated a.serial i (writePlaced i (newOrder (s.orderRec i).gen a k (deliveryOf a.start k.offset)) pl s) := by
  rw [attachWork_judged set judged, if_neg (Int.not_le.mpr inside), free]
  refine (if_neg (by rw [farAhead, near]; exact Bool.false_ne_true)).trans ?_
  rw [placed]

theorem attachWork_failed {c : Code}
    (failed : placement s a.room k.kreq k.fallback (k.covers * k.cls.weight) (deliveryOf a.start k.offset) = .error c) :
    attachWork a s = handBook (.attachFailed a.serial a.id c) s := by
  rw [attachWork_judged set judged, if_neg (Int.not_le.mpr inside), free]
  refine (if_neg (by rw [farAhead, near]; exact Bool.false_ne_true)).trans ?_
  rw [failed]

end

/-- ATTACH with the attach `a` at the head of the lane. -/
theorem exec_attach_of_head {a : AttachArg}
    (head : s.wires.toPlanner.head? = some (.attach a.serial a.id a.room a.start a.stop a.prm a.owner)) :
    exec .attach s = .next (if s.kpl.frozen then s.setWires { s.wires with toPlanner := s.wires.toPlanner.tail }
      else attachWork a (s.setWires { s.wires with toPlanner := s.wires.toPlanner.tail })) :=
  exec_of_bookMsg rfl head rfl

end

/-- Settles O53: the parameters by their ranges, the list by its order, and the attach by its checks in turn. -/
theorem attachCreatesAnOrder : Obligations.AttachCreatesAnOrder := by
  unfold Obligations.AttachCreatesAnOrder
  refine ⟨fun q => ⟨OrderParam.judge_eq_none, fun k => OrderParam.judge_eq_some⟩, ⟨rfl, rfl, rfl⟩, fun i s => ?_,
    fun s n id room start stop prm owner head frozen => ?_, fun s n id room start stop prm owner head awake => ?_⟩
  · intro t before
    exact ⟨joinDeferred_eq, insertDeferred_perm i _, joinDeferred_ordered⟩
  · rw [exec_attach_of_head (a := ⟨n, id, room, start, stop, prm, owner⟩) head, if_pos frozen]
  · intro u failed
    let a : AttachArg := ⟨n, id, room, start, stop, prm, owner⟩
    rw [exec_attach_of_head (a := a) head, if_neg (by simp [awake])]
    refine ⟨fun unset => ?_, fun set bad => ?_, fun k set judged => ?_⟩
    · rw [attachWork_unset (s := u) (a := a) unset]
    · rw [attachWork_bad (s := u) (a := a) set bad]
    · intro m
      refine ⟨fun past => ?_, fun inside full => ?_, fun i inside free => ?_⟩
      · rw [attachWork_past (s := u) (a := a) set judged past]
      · rw [attachWork_full (s := u) (a := a) set judged inside full]
      · intro o created
        refine ⟨fun far => ?_, fun pl near placed => ?_, fun c near not_placed => ?_⟩
        · rw [attachWork_far (s := u) (a := a) set judged inside free far,
            orderCreated_eq (x := o) (b := id) (by rw [joinDeferred_orderRec]; exact setOrder_orderRec_same _) rfl]
          rfl
        · intro x
          rw [attachWork_placed (s := u) (a := a) set judged inside free near placed]
          exact congrArg Outcome.next
            (orderCreated_eq (n := a.serial) (t := writePlaced i o pl u) (x := x) (b := id) writePlaced_orderRec rfl)
        · rw [attachWork_failed (s := u) (a := a) set judged inside free near not_placed]

end Sys2Proof.Machine

/-! PROOFS. The move of an order taken by the planner: its checks in turn, and the order re-placed by its state (07 R156, R160). -/

namespace Sys2Proof.Machine

open Host

section
variable {s : State} {i : OrderIx} {o : OrderRec} {m : Int}

/-! ## The order re-placed (R156) -/

/-- An order that keeps in MOVE_UNDO what it was. -/
def keepingUndo (s : State) (i : OrderIx) (o : OrderRec) : OrderRec := { o with undo := some (undoOf s i o) }

theorem rePlace_committed (state : o.state = .committed ∨ o.state = .due) : rePlace i o m s = none := by
  cases o
  rcases state with state | state <;> cases state <;> rfl

section
variable (state : o.state = .unplaced)
include state

theorem rePlace_unplaced_far (far : farAhead s m = true) : rePlace i o m s =
    some (handOrderInd o.room (joinDeferred i (setOrder i (((keepingUndo s i o).redelivered m).unplacedAs .deferred) s))) := by
  cases o
  cases state
  unfold rePlace
  exact if_pos far

theorem rePlace_unplaced_near (near : farAhead s m = false) : rePlace i o m s =
    some (setOrder i ((keepingUndo s i o).redelivered m) s) := by
  cases o
  cases state
  unfold rePlace
  exact if_neg (Bool.eq_false_iff.mp near)

end

section
variable (state : o.state = .deferred)
include state

theorem rePlace_deferred_far (far : farAhead s m = true) : rePlace i o m s =
    some (joinDeferred i (setOrder i ((keepingUndo s i o).redelivered m) s)) := by
  cases o
  cases state
  unfold rePlace
  exact if_pos far

variable (near : farAhead s m = false)
include near

theorem rePlace_deferred_placed {pl : Placing} (placed : placement s o.room o.kreq o.fallback o.units m = .ok pl) : rePlace i o m s =
    some (handOrderInd o.room (leaveDeferred i (writePlaced i ((keepingUndo s i o).redelivered m) pl s))) := by
  cases o
  cases state
  unfold rePlace
  refine (if_neg (Bool.eq_false_iff.mp near)).trans ?_
  dsimp only at placed ⊢
  rw [placed]
  rfl

theorem rePlace_deferred_failed {c : Code} (failed : placement s o.room o.kreq o.fallback o.units m = .error c) :
    rePlace i o m s = none := by
  cases o
  cases state
  unfold rePlace
  refine (if_neg (Bool.eq_false_iff.mp near)).trans ?_
  dsimp only at failed ⊢
  rw [failed]

end

section
variable {v : State} (state : o.state = .placed) (withdrawn : withdrawLoads o.kitchen o.contribs s = v)
include state withdrawn

theorem rePlace_placed_far (far : farAhead v m = true) : rePlace i o m s =
    some (handOrderInd o.room (joinDeferred i (setOrder i (((keepingUndo s i o).redelivered m).unplacedAs .deferred) v))) := by
  subst withdrawn
  cases o
  cases state
  unfold rePlace
  exact if_pos far

variable (near : farAhead v m = false)
include near

theorem rePlace_placed_placed {pl : Placing} (placed : placement v o.room o.kreq o.fallback o.units m = .ok pl) : rePlace i o m s =
    some (writePlaced i ((keepingUndo s i o).redelivered m) pl v) := by
  subst withdrawn
  cases o
  cases state
  unfold rePlace
  refine (if_neg (Bool.eq_false_iff.mp near)).trans ?_
  dsimp only at placed ⊢
  rw [placed]
  rfl

theorem rePlace_placed_failed {c : Code} (failed : placement v o.room o.kreq o.fallback o.units m = .error c) :
    rePlace i o m s = none := by
  subst withdrawn
  cases o
  cases state
  unfold rePlace
  refine (if_neg (Bool.eq_false_iff.mp near)).trans ?_
  dsimp only at failed ⊢
  rw [failed]

end

/-! ## MOVE by its checks (R156) -/

variable {a : MoveArg}

theorem moveWork_stale (stale : resolveOrder a.order s = none) : moveWork a s = handBook (.moveAnswer a.serial a.id a.order none) s := by
  unfold moveWork
  rw [stale]

variable (named : resolveOrder a.order s = some o)
include named

theorem moveWork_other (other : o.booking ≠ some a.id) : moveWork a s = handBook (.moveAnswer a.serial a.id a.order none) s := by
  unfold moveWork
  rw [named]
  exact if_pos other

variable (own : o.booking = some a.id)
include own

theorem moveWork_past (past : ((a.stop * 5 : Nat) : Int) ≤ deliveryOf a.start o.offset) :
    moveWork a s = handBook (.moveAnswer a.serial a.id a.order (some .badParam)) s := by
  unfold moveWork
  rw [named]
  exact (if_neg (not_not.mpr own)).trans (if_pos past)

variable (inside : deliveryOf a.start o.offset < ((a.stop * 5 : Nat) : Int))
include inside

theorem moveWork_committed (state : o.state = .committed ∨ o.state = .due) :
    moveWork a s = handBook (.moveAnswer a.serial a.id a.order (some .cateringCommitted)) s := by
  unfold moveWork
  rw [named]
  exact (if_neg (not_not.mpr own)).trans ((if_neg (Int.not_le.mpr inside)).trans (if_pos state))

variable (state : ¬(o.state = .committed ∨ o.state = .due))
include state

theorem moveWork_rePlaced {t : State} (moved : rePlace a.order.index o (deliveryOf a.start o.offset) s = some t) :
    moveWork a s = handBook (.moveAnswer a.serial a.id a.order none) t := by
  unfold moveWork
  rw [named]
  refine (if_neg (not_not.mpr own)).trans ((if_neg (Int.not_le.mpr inside)).trans ((if_neg state).trans ?_))
  rw [moved]

theorem moveWork_full (failed : rePlace a.order.index o (deliveryOf a.start o.offset) s = none) :
    moveWork a s = handBook (.moveAnswer a.serial a.id a.order (some .kitchenFull)) s := by
  unfold moveWork
  rw [named]
  refine (if_neg (not_not.mpr own)).trans ((if_neg (Int.not_le.mpr inside)).trans ((if_neg state).trans ?_))
  rw [failed]

end

/-! ## MOVE taken from the lane -/

section
variable {s : State} {a : MoveArg} {room : Room} {people : Option Nat}
  (head : s.wires.toPlanner.head? = some (.move a.serial a.id a.order room a.start a.stop people))
include head

theorem exec_move_of_head (settled : s.moveUnsettled a.order = false) :
    exec .move s = .next (if s.kpl.frozen then s.setWires { s.wires with toPlanner := s.wires.toPlanner.tail }
      else moveWork a (s.setWires { s.wires with toPlanner := s.wires.toPlanner.tail })) :=
  exec_of_bookMsg (a := a) rfl head (if_neg (by rw [settled]; exact Bool.false_ne_true))

/-- A move is not taken while an earlier *moved* answer for its order is still to be discarded. -/
theorem exec_move_of_unsettled (unsettled : s.moveUnsettled a.order = true) : exec .move s = .next s := by
  have run : exec .move s = execMove s := rfl
  rw [run, execMove, takeBookMsg, head, Option.bind_some]
  dsimp only
  rw [if_pos unsettled]

end

theorem farAhead_iff {s : State} {m : Int} : farAhead s m = true ↔ dueBefore (s.kplDay + 2) m = false := by
  rw [farAhead, Bool.not_eq_true']

theorem farAhead_eq_false {s : State} {m : Int} (near : ¬dueBefore (s.kplDay + 2) m = false) : farAhead s m = false := by
  rw [← Bool.not_eq_true, farAhead_iff]
  exact near

theorem withdrawLoads_farAhead (k : Option Kitchen) (cs : List (Nat × Nat)) (s : State) (m : Int) :
    farAhead (withdrawLoads k cs s) m = farAhead s m := by
  obtain ⟨maps, run⟩ := withdrawLoads_eq k cs s
  rw [run]
  rfl

/-- Settles O54: the checks in turn, and then the order re-placed by its state and the new minute. -/
theorem moveReplacesTheOrder : Obligations.MoveReplacesTheOrder := by
  unfold Obligations.MoveReplacesTheOrder
  refine ⟨fun s n id oid room start stop people head frozen settled => ?_, fun s n id oid room start stop people head awake => ?_⟩
  · rw [exec_move_of_head (a := ⟨n, id, oid, start, stop⟩) head ((Bool.not_eq_true _).mp fun no => settled (moveUnsettled_iff.mp no)),
      if_pos frozen]
  · intro u moved refused unsettled
    let a : MoveArg := ⟨n, id, oid, start, stop⟩
    have take (settled : ¬unsettled) : exec .move s = .next (moveWork a u) := by
      rw [exec_move_of_head (a := a) head ((Bool.not_eq_true _).mp fun no => settled (moveUnsettled_iff.mp no)),
        if_neg (by rw [awake]; exact Bool.false_ne_true)]
    refine ⟨fun no => exec_move_of_unsettled (a := a) head (moveUnsettled_iff.mpr no), fun settled stale => ?_, fun o settled named => ?_⟩
    · rw [take settled, moveWork_stale (s := u) (a := a) stale]
    · intro i m kept x far
      have run {t : State} (work : moveWork a u = t) : exec .move s = .next t := by rw [take settled, work]
      have here : resolveOrder a.order u = some o := named
      have written : (keepingUndo u i o).redelivered m = x := by
        unfold keepingUndo undoOf
        rw [List.contains_eq_mem]
        rfl
      have far_of (is : far) : farAhead u m = true := farAhead_iff.mpr is
      have near_of (is : ¬far) : farAhead u m = false := farAhead_eq_false is
      refine ⟨fun other => ?_, fun own past => ?_, fun own inside => ?_⟩
      · exact run (moveWork_other (a := a) here other)
      · exact run (moveWork_past (a := a) here own past)
      · have replaced {t : State} (state : ¬(o.state = .committed ∨ o.state = .due)) (yields : rePlace i o m u = some t) :
            exec .move s = .next (moved t) :=
          run (moveWork_rePlaced (a := a) here own inside state yields)
        have full (state : ¬(o.state = .committed ∨ o.state = .due)) (no : rePlace i o m u = none) :
            exec .move s = .next (refused .kitchenFull) :=
          run (moveWork_full (a := a) here own inside state no)
        refine ⟨fun state => ?_, fun state is => ?_, fun state is => ?_, fun state is => ?_, fun pl state is placed => ?_,
          fun c state is failed => ?_, fun state => ?_⟩
        · exact run (moveWork_committed (a := a) here own inside state)
        · refine replaced (by simp [state]) ?_
          rw [rePlace_unplaced_far state (far_of is), written]
          rfl
        · refine replaced (by simp [state]) ?_
          rw [rePlace_unplaced_near state (near_of is), written]
        · refine replaced (by simp [state]) ?_
          rw [rePlace_deferred_far state (far_of is), written]
        · refine replaced (by simp [state]) ?_
          rw [rePlace_deferred_placed state (near_of is) placed, written]
        · exact full (by simp [state]) (rePlace_deferred_failed state (near_of is) failed)
        · intro v
          have far_v : farAhead v m = farAhead u m := withdrawLoads_farAhead _ _ _ _
          refine ⟨fun is => ?_, fun pl is placed => ?_, fun c is failed => ?_⟩
          · refine replaced (by simp [state]) ?_
            rw [rePlace_placed_far state rfl (far_v.trans (far_of is)), written]
            rfl
          · refine replaced (by simp [state]) ?_
            rw [rePlace_placed_placed state rfl (far_v.trans (near_of is)) placed, written]
          · exact full (by simp [state]) (rePlace_placed_failed state rfl (far_v.trans (near_of is)) failed)

end Sys2Proof.Machine

/-! PROOFS. The messages about a booking and its order, the stop of the path, and moved orders restored (07 R148, R154, R155, R160). -/

namespace Sys2Proof.Machine

open Host

/-! ## Booking left, drop order, reseat (R148, R154, R155) -/

section
variable {s : State} {id : BookingId} {oid : OrderId} {o : OrderRec} {r : Room}

theorem orderFor_named (named : resolveOrder oid s = some o) (own : o.booking = some id) : orderFor id oid s = some o := by
  rw [orderFor, named]
  exact Option.filter_eq_some_iff.mpr ⟨rfl, decide_eq_true own⟩

theorem orderFor_other (other : ∀ o, resolveOrder oid s = some o → o.booking ≠ some id) : orderFor id oid s = none :=
  Option.filter_eq_none_iff.mpr fun o named own => other o named (of_decide_eq_true own)

theorem bookingLeftWork_notFound (other : orderFor id oid s = none) : bookingLeftWork (id, oid) s = handBook (.notFound id oid) s := by
  unfold bookingLeftWork
  rw [other]

theorem bookingLeftWork_early (here : orderFor id oid s = some o) (early : o.early) :
    bookingLeftWork (id, oid) s = freeOrderWith oid.index .orderCancelled 1 none s := by
  unfold bookingLeftWork
  rw [here]
  dsimp only
  rcases early with state | state | state <;> rw [state]

theorem bookingLeftWork_late (here : orderFor id oid s = some o) (late : o.state = .committed ∨ o.state = .due) :
    bookingLeftWork (id, oid) s = handOrderInd o.room (orderNotice .orderOrphaned oid.index { o with booking := none, orphaned := true }
      (kitchenDetail o) none (setOrder oid.index { o with booking := none, orphaned := true } s)) := by
  unfold bookingLeftWork
  rw [here]
  cases o
  rcases late with state | state <;> cases state <;> rfl

theorem dropOrderWork_stale (stale : resolveOrder oid s = none) : dropOrderWork oid s = s := by
  rw [dropOrderWork, stale]

theorem dropOrderWork_named (named : resolveOrder oid s = some o) :
    dropOrderWork oid s = freeOrderWith oid.index .orderCancelled 2 none s := by
  rw [dropOrderWork, named]

theorem freeOrderWith_named (named : resolveOrder oid s = some o) (kind : NoticeKind) (detail : Nat) :
    freeOrderWith oid.index kind detail none s = orderNotice kind oid.index o detail none (freeOrderRec oid.index s) := by
  rw [freeOrderWith, orderRec_of_named named]

theorem reseatWork_notFound (other : orderFor id oid s = none) : reseatWork (id, oid, r) s = handBook (.notFound id oid) s := by
  unfold reseatWork
  rw [other]

theorem reseatWork_here (here : orderFor id oid s = some o) : reseatWork (id, oid, r) s = handBook (.reseatDone id oid)
    (handOrderInd r (orderNotice .orderRedirected oid.index { o with room := r, redirected := true } o.room.val none
      (setOrder oid.index { o with room := r, redirected := true } s))) := by
  unfold reseatWork
  rw [here]

theorem exec_bookingLeft_of_head (head : s.wires.toPlanner.head? = some (.bookingLeft id oid)) :
    exec .bookingLeft s = .next (if s.kpl.frozen then s.setWires { s.wires with toPlanner := s.wires.toPlanner.tail }
      else bookingLeftWork (id, oid) (s.setWires { s.wires with toPlanner := s.wires.toPlanner.tail })) :=
  exec_of_bookMsg rfl head rfl

theorem exec_dropOrder_of_head (head : s.wires.toPlanner.head? = some (.dropOrder id oid)) :
    exec .dropOrder s = .next (if s.kpl.frozen then s.setWires { s.wires with toPlanner := s.wires.toPlanner.tail }
      else dropOrderWork oid (s.setWires { s.wires with toPlanner := s.wires.toPlanner.tail })) :=
  exec_of_bookMsg rfl head rfl

theorem exec_reseat_of_head (head : s.wires.toPlanner.head? = some (.reseat id oid r)) :
    exec .reseat s = .next (if s.kpl.frozen then s.setWires { s.wires with toPlanner := s.wires.toPlanner.tail }
      else reseatWork (id, oid, r) (s.setWires { s.wires with toPlanner := s.wires.toPlanner.tail })) :=
  exec_of_bookMsg rfl head rfl

end

/-! ## The stop of the path and the answers taken (R160) -/

section
variable {s : State}

theorem exec_pathStop_of_head (head : s.wires.supply[pathIx].head? = some .stop) :
    exec .pathStop s = .next (settleSupply (pathStop (popSupply pathIx s))) :=
  exec_of_supply (i := pathIx) (sel := fun | .stop => some () | _ => none) (work := fun _ s => pathStop s) (a := ()) rfl head rfl

/-- The stop of the path over lanes and moves that are named. -/
theorem pathStop_eq {ended : Nat → Bool} {msgs : List BookMsg} {answers : List PlanMsg} (ends : s.moveEnded = ended)
    (lane : s.wires.toPlanner = msgs) (back : s.wires.toBook = answers) : pathStop s =
      ((answers.filter (fun m => m.moveSerial.any ended)).filterMap PlanMsg.movedOrder).foldl (fun t o => restoreOrder o t)
        (s.setWires { s.wires with
          toPlanner := msgs.filter (fun m => !m.moveSerial.any ended)
          toBook := answers.filter (fun m => !m.moveSerial.any ended) }) := by
  subst ends lane back
  rfl

variable {id : OrderId} {o : OrderRec}

theorem exec_moveAnswerTaken_cons {os : List OrderId} (taken : s.wires.taken = id :: os) :
    exec .moveAnswerTaken s = .next (answerTaken id (s.setWires { s.wires with taken := os })) := by
  have run : exec .moveAnswerTaken s = execMoveAnswerTaken s := rfl
  rw [run, execMoveAnswerTaken, taken]

variable (named : resolveOrder id s = some o)
include named

theorem answerTaken_last (last : ∀ m ∈ s.wires.toBook, m.movedOrder ≠ some id) :
    answerTaken id s = setOrder id.index { o with undo := none } s := by
  rw [answerTaken, named]
  exact if_neg (by simpa using last)

theorem answerTaken_again (again : ∃ m ∈ s.wires.toBook, m.movedOrder = some id) : answerTaken id s = s := by
  rw [answerTaken, named]
  exact if_pos (by simpa using again)

end

/-! ## An order brought up to the current bucket (R160) -/

section
variable {s : State} {i : OrderIx} {cs : List (Nat × Nat)}

theorem bringUp_reached (placed : (s.orderRec i).state = .placed) (reached : ∃ c ∈ cs, c.1 ≤ s.kplBucket) :
    bringUp i cs s = dispatchOn s.kplBucket i (commit i s) := by
  unfold bringUp
  dsimp only
  rw [if_pos (by simpa [placed] using reached)]

theorem bringUp_waits (waits : ¬((s.orderRec i).state = .placed ∧ ∃ c ∈ cs, c.1 ≤ s.kplBucket)) :
    bringUp i cs s = dispatchOn s.kplBucket i s := by
  unfold bringUp
  dsimp only
  rw [if_neg]
  rw [Bool.and_eq_true, decide_eq_true_iff, List.any_eq_true]
  exact fun both => waits ⟨both.1, both.2.imp fun c at_ => ⟨at_.1, of_decide_eq_true at_.2⟩⟩

theorem commit_orderRec : (commit i s).orderRec i = { s.orderRec i with state := .committed } := setOrder_orderRec_same _

theorem dispatch_orderRec : (dispatch i s).orderRec i = { s.orderRec i with state := .due } := setOrder_orderRec_same _

theorem handOrderInd_load (r : Room) (k : Kitchen) (b : Nat) : (handOrderInd r s).load k b = s.load k b := load_congr rfl rfl

theorem handOrderInd_orderRec (r : Room) : (handOrderInd r s).orderRec = s.orderRec := rfl

theorem dispatchOn_load (c : Nat) (k : Kitchen) (b : Nat) : (dispatchOn c i s).load k b = s.load k b := by
  unfold dispatchOn
  dsimp only
  split
  · exact load_congr rfl rfl
  · rfl

theorem bringUp_load (k : Kitchen) (b : Nat) : (bringUp i cs s).load k b = s.load k b := by
  unfold bringUp
  dsimp only
  rw [dispatchOn_load]
  split
  · exact load_congr rfl rfl
  · rfl

/-- A committed order is dispatched once its departure is reached. -/
theorem dispatchOn_committed_state {c : Nat} (live : (s.orderRec i).live = true) (committed : (s.orderRec i).state = .committed) :
    ((dispatchOn c i s).orderRec i).state = if (s.orderRec i).departure.any (fun d => decide (d ≤ c)) then .due else .committed := by
  by_cases reached : (s.orderRec i).departure.any (fun d => decide (d ≤ c)) = true
  · obtain ⟨d, departs, le⟩ := (Option.any_eq_true _ _).mp reached
    rw [if_pos reached, dispatchOn_reached live committed departs (of_decide_eq_true le), dispatch_orderRec]
  · rw [if_neg reached, dispatchOn_waits (.inr fun d departs => ?_), committed]
    exact Nat.lt_of_not_le fun le => reached ((Option.any_eq_true _ _).mpr ⟨d, departs, decide_eq_true le⟩)

end

/-! ## A moved order restored (R160) -/

section

/-- What contributions give to one bucket of one kitchen. -/
def unitsOf (k : Option Kitchen) (cs : List (Nat × Nat)) (k' : Kitchen) (b : Nat) : Nat := if k = some k' then unitsAt cs b else 0

theorem withdrawLoads_unitsOf (k : Option Kitchen) (cs : List (Nat × Nat)) (s : State) (k' : Kitchen) (b : Nat) :
    (withdrawLoads k cs s).load k' b = s.load k' b - unitsOf k cs k' b := by
  unfold unitsOf
  cases k with
  | none => rfl
  | some k =>
    by_cases same : k = k'
    · subst same
      rw [withdrawLoads_load, if_pos rfl]
    · rw [withdrawLoads_load_other (Ne.symm same), if_neg fun e => same (Option.some.inj e), Nat.sub_zero]

theorem addLoads_unitsOf (k : Option Kitchen) (cs : List (Nat × Nat)) (s : State) (k' : Kitchen) {b : Nat}
    (inside : (mapIx s.kplDay b).isSome = true) : (addLoads k cs s).load k' b = s.load k' b + unitsOf k cs k' b := by
  unfold unitsOf
  cases k with
  | none => rfl
  | some k =>
    by_cases same : k = k'
    · subst same
      rw [addLoads_load _ _ _ inside, if_pos rfl]
    · rw [addLoads_load_other (Ne.symm same), if_neg fun e => same (Option.some.inj e), Nat.add_zero]

theorem unitsOf_filter (p : Nat → Bool) (k : Option Kitchen) (cs : List (Nat × Nat)) (k' : Kitchen) (b : Nat) :
    unitsOf k (cs.filter (fun x => p x.1)) k' b = if p b then unitsOf k cs k' b else 0 := by
  unfold unitsOf
  rw [unitsAt_filter]
  split
  · rfl
  · exact (ite_self 0).symm

variable {s : State} {id : OrderId} {o : OrderRec} {x : MoveUndo}

/-- The contributions of MOVE_UNDO that the current bucket has not passed. -/
def MoveUndo.kept (x : MoveUndo) (c : Nat) : List (Nat × Nat) := x.contribs.filter (fun y => c ≤ y.1)

/-- An order with what its MOVE_UNDO holds, at bucket `c`. -/
def OrderRec.undone (o : OrderRec) (x : MoveUndo) (c : Nat) : OrderRec :=
  { o with state := x.state, kitchen := x.kitchen, delivery := x.delivery, deliveryBucket := x.deliveryBucket,
           departure := x.departure, contribs := x.kept c, undo := none }

/-- The state with an order restored, before it is brought up to the current bucket. -/
def orderUndone (i : OrderIx) (o : OrderRec) (x : MoveUndo) (s : State) : State :=
  let t := setOrder i (o.undone x s.kplBucket)
    (leaveDeferred i (addLoads x.kitchen (x.kept s.kplBucket) (withdrawLoads o.kitchen o.contribs s)))
  if x.deferred then joinDeferred i t else t

theorem orderUndone_shape (i : OrderIx) (o : OrderRec) (x : MoveUndo) (s : State) : ∃ maps deferred,
    orderUndone i o x s = s.setKpl { s.kpl with
      maps := maps, orders := put s.kpl.orders i (o.undone x s.kplBucket), deferred := deferred } ∧
    (i ∈ deferred ↔ x.deferred = true) := by
  obtain ⟨lower, withdrawn⟩ := withdrawLoads_eq o.kitchen o.contribs s
  obtain ⟨higher, added⟩ := addLoads_eq x.kitchen (x.kept s.kplBucket) (s.setKpl { s.kpl with maps := lower })
  unfold orderUndone
  dsimp only
  rw [withdrawn, added]
  split
  · next was => exact ⟨_, _, rfl, iff_of_true ((insertDeferred_perm i _).mem_iff.mpr List.mem_cons_self) was⟩
  · next was_not => exact ⟨_, _, rfl, iff_of_false (fun mem => by simp [leaveDeferred] at mem) was_not⟩

theorem orderUndone_load (i : OrderIx) (o : OrderRec) (x : MoveUndo) (s : State) (k : Kitchen) {b : Nat}
    (inside : (mapIx s.kplDay b).isSome = true) : (orderUndone i o x s).load k b =
      s.load k b - unitsOf o.kitchen o.contribs k b + (if s.kplBucket ≤ b then unitsOf x.kitchen x.contribs k b else 0) := by
  have day : (withdrawLoads o.kitchen o.contribs s).kplDay = s.kplDay := by
    obtain ⟨maps, run⟩ := withdrawLoads_eq o.kitchen o.contribs s
    rw [run]
    rfl
  have same : (orderUndone i o x s).load k b =
      (addLoads x.kitchen (x.kept s.kplBucket) (withdrawLoads o.kitchen o.contribs s)).load k b := by
    unfold orderUndone
    dsimp only
    split <;> exact load_congr rfl rfl
  rw [same, addLoads_unitsOf _ _ _ _ (by rw [day]; exact inside), withdrawLoads_unitsOf, MoveUndo.kept,
    unitsOf_filter (fun c => decide (s.kplBucket ≤ c))]
  simp only [decide_eq_true_eq]

variable (named : resolveOrder id s = some o)
include named

theorem restoreOrder_none (undo : o.undo = none) : restoreOrder id s = s := by
  unfold restoreOrder
  rw [named]
  dsimp only
  rw [undo]

theorem restoreOrder_some (undo : o.undo = some x) :
    restoreOrder id s = handOrderInd o.room (bringUp id.index x.contribs (orderUndone id.index o x s)) := by
  unfold restoreOrder
  rw [named]
  dsimp only
  rw [undo]
  rfl

omit named in
theorem orderUndone_orderRec : (orderUndone id.index o x s).orderRec id.index = o.undone x s.kplBucket := by
  obtain ⟨maps, deferred, shape, -⟩ := orderUndone_shape id.index o x s
  rw [shape]
  exact put_get_same s.kpl.orders _ _

omit named in
theorem orderUndone_kplBucket : (orderUndone id.index o x s).kplBucket = s.kplBucket := by
  obtain ⟨maps, deferred, shape, -⟩ := orderUndone_shape id.index o x s
  rw [shape]
  rfl

variable (undo : o.undo = some x)
include undo

theorem restoreOrder_load (k : Kitchen) {b : Nat} (inside : (mapIx s.kplDay b).isSome = true) : (restoreOrder id s).load k b =
    s.load k b - unitsOf o.kitchen o.contribs k b + (if s.kplBucket ≤ b then unitsOf x.kitchen x.contribs k b else 0) := by
  rw [restoreOrder_some named undo, handOrderInd_load, bringUp_load, orderUndone_load id.index o x s k inside]

/-- A restored order that the current bucket has reached is committed, and dispatched once its departure is reached. -/
theorem restoreOrder_reached (placed : x.state = .placed) (reached : ∃ c ∈ x.contribs, c.1 ≤ s.kplBucket) :
    ((restoreOrder id s).orderRec id.index).state =
      if x.departure.any (fun d => decide (d ≤ s.kplBucket)) then .due else .committed := by
  have record := orderUndone_orderRec (id := id) (o := o) (x := x) (s := s)
  have bucket := orderUndone_kplBucket (id := id) (o := o) (x := x) (s := s)
  have live : o.live = true := (resolveOrder_eq_some.mp named).2.1
  have committed : (commit id.index (orderUndone id.index o x s)).orderRec id.index =
      { o.undone x s.kplBucket with state := .committed } := by rw [commit_orderRec, record]
  have up : (restoreOrder id s).orderRec =
      (dispatchOn s.kplBucket id.index (commit id.index (orderUndone id.index o x s))).orderRec := by
    rw [restoreOrder_some named undo, bringUp_reached (by rw [record]; exact placed) (by rw [bucket]; exact reached), bucket,
      handOrderInd_orderRec]
  rw [up, dispatchOn_committed_state (by rw [committed]; exact live) (by rw [committed]), committed]
  rfl

/-- A restored order that the current bucket has not reached stands as it was before the move. -/
theorem restoreOrder_stands (waits : ¬(x.state = .placed ∧ ∃ c ∈ x.contribs, c.1 ≤ s.kplBucket)) (early : x.state ≠ .committed) :
    restoreOrder id s = handOrderInd o.room (orderUndone id.index o x s) := by
  have record := orderUndone_orderRec (id := id) (o := o) (x := x) (s := s)
  have bucket := orderUndone_kplBucket (id := id) (o := o) (x := x) (s := s)
  rw [restoreOrder_some named undo, bringUp_waits (by rw [record, bucket]; exact waits),
    dispatchOn_waits (.inl (by rw [record]; exact early))]

end

/-- Settles O55: each message by the order it names, the stop by the moves it ends, and a restored order by what MOVE_UNDO holds. -/
theorem bookingMessagesAndThePath : Obligations.BookingMessagesAndThePath := by
  unfold Obligations.BookingMessagesAndThePath
  refine ⟨fun s id oid r frozen => ?_, fun s id oid awake => ?_, fun s => ⟨fun head => ?_, fun id o os taken named => ?_⟩,
    fun s id o named => ⟨restoreOrder_none named, fun x undo => ?_⟩, fun i cs s live => ?_⟩
  · intro u
    refine ⟨fun head => ?_, fun head => ?_, fun head => ?_⟩
    · rw [exec_bookingLeft_of_head head, if_pos frozen]
    · rw [exec_dropOrder_of_head head, if_pos frozen]
    · rw [exec_reseat_of_head head, if_pos frozen]
  · intro u i
    have awake : ¬s.kpl.frozen = true := Bool.eq_false_iff.mp awake
    refine ⟨fun head => ?_, fun head => ?_, fun r head => ?_⟩
    · rw [exec_bookingLeft_of_head head, if_neg awake]
      refine ⟨fun other => ?_, fun o named own => ⟨fun early => ?_, fun late => ?_⟩⟩
      · rw [bookingLeftWork_notFound (s := u) (orderFor_other other)]
      · rw [bookingLeftWork_early (s := u) (orderFor_named named own) early, freeOrderWith_named (s := u) named]
      · rw [bookingLeftWork_late (s := u) (orderFor_named named own) late]
    · rw [exec_dropOrder_of_head head, if_neg awake]
      refine ⟨fun stale => ?_, fun o named => ?_⟩
      · rw [dropOrderWork_stale (s := u) stale]
      · rw [dropOrderWork_named (s := u) named, freeOrderWith_named (s := u) named]
    · rw [exec_reseat_of_head head, if_neg awake]
      refine ⟨fun other => ?_, fun o named own => ?_⟩
      · rw [reseatWork_notFound (s := u) (orderFor_other other)]
      · rw [reseatWork_here (s := u) (orderFor_named named own)]
  · intro u ended v orders
    have wires := popSupply_wires pathIx s
    have supply : u.wires.supply[rbkIx] = s.wires.supply[rbkIx] := popSupply_supply_other (by decide) s
    have ends : u.moveEnded = ended := by
      funext n
      rw [State.moveEnded, supply, State.moveOpen, popSupply_book, List.contains_eq_mem]
    rw [exec_pathStop_of_head head, pathStop_eq ends (msgs := s.wires.toPlanner) (answers := s.wires.toBook) (by rw [wires]) (by rw [wires])]
  · intro u
    rw [exec_moveAnswerTaken_cons taken]
    refine ⟨fun last => ?_, fun again => ?_⟩
    · rw [answerTaken_last (s := u) named last]
    · rw [answerTaken_again (s := u) named again]
  · intro t at_
    refine ⟨fun k b low high => restoreOrder_load named undo k (by rw [mapIx_inside low high]; rfl),
      restoreOrder_reached named undo, fun waits => ?_⟩
    have not_reached : ¬(x.state = .placed ∧ ∃ c ∈ x.contribs, c.1 ≤ s.kplBucket) := by
      rintro ⟨placed, c, mem, le⟩
      rcases waits with state | state | ⟨-, ahead⟩
      · exact absurd (placed.symm.trans state) (by decide)
      · exact absurd (placed.symm.trans state) (by decide)
      · exact absurd (ahead c mem) (Nat.not_lt.mpr le)
    have not_committed : x.state ≠ .committed := by
      rcases waits with state | state | ⟨state, -⟩ <;> rw [state] <;> decide
    obtain ⟨maps, deferred, shape, listed⟩ := orderUndone_shape id.index o x s
    have stands : t = _ := restoreOrder_stands named undo not_reached not_committed
    rw [stands, shape]
    refine ⟨put_get_same s.kpl.orders _ _, fun j other => put_get_other s.kpl.orders _ (Ne.symm other), listed, rfl, ?_⟩
    simp [handOrderInd]
  · intro o x reached
    exact ⟨fun is => bringUp_reached is.1 is.2, bringUp_waits⟩

end Sys2Proof.Machine

/-! PROOFS. The Notice Router: what a notice taken, a fetch and the warm start do to each port's queue (08 R163, R166 to R171, R175). -/

namespace Sys2Proof.Machine

open Host

/-! ## What NRT holds and reports for one port -/

/-- A port's queue, its LOST marker, and the lengths on their way to it. -/
structure Inbox where
  queue : List Notice
  lost : Bool
  lengths : List Nat

def State.inbox (s : State) (p : Port) : Inbox := ⟨s.nrt.queues[p], s.nrt.lost[p], s.wires.qlens[p]⟩

/-- An inbox as a copy of a notice is placed in it (R170). -/
def Inbox.placed (n : Notice) (x : Inbox) : Inbox :=
  if 32 ≤ x.queue.length then { x with lost := true }
  else { x with queue := x.queue ++ [n], lengths := x.lengths ++ [x.queue.length + 1] }

theorem Inbox.placed_of_fits {n : Notice} {x : Inbox} (fits : x.queue.length < 32) :
    x.placed n = { x with queue := x.queue ++ [n], lengths := x.lengths ++ [x.queue.length + 1] } := if_neg (Nat.not_le.mpr fits)

theorem Inbox.placed_of_full {n : Notice} {x : Inbox} (full : 32 ≤ x.queue.length) : x.placed n = { x with lost := true } := if_pos full

/-- An inbox as the warm start empties it (R175). -/
def Inbox.emptied (x : Inbox) : Inbox := ⟨[], true, x.lengths ++ (if x.queue = [] then [] else [0])⟩

/-- A later state in which only NRT's queues and markers, and the lengths on their way to the ports, may differ. -/
def OnlyInboxes (s t : State) : Prop :=
  ∃ x q, x.routes = s.nrt.routes ∧ t = (s.setNrt x).setWires { s.wires with qlens := q }

section
variable {s t : State} {p q : Port} {n : Notice}

theorem OnlyInboxes.refl (s : State) : OnlyInboxes s s := ⟨s.nrt, s.wires.qlens, rfl, rfl⟩

theorem OnlyInboxes.trans {u : State} (first : OnlyInboxes s t) (second : OnlyInboxes t u) : OnlyInboxes s u := by
  obtain ⟨x, _, routes, rfl⟩ := first
  obtain ⟨y, r, routes', rfl⟩ := second
  exact ⟨y, r, routes'.trans routes, rfl⟩

theorem OnlyInboxes.foldl {f : State → Port → State} (each : ∀ t p, OnlyInboxes t (f t p)) (ps : List Port) (s : State) :
    OnlyInboxes s (ps.foldl f s) := by
  induction ps generalizing s with
  | nil => exact .refl s
  | cons p ps ih => exact (each s p).trans (ih (f s p))

theorem OnlyInboxes.only (changed : OnlyInboxes s t) : Only [.nrt, .wires] s t := by
  obtain ⟨x, q, -, rfl⟩ := changed
  simp

/-- A step for each port of a list, once each, changes the inbox of each of them by that step, and no other. -/
theorem foldl_inbox {f : State → Port → State} {g : Inbox → Inbox} (same : ∀ t p, (f t p).inbox p = g (t.inbox p))
    (other : ∀ t p q, q ≠ p → (f t p).inbox q = t.inbox q) {ps : List Port} (once : ps.Nodup) (s : State) (p : Port) :
    (ps.foldl f s).inbox p = if p ∈ ps then g (s.inbox p) else s.inbox p := by
  induction ps generalizing s with
  | nil => rfl
  | cons x ps ih =>
    obtain ⟨not_again, once⟩ := List.nodup_cons.mp once
    rw [List.foldl_cons, ih once]
    by_cases here : p = x
    · subst here
      rw [if_neg not_again, if_pos List.mem_cons_self, same]
    · rw [other _ _ _ here]
      simp [here]

theorem setLost_inbox (b : Bool) : (setLost p b s).inbox p = { s.inbox p with lost := b } := by
  unfold setLost State.inbox
  simp

theorem setLost_inbox_other (b : Bool) (other : q ≠ p) : (setLost p b s).inbox q = s.inbox q := by
  unfold setLost State.inbox
  simp [put_get_other _ _ (Ne.symm other)]

theorem setQueue_inbox (ns : List Notice) : (setQueue p ns s).inbox p =
    { s.inbox p with queue := ns, lengths := s.wires.qlens[p] ++ (if ns.length = (s.nrt.queues[p]).length then [] else [ns.length]) } := by
  unfold setQueue State.inbox
  dsimp only
  split
  · next same => simp
  · next differ => simp [handQlen]

theorem setQueue_inbox_other (ns : List Notice) (other : q ≠ p) : (setQueue p ns s).inbox q = s.inbox q := by
  unfold setQueue State.inbox
  dsimp only
  split
  · simp [put_get_other _ _ (Ne.symm other)]
  · simp [handQlen, put_get_other _ _ (Ne.symm other), modAt_get_other _ _ (Ne.symm other)]

theorem setLost_onlyInboxes (b : Bool) : OnlyInboxes s (setLost p b s) :=
  ⟨{ s.nrt with lost := put s.nrt.lost p b }, s.wires.qlens, rfl, rfl⟩

theorem setQueue_onlyInboxes (ns : List Notice) : OnlyInboxes s (setQueue p ns s) := by
  unfold setQueue
  dsimp only
  split
  · exact ⟨{ s.nrt with queues := put s.nrt.queues p ns }, s.wires.qlens, rfl, rfl⟩
  · exact ⟨{ s.nrt with queues := put s.nrt.queues p ns }, _, rfl, rfl⟩

/-! ## A notice routed (R166 to R170) -/

theorem placeCopy_onlyInboxes : OnlyInboxes s (placeCopy n p s) := by
  unfold placeCopy
  split
  · exact setLost_onlyInboxes _
  · exact setQueue_onlyInboxes _

theorem placeCopy_inbox : (placeCopy n p s).inbox p = (s.inbox p).placed n := by
  have full_iff : queueFull s.nrt.queues[p] = true ↔ 32 ≤ (s.inbox p).queue.length := decide_eq_true_iff
  unfold placeCopy Inbox.placed
  split
  · next full =>
    rw [if_pos (full_iff.mp full), setLost_inbox]
  · next fits =>
    rw [if_neg (fun no => fits (full_iff.mpr no)), setQueue_inbox, if_neg (by simp)]
    simp [State.inbox]

theorem placeCopy_inbox_other (other : q ≠ p) : (placeCopy n p s).inbox q = s.inbox q := by
  unfold placeCopy
  split
  · exact setLost_inbox_other _ other
  · exact setQueue_inbox_other _ other

variable {h : HandedNotice}

theorem routeNotice_onlyInboxes : OnlyInboxes s (routeNotice h s) := OnlyInboxes.foldl (fun _ _ => placeCopy_onlyInboxes) _ s

theorem routeNotice_inbox : (routeNotice h s).inbox p =
    if inDestination s h p then (s.inbox p).placed (dateNotice s h) else s.inbox p := by
  rw [routeNotice, foldl_inbox (fun _ _ => placeCopy_inbox) (fun _ _ _ => placeCopy_inbox_other) ((List.nodup_finRange 4).filter _)]
  simp

theorem any_toList_iff {α : Type} {n : Nat} {v : Vector α n} {f : α → Bool} : v.toList.any f = true ↔ ∃ i : Fin n, f v[i] = true := by
  rw [List.any_eq_true]
  constructor
  · rintro ⟨x, mem, holds⟩
    obtain ⟨i, lt, rfl⟩ := Vector.mem_iff_getElem.mp (Vector.mem_toList_iff.mp mem)
    exact ⟨⟨i, lt⟩, holds⟩
  · rintro ⟨i, holds⟩
    exact ⟨_, Vector.mem_toList_iff.mpr (Vector.getElem_mem i.isLt), holds⟩

theorem Route.matches_iff {r : Route} {z : ZoneTable} : r.matches z n = true ↔
    r.enabled = true ∧ (r.kind = none ∨ r.kind = some n.kind) ∧ ∀ x, n.room = some x → z.zoneOf x ∈ r.zones := by
  unfold Route.matches
  rw [Bool.and_eq_true, Bool.and_eq_true, and_assoc]
  refine and_congr_right fun _ => and_congr ?_ ?_
  · cases r.kind <;> simp
  · cases n.room <;> simp

theorem inDestination_iff : inDestination s h p = true ↔ (h.owner = some p ∧ h.cause ≠ some p) ∨
    (h.note.kind = .recordDamaged ∧ (s.ports[p]).role = .facilities) ∨
    ∃ i : Fin 16, (s.nrt.routes[i]).enabled = true ∧ p ∈ (s.nrt.routes[i]).ports ∧
      ((s.nrt.routes[i]).kind = none ∨ (s.nrt.routes[i]).kind = some h.note.kind) ∧
      ∀ r, h.note.room = some r → s.rzt.zones.zoneOf r ∈ (s.nrt.routes[i]).zones := by
  unfold inDestination ownerCopy
  rw [Bool.or_eq_true, Bool.or_eq_true, or_assoc, Bool.and_eq_true, Bool.and_eq_true, decide_eq_true_iff, bne_iff_ne,
    decide_eq_true_iff, decide_eq_true_iff, any_toList_iff]
  refine or_congr_right (or_congr_right (exists_congr fun i => ?_))
  rw [Bool.and_eq_true, Route.matches_iff, List.contains_iff_mem, and_assoc]
  exact and_congr_right fun _ => (and_comm)

/-! ## FETCH_NOTICES (R171) and the warm start (R175) -/

theorem emptyQueue_onlyInboxes : OnlyInboxes s (emptyQueue s p) := (setQueue_onlyInboxes []).trans (setLost_onlyInboxes true)

theorem emptyQueue_inbox : (emptyQueue s p).inbox p = (s.inbox p).emptied := by
  unfold emptyQueue Inbox.emptied
  rw [setLost_inbox, setQueue_inbox]
  cases empty : s.nrt.queues[p] <;> simp [State.inbox, empty]

theorem emptyQueue_inbox_other (other : q ≠ p) : (emptyQueue s p).inbox q = s.inbox q := by
  unfold emptyQueue
  rw [setLost_inbox_other _ other, setQueue_inbox_other _ other]

end

section
variable {p : Port} {h : HandedRequest} {rest : List HandedRequest} {s : State} {n : Nat} (asks : s.asks p h rest)
include asks

theorem exec_fetchNotices_of_asks (req : h.req = .fetchNotices n) :
    exec (.fetchNotices p) s = .next (fetchNoticesWork (h.asker p) n (s.took p rest)) := exec_of_asks rfl asks (by rw [req])

end

theorem fetchNoticesWork_bad {q : Asker} {n : Nat} {s : State} (bad : n = 0 ∨ 8 < n) : fetchNoticesWork q n s = reply q .badParam [] s :=
  if_pos (by simpa using bad)

theorem fetchNoticesWork_good {q : Asker} {n : Nat} {s : State} (low : 1 ≤ n) (high : n ≤ 8) : fetchNoticesWork q n s =
    reply q .ok (eList eNotice ((s.nrt.queues[q.port]).take n) ++ e1 ((s.nrt.queues[q.port]).drop n).length ++ eFlag s.nrt.lost[q.port])
      (setLost q.port false (setQueue q.port ((s.nrt.queues[q.port]).drop n) s)) :=
  if_neg (by simp; omega)

/-- What NRT holds once a queue and its marker are replaced. -/
theorem setLost_setQueue_nrt (p : Port) (b : Bool) (ns : List Notice) (s : State) : (setLost p b (setQueue p ns s)).nrt =
    { s.nrt with queues := put s.nrt.queues p ns, lost := put s.nrt.lost p b } := by
  unfold setLost setQueue
  dsimp only
  split <;> rfl

theorem setLost_setQueue_qlens {p : Port} {ns : List Notice} {s : State} (b : Bool) (differ : ns.length ≠ (s.nrt.queues[p]).length) :
    (setLost p b (setQueue p ns s)).wires.qlens = modAt s.wires.qlens p (· ++ [ns.length]) := by
  unfold setLost setQueue
  dsimp only
  rw [if_neg differ]
  rfl

/-- Settles O56: the destinations by their three grounds, and each port's inbox by what joins, leaves or empties it. -/
theorem noticesAreRoutedAndFetched : Obligations.NoticesAreRoutedAndFetched := by
  unfold Obligations.NoticesAreRoutedAndFetched
  refine ⟨fun from_ s h rest waits => ?_, fun p h rest s n asks req => ⟨fun bad => ?_, fun low high => ?_⟩, fun s head => ?_⟩
  · let u := s.setWires { s.wires with
      notices := put s.wires.notices (producerIx from_) rest, noticesBefore := modAt s.wires.noticesBefore (producerIx from_) (· - 1) }
    have run : exec (.notice from_) s = .next (routeNotice h u) := congrArg Outcome.next (takeNotice_cons waits)
    obtain ⟨x, q, routes, shape⟩ := routeNotice_onlyInboxes (s := u) (h := h)
    refine ⟨routeNotice h u, run, by rw [shape]; rfl, by rw [shape]; rfl, by rw [shape]; exact routes, only_of_exec run, fun p => ?_⟩
    intro n goes
    have inbox := routeNotice_inbox (s := u) (p := p) (h := h)
    have joins : inDestination u h p = true ↔ goes := inDestination_iff
    refine ⟨fun no => ?_, fun yes fits => ?_, fun yes full => ?_⟩
    · rw [if_neg fun is => no (joins.mp is)] at inbox
      exact ⟨congrArg Inbox.queue inbox, congrArg Inbox.lost inbox, congrArg Inbox.lengths inbox⟩
    · rw [if_pos (joins.mpr yes), Inbox.placed_of_fits (x := u.inbox p) fits] at inbox
      exact ⟨congrArg Inbox.queue inbox, congrArg Inbox.lost inbox, congrArg Inbox.lengths inbox⟩
    · rw [if_pos (joins.mpr yes), Inbox.placed_of_full (x := u.inbox p) full] at inbox
      exact ⟨congrArg Inbox.queue inbox, congrArg Inbox.lost inbox, congrArg Inbox.lengths inbox⟩
  · rw [exec_fetchNotices_of_asks asks req, fetchNoticesWork_bad bad, reply_took]
  · let u := s.took p rest
    have length : ((s.nrt.queues[p]).drop n).length = (s.nrt.queues[p]).length - n := List.length_drop
    have run : exec (.fetchNotices p) s = .next (answer p h.reqno .ok
        (eList eNotice ((s.nrt.queues[p]).take n) ++ e1 ((s.nrt.queues[p]).drop n).length ++ eFlag s.nrt.lost[p])
        (setLost p false (setQueue p ((s.nrt.queues[p]).drop n) u))) := by
      rw [exec_fetchNotices_of_asks asks req, fetchNoticesWork_good low high]
      rfl
    refine ⟨_, by rw [run, length], setLost_setQueue_nrt _ _ _ u, fun held => ?_, ?_⟩
    · have pos := List.length_pos_iff.mpr held
      rw [setLost_setQueue_qlens (s := u) false (by rw [length]; exact (Nat.sub_lt pos low).ne), length]
      rfl
    · have taken : Only [.nrt, .wires] s u := by simp [u, State.took]
      exact taken.trans ((setQueue_onlyInboxes _).trans (setLost_onlyInboxes false)).only
  · intro due
    refine ⟨fun early => ?_, fun now => ?_⟩
    · exact congrArg Outcome.next (if_neg fun is => early (warmStartDue_iff.mp is))
    · let u := popSupply nrtIx s
      have run : exec .noticeWarmStart s = .next (settleSupply ((List.finRange 4).foldl emptyQueue u)) := by
        have is : exec .noticeWarmStart s = execNoticeWarmStart s := rfl
        rw [is, execNoticeWarmStart, if_pos (warmStartDue_iff.mpr now), takeSupply_of_head head (a := ()) rfl]
      have popped : u = s.setWires { s.wires with supply := put s.wires.supply nrtIx s.wires.supply[nrtIx].tail } := rfl
      have changed : OnlyInboxes u ((List.finRange 4).foldl emptyQueue u) := OnlyInboxes.foldl (fun _ _ => emptyQueue_onlyInboxes) _ u
      have inboxes (p : Port) : ((List.finRange 4).foldl emptyQueue u).inbox p = (u.inbox p).emptied := by
        rw [foldl_inbox (fun _ _ => emptyQueue_inbox) (fun _ _ _ => emptyQueue_inbox_other) (List.nodup_finRange 4),
          if_pos (List.mem_finRange p)]
      generalize (List.finRange 4).foldl emptyQueue u = t at run changed inboxes
      have before (p : Port) : u.inbox p = s.inbox p := rfl
      have taken : Only [.nrt, .wires] s u := by
        rw [popped]
        simp
      have only := taken.trans changed.only
      obtain ⟨x, q, routes, shape⟩ := changed
      refine ⟨t, run, by rw [shape]; exact routes, fun p => ?_, by rw [shape, popped]; rfl, only⟩
      have inbox := inboxes p
      rw [before] at inbox
      exact ⟨congrArg Inbox.queue inbox, congrArg Inbox.lost inbox, congrArg Inbox.lengths inbox⟩

end Sys2Proof.Machine

/-! PROOFS. Each reader of octets reads the octets that its value is laid out in, and nothing else (11 R195, R197). -/

namespace Sys2Proof.Machine

/-! ## Readers and the octets they read -/

/-- A reader that reads just the values that meet `ok`, each from its octets `enc`. -/
def Reads {α : Type} (r : Reader α) (enc : α → List Byte) (ok : α → Prop) : Prop :=
  ∀ bs a rest, r bs = some (a, rest) ↔ ok a ∧ bs = enc a ++ rest

section
variable {α β : Type} {r : Reader α} {enc : α → List Byte} {ok : α → Prop}

theorem Reads.of (sound : ∀ bs a rest, r bs = some (a, rest) → ok a ∧ bs = enc a ++ rest)
    (complete : ∀ a rest, ok a → r (enc a ++ rest) = some (a, rest)) : Reads r enc ok :=
  fun bs a rest => ⟨sound bs a rest, fun ⟨is, octets⟩ => octets ▸ complete a rest is⟩

/-- What is read from a value's octets is that value. -/
theorem Reads.read (reads : Reads r enc ok) {a : α} (is : ok a) (rest : List Byte) : r (enc a ++ rest) = some (a, rest) :=
  (reads _ _ _).mpr ⟨is, rfl⟩

/-- Reading a value and then going on with it and the octets left. -/
theorem Reads.bind (reads : Reads r enc ok) {f : α × List Byte → Option β} {bs : List Byte} {b : β} : (r bs).bind f = some b ↔
    ∃ a rest, ok a ∧ bs = enc a ++ rest ∧ f (a, rest) = some b := by
  rw [Option.bind_eq_some_iff]
  constructor
  · rintro ⟨⟨a, rest⟩, read, next⟩
    obtain ⟨is, octets⟩ := (reads _ _ _).mp read
    exact ⟨a, rest, is, octets, next⟩
  · rintro ⟨a, rest, is, octets, next⟩
    exact ⟨(a, rest), (reads _ _ _).mpr ⟨is, octets⟩, next⟩

/-- A reader followed by a change of its value that can be taken back. -/
theorem Reads.map (reads : Reads r enc ok) {f : α → β} {g : β → α} {ok' : β → Prop} (of : ∀ a, ok a → ok' (f a) ∧ g (f a) = a)
    (back : ∀ b, ok' b → ok (g b) ∧ f (g b) = b) : Reads (fun bs => (r bs).map fun x => (f x.1, x.2)) (fun b => enc (g b)) ok' := by
  refine Reads.of (fun bs b rest read => ?_) (fun b rest is => ?_)
  · obtain ⟨⟨a, rest'⟩, first, same⟩ := Option.map_eq_some_iff.mp read
    cases same
    obtain ⟨is, octets⟩ := (reads _ _ _).mp first
    exact ⟨(of a is).1, by rw [(of a is).2, octets]⟩
  · rw [reads.read (back b is).1, Option.map_some, (back b is).2]

end

/-! ## Numbers -/

theorem e1_mod (n : Nat) : e1 (n % 256) = e1 n := by
  unfold e1
  rw [← BitVec.toNat_ofNat n 8, BitVec.ofNat_toNat, BitVec.setWidth_eq]

theorem e2_mod (n : Nat) : e2 (n % 65536) = e2 n := by
  have split (m : Nat) : e2 m = e1 (m / 256) ++ e1 m := rfl
  rw [split, split, ← e1_mod (n % 65536 / 256), ← e1_mod (n % 65536), ← e1_mod (n / 256), ← e1_mod n]
  congr 2 <;> omega

theorem e1_toNat (b : Byte) : e1 b.toNat = [b] := by
  unfold e1
  rw [BitVec.ofNat_toNat, BitVec.setWidth_eq]

theorem reads_r1 : Reads r1 e1 (· < 256) := by
  refine Reads.of (fun bs n rest read => ?_) (fun n rest lt => ?_)
  · cases bs with
    | nil => cases read
    | cons b bs =>
      cases read
      exact ⟨b.isLt, by rw [e1_toNat]; rfl⟩
  · show some ((BitVec.ofNat 8 n).toNat, rest) = _
    rw [BitVec.toNat_ofNat, Nat.mod_eq_of_lt lt]

/-- Two octets are read one after the other. -/
theorem r2_eq (bs : List Byte) : r2 bs = (r1 bs).bind fun x => (r1 x.2).map fun y => (x.1 * 256 + y.1, y.2) := by
  match bs with
  | [] => rfl
  | [_] => rfl
  | a :: b :: bs => rfl

theorem reads_r2 : Reads r2 e2 (· < 65536) := by
  refine Reads.of (fun bs n rest read => ?_) (fun n rest lt => ?_)
  · obtain ⟨high, rest', high_lt, rfl, next⟩ := reads_r1.bind.mp ((r2_eq bs).symm.trans read)
    obtain ⟨⟨low, rest''⟩, second, is⟩ := Option.map_eq_some_iff.mp next
    obtain ⟨low_lt, rfl⟩ := (reads_r1 _ _ _).mp second
    cases is
    have quotient : (high * 256 + low) / 256 = high := by omega
    have remainder : (high * 256 + low) % 256 = low := by omega
    refine ⟨by omega, ?_⟩
    have split : e2 (high * 256 + low) = e1 ((high * 256 + low) / 256) ++ e1 (high * 256 + low) := rfl
    rw [split, ← e1_mod (high * 256 + low), quotient, remainder, List.append_assoc]
  · have split : e2 n = e1 (n / 256) ++ e1 n := rfl
    rw [split, r2_eq, List.append_assoc, reads_r1.read (by omega), Option.bind_some, ← e1_mod n, reads_r1.read (by omega), Option.map_some]
    simp only [Option.some.injEq, Prod.mk.injEq, and_true]
    omega

/-- Four octets are read as two pairs. -/
theorem r4_eq (bs : List Byte) : r4 bs = (r2 bs).bind fun x => (r2 x.2).map fun y => (x.1 * 65536 + y.1, y.2) := by
  match bs with
  | [] => rfl
  | [_] => rfl
  | [_, _] => rfl
  | [_, _, _] => rfl
  | a :: b :: c :: d :: bs =>
    simp only [r4, r2, Option.bind_some, Option.map_some, Option.some.injEq, Prod.mk.injEq, and_true]
    omega

theorem reads_r4 : Reads r4 e4 (· < 4294967296) := by
  refine Reads.of (fun bs n rest read => ?_) (fun n rest lt => ?_)
  · obtain ⟨high, rest', high_lt, rfl, next⟩ := reads_r2.bind.mp ((r4_eq bs).symm.trans read)
    obtain ⟨⟨low, rest''⟩, second, is⟩ := Option.map_eq_some_iff.mp next
    obtain ⟨low_lt, rfl⟩ := (reads_r2 _ _ _).mp second
    cases is
    have quotient : (high * 65536 + low) / 65536 = high := by omega
    have remainder : (high * 65536 + low) % 65536 = low := by omega
    refine ⟨by omega, ?_⟩
    rw [e4, ← e2_mod (high * 65536 + low), quotient, remainder, List.append_assoc]
  · rw [e4, r4_eq, List.append_assoc, reads_r2.read (by omega), Option.bind_some, ← e2_mod n, reads_r2.read (by omega), Option.map_some]
    simp only [Option.some.injEq, Prod.mk.injEq, and_true]
    omega

/-! ## Handles -/

theorem bookingWord_lt (id : BookingId) : id.word < 65536 := by
  have := id.index.isLt
  have := id.gen.isLt
  unfold BookingId.word
  omega

theorem bookingOfWord_word (id : BookingId) : BookingId.ofWord id.word = id := by
  obtain ⟨i, g⟩ := id
  have := i.isLt
  have := g.isLt
  simp only [BookingId.ofWord, BookingId.word, BookingId.mk.injEq, Fin.ext_iff, Fin.val_ofNat]
  omega

theorem bookingWord_ofWord {w : Nat} (lt : w < 65536) : (BookingId.ofWord w).word = w := by
  simp only [BookingId.ofWord, BookingId.word, Fin.val_ofNat]
  omega

theorem orderWord_lt (id : OrderId) : id.word < 65536 := by
  have := id.index.isLt
  have := id.gen.isLt
  unfold OrderId.word
  omega

theorem orderOfWord_word (id : OrderId) : OrderId.ofWord id.word = id := by
  obtain ⟨i, g⟩ := id
  have := i.isLt
  have := g.isLt
  simp only [OrderId.ofWord, OrderId.word, OrderId.mk.injEq, Fin.ext_iff, Fin.val_ofNat]
  omega

theorem orderWord_ofWord {w : Nat} (lt : w < 65536) : (OrderId.ofWord w).word = w := by
  simp only [OrderId.ofWord, OrderId.word, Fin.val_ofNat]
  omega

theorem reads_rBookingId : Reads rBookingId (fun id => e2 id.word) (fun _ => True) :=
  reads_r2.map (fun _ lt => ⟨trivial, bookingWord_ofWord lt⟩) fun id _ => ⟨bookingWord_lt id, bookingOfWord_word id⟩

theorem reads_rOrderId : Reads rOrderId (fun id => e2 id.word) (fun _ => True) :=
  reads_r2.map (fun _ lt => ⟨trivial, orderWord_ofWord lt⟩) fun id _ => ⟨orderWord_lt id, orderOfWord_word id⟩

/-! ## Optional values and lists -/

section
variable {α : Type} {r : Reader α} {enc : α → List Byte} {ok : α → Prop}

theorem Reads.opt (reads : Reads r enc ok) : Reads (rOpt r) (fun x => x.elim (e1 0) fun a => e1 1 ++ enc a) (fun x => ∀ a, x = some a → ok a) := by
  refine Reads.of (fun bs x rest read => ?_) (fun x rest is => ?_)
  · cases bs with
    | nil => cases read
    | cons b bs =>
      simp only [rOpt] at read
      split at read
      · next absent =>
        cases read
        exact ⟨fun a no => (by cases no), by rw [absent]; rfl⟩
      · split at read
        · next present =>
          obtain ⟨⟨a, rest'⟩, value, same⟩ := Option.map_eq_some_iff.mp read
          cases same
          obtain ⟨is, rfl⟩ := (reads _ _ _).mp value
          exact ⟨fun _ same => Option.some.inj same ▸ is, by rw [present]; rfl⟩
        · cases read
  · cases x with
    | none => rfl
    | some a =>
      show (r (enc a ++ rest)).map (fun x => (some x.1, x.2)) = some (some a, rest)
      rw [reads.read (is a rfl), Option.map_some]

theorem rTimes_succ (n : Nat) (bs : List Byte) :
    rTimes r (n + 1) bs = (r bs).bind fun x => (rTimes r n x.2).bind fun y => some (x.1 :: y.1, y.2) := rfl

theorem Reads.times (reads : Reads r enc ok) (n : Nat) :
    Reads (rTimes r n) (fun as => as.flatMap enc) (fun as => as.length = n ∧ ∀ a ∈ as, ok a) := by
  induction n with
  | zero =>
    refine Reads.of (fun bs as rest read => ?_) (fun as rest is => ?_)
    · cases read
      exact ⟨⟨rfl, fun a no => (by cases no)⟩, rfl⟩
    · rw [List.length_eq_zero_iff.mp is.1]
      rfl
  | succ n ih =>
    refine Reads.of (fun bs as rest read => ?_) (fun as rest is => ?_)
    · obtain ⟨a, rest', is, rfl, next⟩ := reads.bind.mp ((rTimes_succ n bs).symm.trans read)
      obtain ⟨as, rest'', all, rfl, done⟩ := ih.bind.mp next
      cases done
      exact ⟨⟨by rw [List.length_cons, all.1], List.forall_mem_cons.mpr ⟨is, all.2⟩⟩, by rw [List.flatMap_cons, List.append_assoc]⟩
    · obtain ⟨length, all⟩ := is
      cases as with
      | nil => cases length
      | cons a as =>
        obtain ⟨first, others⟩ := List.forall_mem_cons.mp all
        rw [List.flatMap_cons, rTimes_succ, List.append_assoc, reads.read first, Option.bind_some,
          ih.read ⟨Nat.succ.inj length, others⟩, Option.bind_some]

theorem Reads.counted (reads : Reads r enc ok) :
    Reads (rCounted r) (fun as => e1 as.length ++ as.flatMap enc) (fun as => as.length < 256 ∧ ∀ a ∈ as, ok a) := by
  refine Reads.of (fun bs as rest read => ?_) (fun as rest is => ?_)
  · obtain ⟨n, rest', lt, rfl, next⟩ := reads_r1.bind.mp read
    obtain ⟨⟨rfl, all⟩, rfl⟩ := (reads.times n _ _ _).mp next
    exact ⟨⟨lt, all⟩, by rw [List.append_assoc]⟩
  · rw [List.append_assoc]
    have count := reads_r1.read is.1 (as.flatMap enc ++ rest)
    unfold rCounted
    rw [count]
    exact (reads.times _).read ⟨rfl, is.2⟩ rest

end

end Sys2Proof.Machine

/-! PROOFS. The readers of spans, targets and records read the fields these are laid out in (11 R195, R197). -/

namespace Sys2Proof.Machine

section
variable (n : Nat) (i : Int)

@[simp] theorem octets_n1 : (Field.n1 n).octets = e1 n := rfl
@[simp] theorem octets_n2 : (Field.n2 n).octets = e2 n := rfl
@[simp] theorem octets_n4 : (Field.n4 n).octets = e4 n := rfl
@[simp] theorem octets_i1 : (Field.i1 i).octets = eInt1 i := rfl

@[simp] theorem fits_n1 : (Field.n1 n).fits = true ↔ n < 256 := decide_eq_true_iff
@[simp] theorem fits_n2 : (Field.n2 n).fits = true ↔ n < 65536 := decide_eq_true_iff
@[simp] theorem fits_n4 : (Field.n4 n).fits = true ↔ n < 4294967296 := decide_eq_true_iff
@[simp] theorem fits_i1 : (Field.i1 i).fits = true ↔ -128 ≤ i ∧ i < 128 := by simp [Field.fits]

end

/-- The octets of fields one after another. -/
def octetsOf (fs : List Field) : List Byte := fs.flatMap Field.octets

@[simp] theorem octetsOf_nil : octetsOf [] = [] := rfl

@[simp] theorem octetsOf_cons (f : Field) (fs : List Field) : octetsOf (f :: fs) = f.octets ++ octetsOf fs := rfl

@[simp] theorem octetsOf_append (fs gs : List Field) : octetsOf (fs ++ gs) = octetsOf fs ++ octetsOf gs := List.flatMap_append

theorem octetsOf_flatMap {α : Type} (f : α → List Field) (as : List α) : octetsOf (as.flatMap f) = as.flatMap fun a => octetsOf (f a) :=
  List.flatMap_assoc

/-- Whether every value fits its field. -/
def AllFit (fs : List Field) : Prop := fs.all Field.fits = true

@[simp] theorem allFit_nil : AllFit [] := rfl

@[simp] theorem allFit_cons (f : Field) (fs : List Field) : AllFit (f :: fs) ↔ f.fits = true ∧ AllFit fs := by
  rw [AllFit, List.all_cons, Bool.and_eq_true, AllFit]

@[simp] theorem allFit_append (fs gs : List Field) : AllFit (fs ++ gs) ↔ AllFit fs ∧ AllFit gs := by
  rw [AllFit, List.all_append, Bool.and_eq_true, AllFit, AllFit]

theorem allFit_flatMap {α : Type} (f : α → List Field) (as : List α) : AllFit (as.flatMap f) ↔ ∀ a ∈ as, AllFit (f a) := by
  simp only [AllFit, List.all_flatMap, List.all_eq_true]

/-- A reader that reads the fields of its value. -/
def ReadsFields {α : Type} (r : Reader α) (fs : α → List Field) : Prop :=
  Reads r (fun a => octetsOf (fs a)) (fun a => AllFit (fs a))

section
variable {α β : Type} {r : Reader α} {fs : α → List Field} (reads : ReadsFields r fs)
include reads

theorem ReadsFields.read {a : α} (fits : AllFit (fs a)) (rest : List Byte) :
    r (octetsOf (fs a) ++ rest) = some (a, rest) := Reads.read reads fits rest

theorem ReadsFields.bind {f : α × List Byte → Option β} {bs : List Byte} {b : β} : (r bs).bind f = some b ↔
    ∃ a rest, AllFit (fs a) ∧ bs = octetsOf (fs a) ++ rest ∧ f (a, rest) = some b := Reads.bind reads

end

/-! ## Optional fields -/

theorem octetsOf_optField_none (f : Nat → Field) : octetsOf (optField f none) = e1 0 := rfl

theorem reads_optField {r : Reader Nat} {f : Nat → Field} (reads : Reads r (fun v => (f v).octets) (fun v => (f v).fits = true)) :
    ReadsFields (rOpt r) (optField f) := by
  intro bs x rest
  rw [reads.opt]
  cases x with
  | none => simp [optField]
  | some v => simp [optField]

theorem reads_n1 : Reads r1 (fun v => (Field.n1 v).octets) (fun v => (Field.n1 v).fits = true) := by
  simpa [Reads] using reads_r1

theorem reads_n4 : Reads r4 (fun v => (Field.n4 v).octets) (fun v => (Field.n4 v).fits = true) := by
  simpa [Reads] using reads_r4

theorem reads_opt1 : ReadsFields (rOpt r1) (optField .n1) := reads_optField reads_n1

theorem reads_opt4 : ReadsFields (rOpt r4) (optField .n4) := reads_optField reads_n4

/-! ## Spans, targets and records -/

theorem reads_rSpan : ReadsFields rSpan Span.fields := by
  refine Reads.of (fun bs a rest read => ?_) (fun a rest fits => ?_)
  · simp only [rSpan, Option.bind_eq_bind, reads_r1.bind, reads_r4.bind] at read
    obtain ⟨start, _, start_lt, rfl, len, _, len_lt, rfl, read⟩ := read
    cases read
    simp [Span.fields, *]
  · simp [Span.fields] at fits ⊢
    simp [rSpan, reads_r1.read, reads_r4.read, fits]

theorem reads_rTarget : ReadsFields rTarget TargetParam.fields := by
  refine Reads.of (fun bs a rest read => ?_) (fun a rest fits => ?_)
  · simp only [rTarget, Option.bind_eq_bind, reads_r1.bind] at read
    obtain ⟨kind, _, kind_lt, rfl, index, _, index_lt, rfl, read⟩ := read
    cases read
    simp [TargetParam.fields, *]
  · simp [TargetParam.fields] at fits ⊢
    simp [rTarget, reads_r1.read, fits]

theorem reads_rRoomParam : ReadsFields rRoomParam RoomParam.fields := by
  refine Reads.of (fun bs a rest read => ?_) (fun a rest fits => ?_)
  · simp only [rRoomParam, Option.bind_eq_bind, reads_r1.bind, reads_opt1.bind, reads_r2.bind] at read
    obtain ⟨cap, _, _, rfl, bldg, _, _, rfl, panel, _, _, rfl, k1, _, _, rfl, k2, _, _, rfl, travel, _, _, rfl, label, _, _, rfl, read⟩ := read
    cases read
    simp [RoomParam.fields, *]
  · simp [RoomParam.fields] at fits ⊢
    simp [rRoomParam, reads_r1.read, reads_r2.read, reads_opt1.read, fits]

theorem reads_rZoneParam : ReadsFields rZoneParam ZoneParam.fields := by
  refine Reads.of (fun bs a rest read => ?_) (fun a rest fits => ?_)
  · simp only [rZoneParam, Option.bind_eq_bind, reads_r1.bind] at read
    obtain ⟨kind, _, _, rfl, bookers, _, _, rfl, e, _, _, rfl, g, _, _, rfl, h, _, _, rfl, au, _, _, rfl, pr, _, _, rfl, badge, _, _, rfl,
      w, _, _, rfl, read⟩ := read
    cases read
    simp [ZoneParam.fields, *]
  · simp [ZoneParam.fields] at fits ⊢
    simp [rZoneParam, reads_r1.read, fits]

theorem reads_rKitchenParam : ReadsFields rKitchenParam KitchenParam.fields := by
  refine Reads.of (fun bs a rest read => ?_) (fun a rest fits => ?_)
  · simp only [rKitchenParam, Option.bind_eq_bind, reads_r1.bind] at read
    obtain ⟨capb, _, _, rfl, lead, _, _, rfl, late, _, _, rfl, en, _, _, rfl, read⟩ := read
    cases read
    simp [KitchenParam.fields, *]
  · simp [KitchenParam.fields] at fits ⊢
    simp [rKitchenParam, reads_r1.read, fits]

/-- A signed octet, as an unsigned one holds it. -/
theorem eInt1_eq {i : Int} : eInt1 i = e1 (BitVec.ofInt 8 i).toNat := (e1_toNat _).symm

theorem toInt_ofInt_of_fits {i : Int} (low : -128 ≤ i) (high : i < 128) : (BitVec.ofInt 8 i).toInt = i := by
  rw [BitVec.toInt_ofInt]
  exact Int.bmod_eq_of_le (by omega) (by omega)

theorem eInt1_toInt {n : Nat} (lt : n < 256) : eInt1 (BitVec.ofNat 8 n).toInt = e1 n := by
  rw [eInt1_eq, BitVec.ofInt_toInt, BitVec.toNat_ofNat, Nat.mod_eq_of_lt lt]

theorem toInt_fits (b : Byte) : -128 ≤ b.toInt ∧ b.toInt < 128 := ⟨BitVec.le_toInt b, BitVec.toInt_lt⟩

theorem reads_rOrderParam : ReadsFields rOrderParam OrderParam.fields := by
  refine Reads.of (fun bs a rest read => ?_) (fun a rest fits => ?_)
  · simp only [rOrderParam, Option.bind_eq_bind, reads_r1.bind] at read
    obtain ⟨covers, _, _, rfl, cls, _, _, rfl, kreq, _, _, rfl, off, _, off_lt, rfl, fb, _, _, rfl, read⟩ := read
    cases read
    simp [OrderParam.fields, toInt_fits, eInt1_toInt off_lt, *]
  · simp [OrderParam.fields] at fits ⊢
    obtain ⟨covers, cls, kreq, ⟨low, high⟩, fb⟩ := fits
    have offset : (BitVec.ofNat 8 (BitVec.ofInt 8 a.offset).toNat).toInt = a.offset := by
      rw [BitVec.ofNat_toNat, BitVec.setWidth_eq, toInt_ofInt_of_fits low high]
    have octet : (BitVec.ofInt 8 a.offset).toNat < 256 := (BitVec.ofInt 8 a.offset).isLt
    simp only [rOrderParam, eInt1_eq, Option.bind_eq_bind, reads_r1.read, covers, cls, kreq, fb, octet, Option.bind_some, offset]
    rfl

end Sys2Proof.Machine

/-! PROOFS. A request is read from the octets of its fields, and a frame is good just when it is a request's (09 R178, 11 R195). -/

namespace Sys2Proof.Machine

/-! ## Requests -/

theorem fin_eq_some {p q : Request} {bs : List Byte} : fin p bs = some q ↔ p = q ∧ bs = [] := by
  cases bs <;> simp [fin]

/-- A zone table carries the records of its five zones (02 R26). -/
def Request.ZonesWhole : Request → Prop
  | .stageZones _ _ _ _ attrs _ => attrs.length = 5
  | _ => True

theorem fits_iff {q : Request} : q.fits = true ↔ AllFit q.fields ∧ q.ZonesWhole := by
  unfold Request.fits
  rw [Bool.and_eq_true]
  refine and_congr_right fun _ => ?_
  cases q <;> simp [Request.ZonesWhole]

theorem reads_rooms : Reads (rCounted rRoomParam) (fun qs => e1 qs.length ++ octetsOf (qs.flatMap RoomParam.fields))
    (fun qs => qs.length < 256 ∧ AllFit (qs.flatMap RoomParam.fields)) := by
  simpa only [octetsOf_flatMap, allFit_flatMap] using reads_rRoomParam.counted

theorem reads_kitchens : Reads (rCounted rKitchenParam) (fun qs => e1 qs.length ++ octetsOf (qs.flatMap KitchenParam.fields))
    (fun qs => qs.length < 256 ∧ AllFit (qs.flatMap KitchenParam.fields)) := by
  simpa only [octetsOf_flatMap, allFit_flatMap] using reads_rKitchenParam.counted

theorem read_rooms {qs : List RoomParam} (count : qs.length < 256) (fits : AllFit (qs.flatMap RoomParam.fields)) (rest : List Byte) :
    rCounted rRoomParam (e1 qs.length ++ (octetsOf (qs.flatMap RoomParam.fields) ++ rest)) = some (qs, rest) := by
  rw [← List.append_assoc]
  exact reads_rooms.read ⟨count, fits⟩ rest

theorem read_kitchens {qs : List KitchenParam} (count : qs.length < 256) (fits : AllFit (qs.flatMap KitchenParam.fields))
    (rest : List Byte) :
    rCounted rKitchenParam (e1 qs.length ++ (octetsOf (qs.flatMap KitchenParam.fields) ++ rest)) = some (qs, rest) := by
  rw [← List.append_assoc]
  exact reads_kitchens.read ⟨count, fits⟩ rest

theorem reads_zones : Reads (rTimes rZoneParam 5) (fun qs => octetsOf (qs.flatMap ZoneParam.fields))
    (fun qs => qs.length = 5 ∧ AllFit (qs.flatMap ZoneParam.fields)) := by
  simpa only [octetsOf_flatMap, allFit_flatMap] using reads_rZoneParam.times 5

/-- What is read for a kind code are the fields of a request of that kind. -/
theorem readRequest_sound {k : Nat} {bs : List Byte} {q : Request} (read : readRequest k bs = some q) :
    q.kind = k ∧ q.fits = true ∧ bs = octetsOf q.fields := by
  rw [fits_iff]
  unfold readRequest at read
  split at read
  case h_42 => cases read
  case h_1 | h_20 | h_23 | h_37 | h_41 =>
    obtain ⟨rfl, rfl⟩ := fin_eq_some.mp read
    simp [Request.kind, Request.fields, Request.ZonesWhole]
  all_goals
    simp only [Option.bind_eq_bind, reads_r1.bind, reads_r2.bind, reads_r4.bind, reads_rBookingId.bind, reads_rOrderId.bind, reads_rSpan.bind,
      reads_rTarget.bind, reads_rOrderParam.bind, reads_opt1.bind, reads_opt4.bind, reads_rooms.bind, reads_kitchens.bind,
      reads_zones.bind] at read
    repeat obtain ⟨_, _, _, rfl, read⟩ := read
    obtain ⟨rfl, rfl⟩ := fin_eq_some.mp read
    simp_all [Request.kind, Request.fields, Request.ZonesWhole, bookingWord_lt, orderWord_lt, Nat.mod_eq_of_lt]

/-- The octets of a request's fields are read as that request. -/
theorem readRequest_complete {q : Request} (fits : q.fits = true) : readRequest q.kind (octetsOf q.fields) = some q := by
  rw [fits_iff] at fits
  rw [← List.append_nil (octetsOf q.fields)]
  cases q
  all_goals
    simp [Request.fields, Request.ZonesWhole] at fits
    simp [-List.append_nil, readRequest, Request.kind, Request.fields, reads_r1.read, reads_r2.read, reads_r4.read, reads_rBookingId.read, reads_rOrderId.read,
      reads_rSpan.read, reads_rTarget.read, reads_rOrderParam.read, reads_opt1.read, reads_opt4.read, read_rooms,
      read_kitchens, reads_zones.read, fits, fin]

/-- The kind codes are those from 1 to 41. -/
theorem kind_range (q : Request) : 1 ≤ q.kind ∧ q.kind ≤ 41 := by
  cases q <;> simp [Request.kind]

theorem readRequest_none {k : Nat} (other : k = 0 ∨ 42 ≤ k) (bs : List Byte) : readRequest k bs = none := by
  refine Option.eq_none_iff_forall_ne_some.mpr fun q read => ?_
  obtain ⟨kind, -, -⟩ := readRequest_sound read
  obtain ⟨low, high⟩ := kind_range q
  omega

/-! ## The check byte -/

theorem foldl_toNat (octets : List Byte) (n : Nat) :
    octets.foldl (fun acc b => acc + b.toNat) n = n + (octets.map BitVec.toNat).sum := by
  induction octets generalizing n with
  | nil => rfl
  | cons b octets ih => rw [List.foldl_cons, ih, List.map_cons, List.sum_cons, Nat.add_assoc]

theorem checksumOk_iff {octets : List Byte} : checksumOk octets = true ↔ (octets.map BitVec.toNat).sum % 256 = 0 := by
  rw [checksumOk, foldl_toNat, Nat.zero_add, decide_eq_true_iff]

theorem toNat_foldl (octets : List Byte) (b : Byte) :
    (octets.foldl (· + ·) b).toNat = (b.toNat + (octets.map BitVec.toNat).sum) % 256 := by
  induction octets generalizing b with
  | nil => exact (Nat.mod_eq_of_lt b.isLt).symm
  | cons c octets ih =>
    rw [List.foldl_cons, ih, BitVec.toNat_add, List.map_cons, List.sum_cons]
    omega

/-- The check byte is the one octet that completes a frame. -/
theorem checksumOk_append {covered : List Byte} {c : Byte} : checksumOk (covered ++ [c]) = true ↔ c = checkByte covered := by
  have sum := toNat_foldl covered 0
  have c_lt := c.isLt
  rw [checksumOk_iff, List.map_append, List.sum_append, checkByte, ← BitVec.toNat_inj, BitVec.toNat_sub, sum]
  simp only [List.map_cons, List.map_nil, List.sum_cons, List.sum_nil]
  omega

/-! ## Frames -/

/-- A frame by its octets: LEN, TAG, KIND, the parameters and CHK. -/
theorem requestFrame_eq (tag : Byte) (q : Request) : requestFrame tag q =
    ([BitVec.ofNat 8 ((octetsOf q.fields).length + 4), tag, BitVec.ofNat 8 q.kind] ++ octetsOf q.fields) ++
      [checkByte ([BitVec.ofNat 8 ((octetsOf q.fields).length + 4), tag, BitVec.ofNat 8 q.kind] ++ octetsOf q.fields)] := rfl

theorem readFrame_cons {len tag kind : Byte} {rest : List Byte} {q : Request} : readFrame (len :: tag :: kind :: rest) = some q ↔
    (4 ≤ len.toNat ∧ len.toNat = (len :: tag :: kind :: rest).length ∧ checksumOk (len :: tag :: kind :: rest) = true) ∧
      readRequest kind.toNat rest.dropLast = some q := by
  unfold readFrame
  exact Option.ite_none_right_eq_some

theorem readFrame_short {octets : List Byte} (short : octets.length < 4) : readFrame octets = none := by
  refine Option.eq_none_iff_forall_ne_some.mpr fun q read => ?_
  match octets with
  | [] | [_] | [_, _] => cases read
  | len :: tag :: kind :: rest =>
    obtain ⟨⟨low, length, -⟩, -⟩ := readFrame_cons.mp read
    omega

/-- A good frame is the frame of the request that is read from it. -/
theorem readFrame_sound {octets : List Byte} {q : Request} (read : readFrame octets = some q) :
    q.fits = true ∧ octets.length ≤ 255 ∧ ∃ tag, octets = requestFrame tag q := by
  match octets with
  | [] | [_] | [_, _] => cases read
  | len :: tag :: kind :: rest =>
    obtain ⟨⟨low, length, check⟩, request⟩ := readFrame_cons.mp read
    obtain ⟨is_kind, fits, params⟩ := readRequest_sound request
    have len_lt := len.isLt
    refine ⟨fits, by omega, tag, ?_⟩
    have held : rest ≠ [] := by
      rintro rfl
      simp at length
      omega
    have split : rest = octetsOf q.fields ++ [rest.getLast held] := by rw [← params, List.dropLast_append_getLast]
    have is_len : BitVec.ofNat 8 ((octetsOf q.fields).length + 4) = len := by
      rw [split] at length
      simp at length
      rw [show (octetsOf q.fields).length + 4 = len.toNat by omega, BitVec.ofNat_toNat, BitVec.setWidth_eq]
    have code : BitVec.ofNat 8 q.kind = kind := by rw [is_kind, BitVec.ofNat_toNat, BitVec.setWidth_eq]
    have whole : len :: tag :: kind :: rest = ([len, tag, kind] ++ octetsOf q.fields) ++ [rest.getLast held] := by
      rw [List.append_assoc, ← split]
      rfl
    rw [whole, checksumOk_append] at check
    rw [requestFrame_eq, is_len, code, whole, ← check]

/-- The frame of a request is good. -/
theorem readFrame_complete {q : Request} {tag : Byte} (fits : q.fits = true) (length : (requestFrame tag q).length ≤ 255) :
    readFrame (requestFrame tag q) = some q := by
  rw [requestFrame_eq] at length ⊢
  obtain ⟨-, kind_le⟩ := kind_range q
  have kind : (BitVec.ofNat 8 q.kind).toNat = q.kind := by rw [BitVec.toNat_ofNat, Nat.mod_eq_of_lt (by omega)]
  have check := checksumOk_append.mpr (rfl : _ = checkByte ([BitVec.ofNat 8 ((octetsOf q.fields).length + 4), tag, BitVec.ofNat 8 q.kind] ++
    octetsOf q.fields))
  simp only [List.cons_append, List.nil_append] at length check ⊢
  simp only [List.length_cons, List.length_append, List.length_nil] at length
  have len : (BitVec.ofNat 8 ((octetsOf q.fields).length + 4)).toNat = (octetsOf q.fields).length + 4 := by
    rw [BitVec.toNat_ofNat, Nat.mod_eq_of_lt (by omega)]
  refine readFrame_cons.mpr ⟨⟨by omega, ?_, check⟩, ?_⟩
  · simp only [List.length_cons, List.length_append, List.length_nil]
    omega
  · rw [List.dropLast_concat, kind]
    exact readRequest_complete fits

theorem readFrame_eq_some {octets : List Byte} {q : Request} : readFrame octets = some q ↔
    q.fits = true ∧ octets.length ≤ 255 ∧ ∃ tag, octets = requestFrame tag q :=
  ⟨readFrame_sound, fun ⟨fits, length, _, frame⟩ => by
    subst frame
    exact readFrame_complete fits length⟩

theorem readFrame_badLength {len : Byte} {rest : List Byte} (bad : len.toNat ≠ (len :: rest).length) : readFrame (len :: rest) = none := by
  refine Option.eq_none_iff_forall_ne_some.mpr fun q read => ?_
  match rest with
  | [] | [_] => cases read
  | tag :: kind :: rest => exact bad (readFrame_cons.mp read).1.2.1

theorem readFrame_badSum {octets : List Byte} (bad : (octets.map BitVec.toNat).sum % 256 ≠ 0) : readFrame octets = none := by
  refine Option.eq_none_iff_forall_ne_some.mpr fun q read => ?_
  match octets with
  | [] | [_] | [_, _] => cases read
  | len :: tag :: kind :: rest => exact bad (checksumOk_iff.mp (readFrame_cons.mp read).1.2.2)

theorem readFrame_badKind {len tag kind : Byte} {rest : List Byte} (bad : kind = 0 ∨ 42 ≤ kind.toNat) :
    readFrame (len :: tag :: kind :: rest) = none := by
  refine Option.eq_none_iff_forall_ne_some.mpr fun q read => ?_
  have request := (readFrame_cons.mp read).2
  rw [readRequest_none (bad.imp_left fun zero => by rw [zero]; rfl)] at request
  cases request

end Sys2Proof.Machine

/-! PROOFS. The transactions of a port: the status word, a frame written and judged, and a response read (09 R177 to R181, R184). -/

namespace Sys2Proof.Machine

open Host

/-! ## What a role may send -/

theorem permitted_iff (q : Request) (role : Role) : q.permitted role = true ↔
    q.kind ∈ [1, 8, 9, 17, 21, 22, 23, 25, 29, 31, 32, 34, 35, 36, 37, 41] ∨
    (role = .gateway ∧ q.kind ∈ [10, 11, 12, 13, 14, 15]) ∨
    (role = .console ∧ q.kind ∈ [10, 11, 12, 13, 14, 15, 16, 26]) ∨
    (role = .catering ∧ q.kind ∈ [30, 33]) ∨
    (role = .facilities ∧ q.kind ∈ [2, 3, 4, 5, 6, 7, 10, 11, 12, 13, 14, 15, 16, 18, 19, 20, 24, 26, 27, 28, 30, 38, 39, 40]) := by
  cases q <;> simp [Request.permitted, Request.kind, or_assoc]

theorem badLines_iff_names (q : Request) : q.badLines = true ↔
    (∃ ls, (ls = 0 ∨ 15 < ls) ∧ ((∃ pattern mask code duration, q = .announce ls pattern mask code duration) ∨
      q = .clearLineStats ls ∨ q = .lineReset ls)) ∨
    ∃ l, 3 < l ∧ q = .queryLine l := by
  cases q <;> simp [Request.badLines]

theorem eResponse_eq (x : Response) (dropped : Bool) : eResponse x dropped =
    [x.tag, BitVec.ofNat 8 x.code.toNat, if dropped then 1#8 else 0#8, BitVec.ofNat 8 (x.payload.length / 256),
      BitVec.ofNat 8 x.payload.length] ++ x.payload := by
  cases dropped <;> rfl

/-! ## Octets clocked out -/

theorem fillTo_nil (n : Nat) : fillTo n [] = List.replicate n 0#8 := by
  simp [fillTo]

theorem fillTo_whole {n : Nat} {octets : List Byte} (whole : octets.length ≤ n) :
    fillTo n octets = octets ++ List.replicate (n - octets.length) 0#8 := by
  rw [fillTo, List.take_of_length_le whole]

theorem fillTo_short {n : Nat} {octets : List Byte} (short : n < octets.length) : fillTo n octets = octets.take n := by
  rw [fillTo, Nat.sub_eq_zero_of_le short.le]
  exact List.append_nil _

/-! ## Writing and reading at a port -/

section
variable {s : State} {p : Port} {r : PortRec}

theorem isOpen_iff : r.isOpen = true ↔ r.link = .open := decide_eq_true_iff

theorem not_isOpen (stopped : r.link = .stopped) : ¬r.isOpen = true := by
  rw [isOpen_iff, stopped]
  decide

@[simp] theorem setPort_port_same (x : PortRec) : (s.setPort p x).ports[p] = x := put_get_same _ _ _

@[simp] theorem setPort_setPort (x y : PortRec) : (s.setPort p x).setPort p y = s.setPort p y := by
  unfold State.setPort
  simp

/-- A change of a port's record after octets were clocked out there. -/
theorem setPort_clockOut (octets : List Byte) (f : PortRec → PortRec) :
    (clockOut p octets s).setPort p (f (clockOut p octets s).ports[p]) = s.setPort p (f { s.ports[p] with dataOut := octets }) := by
  unfold clockOut
  rw [setPort_port_same, setPort_setPort]

section
variable {octets : List Byte}

theorem judgeFrame_bad (bad : readFrame octets = none) : judgeFrame p octets s = answerItself p (frameTag octets) .badFrame s := by
  unfold judgeFrame
  rw [bad]

variable {q : Request} (read : readFrame octets = some q)
include read

theorem judgeFrame_denied (denied : q.permitted (s.ports[p]).role = false) :
    judgeFrame p octets s = answerItself p (frameTag octets) .denied s := by
  unfold judgeFrame
  rw [read]
  exact if_pos (by rw [denied]; rfl)

variable (permitted : q.permitted (s.ports[p]).role = true)
include permitted

theorem judgeFrame_badLines (bad : q.badLines = true) : judgeFrame p octets s = answerItself p (frameTag octets) .badParam s := by
  unfold judgeFrame
  rw [read]
  exact (if_neg (by rw [permitted]; exact Bool.false_ne_true)).trans (if_pos bad)

theorem judgeFrame_good (good : q.badLines = false) : judgeFrame p octets s = handRequest p (frameTag octets) q s := by
  unfold judgeFrame
  rw [read]
  exact (if_neg (by rw [permitted]; exact Bool.false_ne_true)).trans (if_neg (Bool.eq_false_iff.mp good))

end

section
variable (is_open : (s.ports[p]).link = .open)
include is_open

theorem exec_statusTransaction_open (code : Byte) :
    exec (.statusTransaction p code) s = .next (clockOut p (statusWord s.ports[p]) s) :=
  congrArg Outcome.next (if_pos (isOpen_iff.mpr is_open))

theorem exec_requestTransaction_open (octets : List Byte) : exec (.requestTransaction p octets) s = .next
    (if (s.ports[p]).state = .idle then
      if octets.isEmpty then clockOut p (statusWord s.ports[p]) s else judgeFrame p octets (clockOut p (statusWord s.ports[p]) s)
    else s.setPort p { s.ports[p] with dataOut := statusWord s.ports[p], dropped := true }) := by
  refine congrArg Outcome.next ((if_pos (isOpen_iff.mpr is_open)).trans ?_)
  cases state : (s.ports[p]).state with
  | idle => rfl
  | pending => exact setPort_clockOut _ fun x => { x with dropped := true }
  | ready => exact setPort_clockOut _ fun x => { x with dropped := true }

theorem exec_responseTransaction_waits (clocked : Nat) (waits : (s.ports[p]).state ≠ .ready) : exec (.responseTransaction p clocked) s =
    .next (clockOut p (statusWord s.ports[p] ++ fillTo clocked []) s) := by
  refine congrArg Outcome.next ((if_pos (isOpen_iff.mpr is_open)).trans ?_)
  split
  · next ready _ => exact absurd ready waits
  · rfl

theorem exec_responseTransaction_ready (clocked : Nat) {x : Response} (ready : (s.ports[p]).state = .ready)
    (response : (s.ports[p]).response = some x) : exec (.responseTransaction p clocked) s = .next
      (if (eResponse x (s.ports[p]).dropped).length ≤ clocked then
        s.setPort p { s.ports[p] with
          dataOut := statusWord s.ports[p] ++ fillTo clocked (eResponse x (s.ports[p]).dropped)
          state := .idle, response := none, dropped := false }
      else clockOut p (statusWord s.ports[p] ++ fillTo clocked (eResponse x (s.ports[p]).dropped)) s) := by
  refine congrArg Outcome.next ((if_pos (isOpen_iff.mpr is_open)).trans ?_)
  rw [ready, response]
  dsimp only
  rw [setPort_clockOut _ fun x => { x with state := .idle, response := none, dropped := false }]

end

end

/-- Settles O57: frames by the layout of requests, and each transaction by the port's link, state and response. -/
theorem portsTakeTransactions : Obligations.PortsTakeTransactions := by
  unfold Obligations.PortsTakeTransactions
  refine ⟨fun octets q => readFrame_eq_some, fun octets => ⟨?_, ?_, readFrame_badSum, ?_, ?_, ?_⟩,
    fun q role => ⟨permitted_iff q role, badLines_iff_names q⟩, fun r => rfl, rfl, rfl, eResponse_eq, rfl, fun p s octets => ?_,
    fun p s clocked stopped => congrArg Outcome.next (if_neg (not_isOpen stopped)), fun p s clocked is_open => ?_⟩
  · rintro (short | long)
    · exact readFrame_short short
    · exact Option.eq_none_iff_forall_ne_some.mpr fun q read => Nat.not_le.mpr long (readFrame_sound read).2.1
  · rintro len rest rfl bad
    exact readFrame_badLength bad
  · rintro len tag kind rest rfl bad
    exact readFrame_badKind bad
  · intro short
    match octets with
    | [] | [_] => rfl
    | _ :: _ :: _ => exact absurd short (by simp)
  · rintro len tag rest rfl
    rfl
  · intro r at_
    refine ⟨fun stopped code => ⟨congrArg Outcome.next (if_neg (not_isOpen stopped)), congrArg Outcome.next (if_neg (not_isOpen stopped))⟩,
      fun is_open => ⟨exec_statusTransaction_open is_open, fun busy => ?_, fun idle empty => ?_, fun idle held => ?_⟩⟩
    · rw [exec_requestTransaction_open is_open, if_neg busy]
    · rw [exec_requestTransaction_open is_open, if_pos idle, empty]
      rfl
    · intro own
      have role : ((clockOut p (statusWord r) s).ports[p]).role = r.role := by
        unfold clockOut
        rw [setPort_port_same]
      have itself (c : Code) : answerItself p (frameTag octets) c (clockOut p (statusWord r) s) = own c :=
        setPort_clockOut _ fun x => { x with state := .ready, response := some ⟨frameTag octets, c, []⟩ }
      have run : exec (.requestTransaction p octets) s = .next (judgeFrame p octets (clockOut p (statusWord r) s)) := by
        rw [exec_requestTransaction_open is_open, if_pos idle, if_neg (by simpa using held)]
      rw [run]
      refine ⟨fun bad => ?_, fun q read => ⟨fun denied => ?_, fun permitted bad => ?_, fun permitted good => ?_⟩⟩
      · rw [judgeFrame_bad bad, itself]
      · rw [judgeFrame_denied read (by rw [role]; exact denied), itself]
      · rw [judgeFrame_badLines read (by rw [role]; exact permitted) bad, itself]
      · rw [judgeFrame_good read (by rw [role]; exact permitted) good]
        unfold handRequest clockOut
        dsimp only
        rw [setPort_port_same, setPort_setPort]
        rfl
  · intro r
    refine ⟨fun waits => ?_, fun x ready response => ?_⟩
    · rw [exec_responseTransaction_waits is_open clocked waits, fillTo_nil]
      rfl
    · intro octets
      refine ⟨fun whole => ?_, fun short => ?_⟩
      · rw [exec_responseTransaction_ready is_open clocked ready response, if_pos whole, fillTo_whole whole, List.append_assoc]
      · rw [exec_responseTransaction_ready is_open clocked ready response, if_neg (Nat.not_le.mpr short), fillTo_short short]
        rfl

end Sys2Proof.Machine

/-! PROOFS. Answers, queue lengths, stop and restart at a port (09 R180, R182, R185, R186). -/

namespace Sys2Proof.Machine

open Host

section
variable {s : State} {p : Port}

/-! ## Answers and queue lengths -/

theorem exec_ownerAnswer_cons {a : Answer} {rest : List Answer} (waits : s.wires.answers[p] = a :: rest) :
    exec (.ownerAnswer p) s = .next
      (if (s.ports[p]).isOpen && (s.ports[p]).state = .pending && a.reqno = (s.ports[p]).reqno then
        (s.setWires { s.wires with answers := put s.wires.answers p rest }).setPort p
          { s.ports[p] with state := .ready, response := some ⟨(s.ports[p]).tag, a.code, a.payload⟩ }
      else s.setWires { s.wires with answers := put s.wires.answers p rest }) := by
  have run : exec (.ownerAnswer p) s = execOwnerAnswer p s := rfl
  rw [run, execOwnerAnswer, waits]
  rfl

theorem exec_queueLengthReport_cons {n : Nat} {rest : List Nat} (waits : s.wires.qlens[p] = n :: rest) :
    exec (.queueLengthReport p) s = .next
      ((s.setWires { s.wires with qlens := put s.wires.qlens p rest }).setPort p { s.ports[p] with qlen := n }) := by
  have run : exec (.queueLengthReport p) s = execQueueLengthReport p s := rfl
  rw [run, execQueueLengthReport, waits]
  rfl

/-! ## Stop and restart -/

theorem leftAtStop_eq (hs : List HandedRequest) : leftAtStop s hs =
    if SupplyMsg.stop ∈ s.wires.supply[rbkIx] then (hs.filter (fun h => h.req.isBook)).map (fun h => { h with stopped := true }) else [] := by
  split
  · next stops => rw [leftAtStop, List.contains_eq_mem, decide_eq_true stops]; simp
  · next no => exact leftAtStop_of_no_stop no

theorem popSupply_port_rbk : (popSupply (portIx p) s).wires.supply[rbkIx] = s.wires.supply[rbkIx] :=
  popSupply_supply_other (Fin.ne_of_val_ne (show 6 ≠ 8 + p.val by omega)) s

theorem exec_portStop_of_head (head : s.wires.supply[portIx p].head? = some .stop) : exec (.portStop p) s = .next (settleSupply
    (if (s.ports[p]).isOpen then portStop p (popSupply (portIx p) s) else popSupply (portIx p) s)) := by
  rw [exec_of_supply (i := portIx p) (sel := fun | .stop => some () | _ => none)
    (work := fun _ s => if (s.ports[p]).isOpen then portStop p s else s) (a := ()) rfl head rfl, popSupply_ports]

theorem portStop_eq : portStop p s =
    (s.setPort p { s.ports[p] with link := .stopped, response := none }).setWires
      { s.wires with requests := put s.wires.requests p (leftAtStop s s.wires.requests[p]) } := rfl

theorem exec_portWarmStartComplete_of_head (head : s.wires.supply[portIx p].head? = some .complete) :
    exec (.portWarmStartComplete p) s = .next (settleSupply (portOpen p (popSupply (portIx p) s))) :=
  exec_of_supply (i := portIx p) (sel := fun | .complete => some () | _ => none) (work := fun _ s => portOpen p s) (a := ()) rfl head rfl

theorem portOpen_eq : portOpen p s =
    (s.setPort p { s.ports[p] with
      state := .idle, response := none, dropped := false, link := .open, qlen := (s.wires.qlens[p]).getLast?.getD (s.ports[p]).qlen }).setWires
      { s.wires with qlens := put s.wires.qlens p [] } := rfl

end

/-- Settles O58: each answer by what the port waits on, and the stop and the restart by what they leave. -/
theorem portsTakeAnswersAndStops : Obligations.PortsTakeAnswersAndStops := by
  unfold Obligations.PortsTakeAnswersAndStops
  intro p s r
  refine ⟨fun a rest waits => ?_, fun n rest waits => exec_queueLengthReport_cons waits, fun head => ?_, fun head => ?_, ?_⟩
  · intro u
    rw [exec_ownerAnswer_cons waits]
    refine ⟨fun is_open pending same => ?_, fun other => ?_⟩
    · rw [if_pos (by rw [Bool.and_eq_true, Bool.and_eq_true, isOpen_iff]; exact ⟨⟨is_open, decide_eq_true pending⟩, decide_eq_true same⟩)]
    · rw [if_neg]
      rw [Bool.and_eq_true, Bool.and_eq_true, isOpen_iff, decide_eq_true_iff, decide_eq_true_iff]
      rintro ⟨⟨is_open, pending⟩, same⟩
      rcases other with stopped | busy | differ
      · exact absurd (is_open.symm.trans stopped) (by decide)
      · exact busy pending
      · exact differ same
  · intro u
    rw [exec_portStop_of_head head]
    refine ⟨fun stopped => by rw [if_neg (not_isOpen stopped)], fun is_open => ?_⟩
    intro v left
    have wires : u.wires = { s.wires with supply := modAt s.wires.supply (portIx p) List.tail } := popSupply_wires _ _
    have requests : u.wires.requests = s.wires.requests := by rw [wires]
    have record : u.ports[p] = r := by rw [popSupply_ports]
    have stop : portStop p u = v.setWires { v.wires with requests := put v.wires.requests p left } := by
      have kept : v.wires.requests = s.wires.requests := requests
      rw [portStop_eq, leftAtStop_eq, popSupply_port_rbk, requests, record, kept]
      rfl
    rw [if_pos (isOpen_iff.mpr is_open), stop]
  · intro u
    have wires := popSupply_wires (portIx p) s
    have qlens : (popSupply (portIx p) s).wires.qlens = s.wires.qlens := by rw [wires]
    rw [exec_portWarmStartComplete_of_head head, portOpen_eq, qlens, popSupply_ports]
    rfl
  · rw [PortRec.attention, Bool.and_eq_true, Bool.or_eq_true, decide_eq_true_iff, decide_eq_true_iff, decide_eq_true_iff]

end Sys2Proof.Machine

/-! PROOFS. SSTATE moved by a request and by the quiet schedule, and the answers that wait for the receivers (10 R188, R189, R191). -/

namespace Sys2Proof.Machine

open Host

/-! ## A change of SSTATE (R188) -/

/-- The SUPPLY notice of a change made with the clock `d`. -/
def supplyNote (x : SState) (c : Cause) (port : Option Port) (d : Clock) : HandedNotice :=
  { note := { kind := .supply, date := d, booking := none, order := none, room := none, panel := none, detail := detail2 x.toNat c.toNat }
    dated := true, owner := none, cause := port }

section
variable (x : SState) (c : Cause) (port : Option Port) (s : State)

theorem enterState_eq : ∃ supply, enterState x c s =
    (s.setPwc { s.pwc with sstate := x, lastCause := some c, lastChange := some (s.now .pwc) }).setWires
      { s.wires with supply := supply } :=
  handSupplyTo_eq (m := .state x) (s := s.setPwc { s.pwc with sstate := x, lastCause := some c, lastChange := some (s.now .pwc) }) stateTakers

theorem enterState_supply (i : Fin 12) :
    (enterState x c s).wires.supply[i] = s.wires.supply[i] ++ List.replicate (stateTakers.count i) (.state x) :=
  handSupplyTo_supply _ _ _ i

theorem changeState_supply (i : Fin 12) :
    (changeState x c port s).wires.supply[i] = s.wires.supply[i] ++ List.replicate (stateTakers.count i) (.state x) :=
  enterState_supply x c s i

theorem changeState_notices : (changeState x c port s).wires.notices =
    modAt s.wires.notices (producerIx .pwc) (· ++ [supplyNote x c port (s.now .pwc)]) := by
  obtain ⟨supply, entered⟩ := enterState_eq x c s
  rw [changeState, entered]
  rfl

/-- The receivers of a supply state are the four lines and OCU, once each. -/
theorem count_stateTakers (i : Fin 12) : stateTakers.count i = if i.val ≤ 4 then 1 else 0 := by
  revert i
  decide

end

/-! ## SET_POWER (R189) -/

section
variable {p : Port} {h : HandedRequest} {rest : List HandedRequest} {s : State} {code : Nat} {q : Asker} {x : SState}

theorem exec_setPower_of_asks (asks : s.asks p h rest) (req : h.req = .setPower code) (is_open : s.pwc.phase = .open) :
    exec (.setPower p) s = .next (setPowerWork (h.asker p) code (s.took p rest)) := by
  have run : exec (.setPower p) s = execSetPower p s := rfl
  rw [run, execSetPower, if_pos is_open, onRequest_of_asks asks (a := code) (by rw [req])]

theorem powerTarget_none (bad : 2 ≤ code) : powerTarget code = none := by
  match code with
  | 0 | 1 => omega
  | _ + 2 => rfl

theorem setPowerWork_bad (bad : 2 ≤ code) : setPowerWork q code s = reply q .badParam [] s := by
  rw [setPowerWork, powerTarget_none bad]

theorem setPowerWork_target (target : powerTarget code = some x) : setPowerWork q code s =
    if x = s.pwc.sstate then reply q .ok [] s else waitSupply q (changeState x .request (some q.port) s) := by
  rw [setPowerWork, target]

end

/-! ## Answers that wait for the line units and OCU (R189) -/

section
variable (s : State)

theorem popSupply_waits (i : Fin 12) : (popSupply i s).pwc = { s.pwc with
    waits := s.pwc.waits.map (fun w => { w with left := if h : i.val < 5 then modAt w.left ⟨i.val, h⟩ (· - 1) else w.left }) } := by
  unfold popSupply
  dsimp only
  split
  · rfl
  · simp

theorem supplyWait_ready_eq : SupplyWait.ready = fun w => decide (∀ i : Fin 5, w.left[i] = 0) := by
  funext w
  rw [Bool.eq_iff_iff, decide_eq_true_iff]
  exact all_zero_iff

theorem settleSupply_answers (p : Port) : (settleSupply s).wires.answers[p] = s.wires.answers[p] ++
    (s.pwc.waits.filter (fun w => w.ready && decide (w.port = p))).map (fun w => ⟨w.reqno, .ok, []⟩) := by
  unfold settleSupply
  rw [foldl_answer_get SupplyWait.port SupplyWait.reqno (fun _ => .ok) (fun _ => []), List.filter_filter]
  simp only [Bool.and_comm]
  rfl

theorem settleSupply_wires : (settleSupply s).wires = { s.wires with answers := (settleSupply s).wires.answers } := by
  obtain ⟨as, settled⟩ := settleSupply_eq s
  rw [settled]
  rfl

end

/-! ## The quiet schedule (R191) -/

section
variable {s : State} {c : Clock}

theorem scheduled_iff {minute : Nat} : scheduled s minute c = true ↔ (s.pwc.phase = .open ∧ s.pwc.auto = true) ∧ c.minute = minute := by
  rw [scheduled, Bool.and_eq_true, Bool.and_eq_true, decide_eq_true_iff, decide_eq_true_iff]

theorem exec_quietStart_of_tick (head : s.timeHead .pwc = some (.tick c))
    (wanted : ¬((s.pwc.phase = .open ∧ s.pwc.auto = true) ∧ c.minute = s.pwc.qEnd)) :
    exec .quietStart s = .next (settleTime (pwcTick c (s.ticked .pwc c))) :=
  exec_of_tick rfl head (by simpa [← scheduled_iff] using wanted)

theorem exec_quietEnd_of_tick (head : s.timeHead .pwc = some (.tick c))
    (wanted : ¬((s.pwc.phase = .open ∧ s.pwc.auto = true) ∧ c.minute = s.pwc.qStart)) :
    exec .quietEnd s = .next (settleTime (pwcTick c (s.ticked .pwc c))) :=
  exec_of_tick rfl head (by simpa [← scheduled_iff] using wanted)

theorem pwcTick_idle (idle : ¬(s.pwc.phase = .open ∧ s.pwc.auto = true)) : pwcTick c s = s :=
  if_neg (by rw [Bool.and_eq_true, decide_eq_true_iff]; exact idle)

section
variable (active : s.pwc.phase = .open ∧ s.pwc.auto = true)
include active

theorem pwcTick_active : pwcTick c s =
    if c.minute = s.pwc.qStart ∧ s.pwc.sstate = .run then changeState .quiet .scheduleStart none s
    else if c.minute = s.pwc.qEnd ∧ s.pwc.sstate = .quiet then changeState .run .scheduleEnd none s
    else s := by
  unfold pwcTick
  rw [if_pos (by rw [Bool.and_eq_true, decide_eq_true_iff]; exact active)]
  simp only [Bool.and_eq_true, decide_eq_true_eq]

theorem pwcTick_starts (at_ : c.minute = s.pwc.qStart) (state : s.pwc.sstate = .run) :
    pwcTick c s = changeState .quiet .scheduleStart none s := by
  rw [pwcTick_active active, if_pos ⟨at_, state⟩]

theorem pwcTick_ends (at_ : c.minute = s.pwc.qEnd) (state : s.pwc.sstate = .quiet) :
    pwcTick c s = changeState .run .scheduleEnd none s := by
  rw [pwcTick_active active, if_neg (fun both => absurd (state.symm.trans both.2) (by decide)), if_pos ⟨at_, state⟩]

theorem pwcTick_stands (start : c.minute = s.pwc.qStart → s.pwc.sstate ≠ .run) (stop : c.minute = s.pwc.qEnd → s.pwc.sstate ≠ .quiet) :
    pwcTick c s = s := by
  rw [pwcTick_active active, if_neg fun both => start both.1 both.2, if_neg fun both => stop both.1 both.2]

end

end

/-- Settles O59: a change of SSTATE by what it records and hands, its answer by what is left to take, and each tick by the schedule. -/
theorem supplyMovesAreHandedOn : Obligations.SupplyMovesAreHandedOn := by
  unfold Obligations.SupplyMovesAreHandedOn
  refine ⟨fun x c port s => ?_, fun p h rest s code asks req is_open => ⟨fun bad => ?_, fun x target => ?_⟩, fun i s => ?_, fun s => ?_,
    fun s c head => ?_⟩
  · intro t
    refine ⟨changeState_pwc s x c port, fun i => ?_, ⟨supplyNote x c port (s.now .pwc), changeState_notices x c port s, rfl, rfl, rfl, rfl, rfl⟩,
      (only_changeState (by decide) (by decide)).mpr (.refl _ _)⟩
    have handed : t.wires.supply[i] = _ := changeState_supply x c port s i
    rw [handed, count_stateTakers]
    split
    · rfl
    · exact List.append_nil _
  · rw [exec_setPower_of_asks asks req is_open, setPowerWork_bad bad, reply_took]
  · have named : powerTarget code = some x := by
      rcases target with ⟨rfl, rfl⟩ | ⟨rfl, rfl⟩ <;> rfl
    rw [exec_setPower_of_asks asks req is_open, setPowerWork_target named]
    refine ⟨fun held => ?_, fun other => ?_⟩
    · rw [if_pos (show x = (s.took p rest).pwc.sstate from held.symm), reply_took]
    · intro v
      rw [if_neg (show ¬x = (s.took p rest).pwc.sstate from fun same => other same.symm)]
      rfl
  · intro t
    exact ⟨popSupply_waits s i, popSupply_wires i s, (only_popSupply (by decide) (by decide)).mpr (.refl _ _)⟩
  · intro due t
    have ready : SupplyWait.ready = due := supplyWait_ready_eq
    rw [← ready]
    exact ⟨settleSupply_pwc s, settleSupply_answers s, settleSupply_wires s, (only_settleSupply (by decide) (by decide)).mpr (.refl _ _)⟩
  · intro u active
    refine ⟨fun is differ at_ => ?_, fun is differ at_ => ?_, fun quiet => ?_⟩
    · rw [exec_quietStart_of_tick head fun both => differ (at_.symm.trans both.2)]
      refine ⟨fun state => ?_, fun state => ?_⟩
      · rw [pwcTick_starts (s := u) is at_ state]
      · rw [pwcTick_stands (s := u) is (fun _ => state) fun at_end => absurd (at_.symm.trans at_end) differ]
    · rw [exec_quietEnd_of_tick head fun both => differ (both.2.symm.trans at_)]
      refine ⟨fun state => ?_, fun state => ?_⟩
      · rw [pwcTick_ends (s := u) is at_ state]
      · rw [pwcTick_stands (s := u) is (fun at_start => absurd (at_start.symm.trans at_) differ) fun _ => state]
    · have stands : pwcTick c u = u := by
        by_cases is : active
        · obtain ⟨not_start, not_end⟩ := quiet.resolve_left (not_not.mpr is)
          exact pwcTick_stands (s := u) is (fun at_ => absurd at_ not_start) fun at_ => absurd at_ not_end
        · exact pwcTick_idle (s := u) is
      have never (minute : Nat) (other : c.minute ≠ s.pwc.qStart ∧ c.minute ≠ s.pwc.qEnd → c.minute ≠ minute) :
          ¬((s.pwc.phase = .open ∧ s.pwc.auto = true) ∧ c.minute = minute) := by
        rintro ⟨is, at_⟩
        exact other (quiet.resolve_left (not_not.mpr is)) at_
      rw [exec_quietStart_of_tick head (never _ fun both => both.2), exec_quietEnd_of_tick head (never _ fun both => both.1), stands]
      exact ⟨rfl, rfl⟩

end Sys2Proof.Machine

/-! PROOFS. Power failure stops the part, and a warm start begins and completes (10 R192, R193). -/

namespace Sys2Proof.Machine

open Host

/-! ## Who is told -/

/-- A change of the supply state goes to the lines and OCU, once each. -/
theorem counts_stateTakers : (∀ p, stateTakers.count (portIx p) = 0) ∧ (∀ l, stateTakers.count (lineIx l) = 1) ∧
    stateTakers.count ocuIx = 1 ∧ stateTakers.count nrtIx = 0 ∧ stateTakers.count rbkIx = 0 ∧ stateTakers.count pathIx = 0 := by decide

/-- A stop goes to OCU, the book, the path and the ports, once each. -/
theorem counts_stopTakers : (∀ p, stopTakers.count (portIx p) = 1) ∧ (∀ l, stopTakers.count (lineIx l) = 0) ∧
    stopTakers.count ocuIx = 1 ∧ stopTakers.count nrtIx = 0 ∧ stopTakers.count rbkIx = 1 ∧ stopTakers.count pathIx = 1 := by decide

/-- A warm start goes to the lines, OCU and NRT, once each. -/
theorem counts_warmTakers : (∀ p, warmTakers.count (portIx p) = 0) ∧ (∀ l, warmTakers.count (lineIx l) = 1) ∧
    warmTakers.count ocuIx = 1 ∧ warmTakers.count nrtIx = 1 ∧ warmTakers.count rbkIx = 0 ∧ warmTakers.count pathIx = 0 := by decide

/-- The receivers of a warm start's end (R193). -/
def completeTakers : List (Fin 12) := (List.finRange 4).map portIx

/-- A warm start's end goes to the ports, once each. -/
theorem counts_completeTakers : (∀ p, completeTakers.count (portIx p) = 1) ∧ (∀ l, completeTakers.count (lineIx l) = 0) ∧
    completeTakers.count ocuIx = 0 ∧ completeTakers.count nrtIx = 0 ∧ completeTakers.count rbkIx = 0 ∧
    completeTakers.count pathIx = 0 := by decide

section
variable {s : State} {c : StartCause}

theorem handStop_wires : ∃ supply, (handStop s).wires = { s.wires with supply := supply } := by
  obtain ⟨supply, handed⟩ := handSupplyTo_eq (m := .stop) (s := s) stopTakers
  exact ⟨supply, by rw [handStop, handed]; rfl⟩

theorem handStop_notices : (handStop s).wires.notices = s.wires.notices := by
  obtain ⟨supply, handed⟩ := handStop_wires (s := s)
  rw [handed]

/-! ## Power failure (R192) -/

theorem powerFailWork_retained (retained : s.pwc.sstate = .retain) :
    powerFailWork s = handStop (s.setPwc { s.pwc with phase := .stopped, startCause := none, powerFail := true }) := by
  unfold powerFailWork
  rw [if_pos retained]

theorem powerFailWork_running (running : s.pwc.sstate ≠ .retain) : powerFailWork s = handStop
    ((changeState .retain .powerFail none s).setPwc
      { (changeState .retain .powerFail none s).pwc with phase := .stopped, startCause := none, powerFail := true }) := by
  unfold powerFailWork
  rw [if_neg running]

theorem powerFailWork_supply_retained (retained : s.pwc.sstate = .retain) (i : Fin 12) :
    (powerFailWork s).wires.supply[i] = s.wires.supply[i] ++ List.replicate (stopTakers.count i) .stop := by
  rw [powerFailWork_retained retained]
  exact handSupplyTo_supply _ _ _ i

theorem powerFailWork_notices (running : s.pwc.sstate ≠ .retain) : (powerFailWork s).wires.notices =
    modAt s.wires.notices (producerIx .pwc) (· ++ [supplyNote .retain .powerFail none (s.now .pwc)]) := by
  rw [powerFailWork_running running, handStop_notices, State.setPwc_wires, changeState_notices]

/-! ## A warm start begins (R193) -/

theorem beginWarmStart_supply (i : Fin 12) :
    (beginWarmStart c s).wires.supply[i] = s.wires.supply[i] ++ List.replicate (warmTakers.count i) .warmStart :=
  handSupplyTo_supply _ _ _ i

theorem beginWarmStart_notices : (beginWarmStart c s).wires.notices = s.wires.notices ∧
    (beginWarmStart c s).wires.noticesBefore = mapV List.length s.wires.notices := by
  obtain ⟨supply, begun⟩ := beginWarmStart_eq (s := s) (c := c)
  rw [begun]
  exact ⟨rfl, rfl⟩

theorem exec_powerFailRelease_stopped (stopped : s.pwc.phase = .stopped) :
    exec .powerFailRelease s = .next (beginWarmStart .powerReturn (s.setPwc { s.pwc with powerFail := false })) :=
  congrArg Outcome.next (if_pos stopped)

theorem exec_warmReset_open (is_open : s.pwc.phase = .open) : exec .warmReset s = .next (beginWarmStart .warmReset (handStop s)) :=
  congrArg Outcome.next (if_pos is_open)

/-! ## A warm start completes (R193) -/

theorem warmTaken_iff : warmTaken s = true ↔ ∀ i : Fin 12, i ∈ warmTakers → SupplyMsg.warmStart ∉ s.wires.supply[i] := by
  simp only [warmTaken, List.all_eq_true, Bool.not_eq_true', List.contains_eq_mem, decide_eq_false_iff_not]

/-- The part in RUN at the end of a warm start, its change indicated where it was in another state. -/
def woken (c : StartCause) (s : State) : State := if s.pwc.sstate = .run then s else enterState .run c.cause s

theorem woken_supply (i : Fin 12) : (woken c s).wires.supply[i] =
    s.wires.supply[i] ++ (if s.pwc.sstate = .run then [] else List.replicate (stateTakers.count i) (.state .run)) := by
  unfold woken
  split
  · exact (List.append_nil _).symm
  · exact enterState_supply _ _ s i

theorem woken_notices : (woken c s).wires.notices = s.wires.notices := by
  unfold woken
  split
  · rfl
  · obtain ⟨supply, entered⟩ := enterState_eq .run c.cause s
    rw [entered]
    rfl

theorem woken_times : (woken c s).times = s.times := by
  unfold woken
  split
  · rfl
  · exact handSupplyTo_times _ _ _

theorem woken_now : (woken c s).now .pwc = s.now .pwc := by
  unfold State.now State.timeOf
  rw [woken_times]

/-- PWC as a warm start completes. -/
def runningPwc (c : StartCause) (s : State) : Pwc :=
  { s.pwc with sstate := .run, phase := .open, startCause := none, lastCause := some c.cause, lastChange := some (s.now .pwc) }

theorem completeWarmStart_eq : completeWarmStart c s = supplyNotice .run c.cause none
    (handSupplyTo completeTakers .complete ((woken c s).setPwc (runningPwc c s))) := by
  have standing : { (woken c s).pwc with
      sstate := .run, lastCause := some c.cause, lastChange := some ((woken c s).now .pwc), phase := .open, startCause := none } =
        runningPwc c s := by
    rw [woken_now]
    unfold woken
    split
    · rfl
    · rw [enterState_pwc]
      rfl
  rw [← standing]
  rfl

theorem completeWarmStart_pwc : (completeWarmStart c s).pwc = runningPwc c s := by
  rw [completeWarmStart_eq, supplyNotice_pwc, handSupplyTo_pwc]
  rfl

theorem completeWarmStart_supply (i : Fin 12) : (completeWarmStart c s).wires.supply[i] =
    s.wires.supply[i] ++ (if s.pwc.sstate = .run then [] else List.replicate (stateTakers.count i) (.state .run)) ++
      List.replicate (completeTakers.count i) .complete := by
  rw [completeWarmStart_eq, ← woken_supply (c := c)]
  exact handSupplyTo_supply _ _ _ i

theorem completeWarmStart_notices : (completeWarmStart c s).wires.notices =
    modAt s.wires.notices (producerIx .pwc) (· ++ [supplyNote .run c.cause none (s.now .pwc)]) := by
  obtain ⟨supply, handed⟩ := handSupplyTo_eq (m := .complete) (s := (woken c s).setPwc (runningPwc c s)) completeTakers
  rw [completeWarmStart_eq, handed]
  show modAt (woken c s).wires.notices _ (· ++ [supplyNote .run c.cause none ((woken c s).now .pwc)]) = _
  rw [woken_notices, woken_now]

theorem exec_warmStartComplete_starting (starting : s.pwc.phase = .starting) (cause : s.pwc.startCause = some c) :
    exec .warmStartComplete s = .next (if warmTaken s then completeWarmStart c s else s) := by
  have run : exec .warmStartComplete s = execWarmStartComplete s := rfl
  rw [run, execWarmStartComplete, starting, cause]

end

/-- Settles O60: the failure by SSTATE, and each warm start by what it hands to each receiver. -/
theorem powerFailAndWarmStarts : Obligations.PowerFailAndWarmStarts := by
  unfold Obligations.PowerFailAndWarmStarts
  refine ⟨fun s => ⟨fun stopped => congrArg Outcome.next (if_pos stopped), fun running => ?_⟩, fun s => ?_⟩
  · have run : exec .powerFailAssert s = .next (powerFailWork s) := congrArg Outcome.next (if_neg running)
    refine ⟨powerFailWork s, run, ?_⟩
    by_cases retained : s.pwc.sstate = .retain
    · have pwc : (powerFailWork s).pwc = { s.pwc with phase := .stopped, startCause := none, powerFail := true } := by
        rw [powerFailWork_retained retained, handStop_pwc]
        rfl
      have notices : (powerFailWork s).wires.notices = s.wires.notices := by
        rw [powerFailWork_retained retained, handStop_notices]
        rfl
      refine ⟨by rw [pwc]; exact retained, by rw [pwc], by rw [pwc], by rw [pwc], fun other => absurd retained other,
        fun _ => ⟨by rw [pwc], by rw [pwc], notices⟩, fun p => ?_, ?_, ?_, ?_, ?_, fun l => ?_, only_of_exec run⟩
      all_goals simp [SupplyHanded, powerFailWork_supply_retained retained, counts_stopTakers, retained]
    · have pwc := powerFailWork_pwc retained
      refine ⟨by rw [pwc], by rw [pwc], by rw [pwc], by rw [pwc], fun _ => ⟨by rw [pwc], by rw [pwc], _, powerFailWork_notices retained,
        rfl, rfl, rfl, rfl⟩, fun no => absurd no retained, fun p => ?_, ?_, ?_, ?_, ?_, fun l => ?_, only_of_exec run⟩
      all_goals simp [SupplyHanded, powerFailWork_supply retained, counts_stopTakers, counts_stateTakers, retained]
  · intro told
    refine ⟨fun stopped => ?_, fun is_open => ?_, fun other => congrArg Outcome.next (if_neg other),
      fun other => congrArg Outcome.next (if_neg other), fun c starting cause => ⟨fun untaken => ?_, fun taken => ?_⟩⟩
    · let u := s.setPwc { s.pwc with powerFail := false }
      have run : exec .powerFailRelease s = .next (beginWarmStart .powerReturn u) := exec_powerFailRelease_stopped stopped
      have handed (i : Fin 12) : (beginWarmStart .powerReturn u).wires.supply[i] =
        s.wires.supply[i] ++ List.replicate (warmTakers.count i) .warmStart := beginWarmStart_supply i
      obtain ⟨notices, before⟩ := beginWarmStart_notices (s := u) (c := .powerReturn)
      refine ⟨_, run, ⟨fun l => ?_, ?_, notices, before, only_of_exec run⟩, beginWarmStart_pwc u _, ?_, ?_, ?_, fun p => ?_⟩
      all_goals simp [SupplyHanded, handed, counts_warmTakers]
    · have run : exec .warmReset s = .next (beginWarmStart .warmReset (handStop s)) := exec_warmReset_open is_open
      have handed (i : Fin 12) : (beginWarmStart .warmReset (handStop s)).wires.supply[i] = s.wires.supply[i] ++
          List.replicate (stopTakers.count i) .stop ++ List.replicate (warmTakers.count i) .warmStart := by
        rw [beginWarmStart_supply, handStop, handSupplyTo_supply]
      obtain ⟨notices, before⟩ := beginWarmStart_notices (s := handStop s) (c := .warmReset)
      rw [handStop_notices] at notices before
      refine ⟨_, run, ⟨fun l => ?_, ?_, notices, before, only_of_exec run⟩, by rw [beginWarmStart_pwc, handStop_pwc], ?_, ?_, ?_, fun p => ?_⟩
      all_goals simp [SupplyHanded, handed, counts_warmTakers, counts_stopTakers]
    · obtain ⟨i, mem, waits⟩ := untaken
      rw [exec_warmStartComplete_starting starting cause, if_neg fun done => warmTaken_iff.mp done i mem waits]
    · have run : exec .warmStartComplete s = .next (completeWarmStart c s) := by
        rw [exec_warmStartComplete_starting starting cause, if_pos (warmTaken_iff.mpr taken)]
      refine ⟨_, run, completeWarmStart_pwc, fun p => ?_, fun l => ?_, ?_, ?_, ?_, ?_,
        ⟨_, completeWarmStart_notices, rfl, rfl, rfl, rfl, rfl⟩, only_of_exec run⟩
      all_goals
        simp only [SupplyHanded, completeWarmStart_supply, counts_completeTakers, counts_stateTakers]
        simp

end Sys2Proof.Machine
